-- ==== Sys2Proof/Word.lean ====
section
/-! DEFINITION. The word types of the SK7460 and nothing else: bytes, 32-bit register words, frame numbers and
tides. Field extraction, byte order and sign extension live in Machine/Bits.lean. -/
namespace Sys2Proof

/-- One byte of memory (R5). -/
abbrev Byte := BitVec 8

/-- One register: every register is 32 bits wide (R10). -/
abbrev Word := BitVec 32

/-- A frame number: an unsigned 32-bit count that wraps (R9). -/
abbrev FrameNo := BitVec 32

/-- A quay's tide: 8 bits (chapter "Architecture of the SK7460"). -/
abbrev Tide := BitVec 8

/-- A status code (R22). -/
abbrev Status := BitVec 8

end Sys2Proof
end

