-- ==== Sys2Proof/Machine/Bits.lean ====
section
/-! DEFINITION. Bit fields, byte order and sign of the quantities the spec lays out in registers, descriptors, charts
and messages. Everything multi-byte is little-endian (R5). -/
namespace Sys2Proof.Machine

/-- Bits [hi:lo] of a natural number (R5). -/
def bitsOf (v hi lo : Nat) : Nat := (v >>> lo) % 2 ^ (hi + 1 - lo)

/-- Bit n of a natural number. -/
def bitOf (v n : Nat) : Bool := Nat.testBit v n

/-- Bits [hi:lo] of a register. -/
def fld (w : Word) (hi lo : Nat) : Nat := bitsOf w.toNat hi lo

/-- Bit n of a register. -/
def flag (w : Word) (n : Nat) : Bool := w.getLsbD n

/-- The register word whose bits [hi:lo] are replaced by `v`. -/
def setFld (w : Word) (hi lo v : Nat) : Word :=
  let m : Word := BitVec.ofNat 32 ((2 ^ (hi + 1 - lo) - 1) <<< lo)
  (w &&& ~~~m) ||| (BitVec.ofNat 32 (v <<< lo) &&& m)

/-- A Boolean as bit n. -/
def bitAt (b : Bool) (n : Nat) : Nat := if b then 2 ^ n else 0

/-- A Boolean as a number. -/
def b2n (b : Bool) : Nat := if b then 1 else 0

/-- The register word of a number (its low 32 bits). -/
def w32 (n : Nat) : Word := BitVec.ofNat 32 n

/-- Little-endian bytes as a number (R5). -/
def leNat : List Byte → Nat
  | [] => 0
  | b :: bs => b.toNat + 256 * leNat bs

/-- The low `n` bytes of a number, little-endian (R5). -/
def natLE : Nat → Nat → List Byte
  | 0, _ => []
  | n + 1, v => BitVec.ofNat 8 v :: natLE n (v / 256)

/-- Bytes [off, off + n) of a byte string, zero beyond its end. -/
def slice (bs : List Byte) (off n : Nat) : List Byte :=
  let t := (bs.drop off).take n
  t ++ List.replicate (n - t.length) 0

/-- The little-endian field of `n` bytes at offset `off`. -/
def leAt (bs : List Byte) (off n : Nat) : Nat := leNat (slice bs off n)

/-- The byte string with `new` laid over offset `off`. -/
def overlay (bs : List Byte) (off : Nat) (new : List Byte) : List Byte :=
  bs.take off ++ new.take (bs.length - off) ++ bs.drop (off + new.length)

/-- An n-bit two's-complement number as an integer. -/
def toSigned (n v : Nat) : Int :=
  let u := v % 2 ^ n
  if u < 2 ^ (n - 1) then (u : Int) else (u : Int) - (2 ^ n : Nat)

/-- An integer as an n-bit two's-complement number. -/
def fromSigned (n : Nat) (i : Int) : Nat := (i % ((2 ^ n : Nat) : Int)).toNat

/-- ⌈a ÷ b⌉. -/
def ceilDiv (a b : Nat) : Nat := (a + b - 1) / b

/-- The nearest value in [lo, hi]. -/
def clampNat (lo hi v : Nat) : Nat := max lo (min hi v)

/-- The nearest value in [lo, hi]. -/
def clampInt (lo hi v : Int) : Int := max lo (min hi v)

/-- A counter that saturates at its 32-bit maximum. -/
def satInc (w : Word) (n : Nat) : Word := w32 (min (w.toNat + n) 0xFFFFFFFF)

/-- Frame `b` is later than frame `a` (R9): the three cases of the rule in its order. -/
def frameLater (b a : FrameNo) : Bool :=
  let d := (b - a).toNat
  decide (1 ≤ d ∧ d ≤ 2 ^ 31 - 1) || (decide (d = 2 ^ 31) && decide (a.toNat < b.toNat))

/-- Frame `b` is at or before frame `a` (R9). -/
def frameAtOrBefore (b a : FrameNo) : Bool := decide (b = a) || frameLater a b

/-- Frame tag x is newer than y, both modulo 16 (R371). -/
def tagNewer (x y : Nat) : Bool :=
  let d := (x + 16 - y % 16) % 16
  decide (1 ≤ d ∧ d ≤ 7)

/-- The elements of a list at successive indices, paired. -/
def enumFrom {α : Type} : Nat → List α → List (Nat × α)
  | _, [] => []
  | n, x :: xs => (n, x) :: enumFrom (n + 1) xs

/-- Indexed list. -/
def enum {α : Type} (xs : List α) : List (Nat × α) := enumFrom 0 xs

/-- The first index at which `p` holds. -/
def findIdx {α : Type} (p : α → Bool) : List α → Option Nat
  | [] => none
  | x :: xs => if p x then some 0 else (findIdx p xs).map (· + 1)

/-- Replace element `i`. -/
def setAt {α : Type} (xs : List α) (i : Nat) (x : α) : List α := xs.set i x

/-- Update element `i`. -/
def modAt {α : Type} (xs : List α) (i : Nat) (f : α → α) : List α :=
  match xs[i]? with
  | some x => xs.set i (f x)
  | none => xs

/-- Add `x` to a list without repeats. -/
def addNew {α : Type} [DecidableEq α] (x : α) (xs : List α) : List α := if xs.elem x then xs else xs ++ [x]

/-- Sum of a list of numbers. -/
def sumNat (xs : List Nat) : Nat := xs.foldl (· + ·) 0

/-- Sum of a list of integers. -/
def sumInt (xs : List Int) : Int := xs.foldl (· + ·) 0

/-- Round half away from zero of n ÷ 2^s (integers). -/
def shiftRightFloor (n : Int) (s : Nat) : Int := n / ((2 ^ s : Nat) : Int)

end Sys2Proof.Machine
end

