-- ==== Sys2Proof/Machine/Tab.lean ====
section
/-! DEFINITION. Sparse tables in one canonical form: a list of (key, value) pairs with strictly rising keys and no
entry equal to what an unlisted key reads as. Memory bytes, registers, berth tags, poison marks, page lists and every
other keyed store of the model is one of these. -/
namespace Sys2Proof.Machine

/-- A sparse table from natural-number keys. -/
abbrev Tab (α : Type) := List (Nat × α)

/-- What key `k` reads as: the listed value, or the default `d k`. -/
def Tab.get {α : Type} (d : Nat → α) : Tab α → Nat → α
  | [], k => d k
  | (j, v) :: t, k => if j = k then v else Tab.get d t k

/-- The table without key `k`. -/
def Tab.erase {α : Type} (t : Tab α) (k : Nat) : Tab α :=
  t.filter (fun e => e.1 ≠ k)

/-- Put `(k, v)` in front of the first greater key. -/
def Tab.insert {α : Type} (k : Nat) (v : α) : Tab α → Tab α
  | [] => [(k, v)]
  | (j, w) :: t => if k < j then (k, v) :: (j, w) :: t else (j, w) :: Tab.insert k v t

/-- Write `v` at key `k`; writing what an unlisted key reads as removes the entry. -/
def Tab.set {α : Type} [DecidableEq α] (d : Nat → α) (t : Tab α) (k : Nat) (v : α) : Tab α :=
  if v = d k then Tab.erase t k else Tab.insert k v (Tab.erase t k)

/-- The keys rise strictly. -/
def Tab.rising {α : Type} : Tab α → Bool
  | [] => true
  | [_] => true
  | (j, _) :: (k, w) :: t => decide (j < k) && Tab.rising ((k, w) :: t)

/-- The canonical form. -/
def Tab.wf {α : Type} [DecidableEq α] (d : Nat → α) (t : Tab α) : Bool :=
  Tab.rising t && t.all (fun e => decide (e.2 ≠ d e.1))

/-- Remove every key that `p` selects. -/
def Tab.drop {α : Type} (t : Tab α) (p : Nat → Bool) : Tab α :=
  t.filter (fun e => !p e.1)

/-- Write the values of a list at successive keys from `k`. -/
def Tab.setAll {α : Type} [DecidableEq α] (d : Nat → α) (t : Tab α) (k : Nat) (vs : List α) : Tab α :=
  t.filter (fun e => decide (e.1 < k)) ++ ((vs.zipIdx k).map (fun e => (e.2, e.1))).filter (fun e => decide (e.2 ≠ d e.1)) ++
    t.filter (fun e => decide (k + vs.length ≤ e.1))

/-- Write one value at the `n` keys from `k`. -/
def Tab.fill {α : Type} [DecidableEq α] (d : Nat → α) (t : Tab α) (k n : Nat) (v : α) : Tab α :=
  Tab.setAll d t k (List.replicate n v)

/-- Replace the value at each of the keys of a list by `f` of it. -/
def Tab.updateAll {α : Type} [DecidableEq α] (d : Nat → α) (f : α → α) : Tab α → List Nat → Tab α
  | t, [] => t
  | t, k :: ks => Tab.updateAll d f (Tab.set d t k (f (Tab.get d t k))) ks

end Sys2Proof.Machine
end

