-- ==== Sys2Proof/Machine/RegTable.lean ====
section
/-! DEFINITION. Every register of the SK7460, one row per row of the spec's register tables (R14, R91, R92, R121,
R149-R152, R191-R193, R219, R220, R243, R244, R267-R269, R300-R302, R323, R367, R368, R393-R395, R420, R421, R440,
R441, R465-R469, R496, R497, R513, R514, R537-R540, R552): its window offset, how often it repeats and at what stride,
its access code (R11), its reset value (R21), its writable bits (R13), whether a quay reset returns it and to which
quay it then belongs, and whether only a cold reset returns it. Addresses are control-window addresses:
block index x 0x10_0000 + offset (R14, R397). -/
namespace Sys2Proof.Machine

/-- The access codes of R11. -/
inductive Access where
  | rw | ro | wo | w1c | w1s | rc | rwd
  deriving DecidableEq, Repr

/-- To which quay a register belongs (R12, R21). -/
inductive Own where
  /-- Device-wide. -/
  | none
  /-- Quay index ÷ div. -/
  | quay (div : Nat)
  /-- One fixed quay. -/
  | fixed (q : Nat)
  /-- The quay that holds instance index ÷ div of engine class cls (R57). -/
  | eng (cls div : Nat)
  /-- The quay whose CAMERAS section holds stream context index. -/
  | ctx
  deriving DecidableEq, Repr

/-- One row of a register table. -/
structure RegRow where
  /-- The register's name in the spec. -/
  name : String
  /-- Its offset within the block's window. -/
  off : Nat
  /-- Bytes between instances. -/
  stride : Nat
  /-- How many instances. -/
  count : Nat
  acc : Access
  reset : Nat
  /-- The bits that are not reserved. -/
  mask : Nat
  /-- Marked "quay reset". -/
  qr : Bool
  own : Own
  /-- Returned only by a cold reset. -/
  cold : Bool
  deriving DecidableEq, Repr

/-- TOP window registers (R537). -/
def topRows : List RegRow := [
  ⟨"TOP_PART", 0x0100, 0, 1, .ro, 0x7460, 0xFFFFFFFF, false, .none, false⟩,
  ⟨"TOP_VERSIONS", 0x0104, 0, 1, .ro, 0x3020004, 0xFFFFFFFF, false, .none, false⟩,
  ⟨"TOP_STRAPS", 0x0108, 0, 1, .ro, 0x0, 0x1F, false, .none, false⟩,
  ⟨"TOP_CORE_RELEASE", 0x010C, 0, 1, .w1s, 0x1, 0xFFF, false, .none, false⟩,
  ⟨"TOP_RESET_CTRL", 0x0110, 0, 1, .wo, 0x0, 0x1, false, .none, false⟩,
  ⟨"TOP_MSI_PENDING", 0x1100, 4, 8, .w1c, 0x0, 0xFFFFFFFF, false, .none, false⟩,
  ⟨"TOP_MSI", 0x2000, 4, 256, .rw, 0x0, 0x1FFFF, false, .none, false⟩]

/-- HM window registers, part 0 (R121, R538, R91). -/
def hmRows0 : List RegRow := [
  ⟨"HM_HTIME_LO", 0x0100, 0, 1, .ro, 0x0, 0xFFFFFFFF, false, .quay 1, false⟩,
  ⟨"HM_HTIME_HI", 0x0104, 0, 1, .ro, 0x0, 0xFFFFFFFF, false, .quay 1, false⟩,
  ⟨"HM_TICK_ORIGIN_LO", 0x0108, 0, 1, .rw, 0x0, 0xFFFFFFFF, false, .quay 1, false⟩,
  ⟨"HM_TICK_ORIGIN_HI", 0x010C, 0, 1, .rw, 0x0, 0xFFFFFFFF, false, .quay 1, false⟩,
  ⟨"HM_TIME_STATUS", 0x0110, 0, 1, .ro, 0x0, 0x7, false, .quay 1, false⟩,
  ⟨"HM_Q0_GUARD", 0x0114, 0, 1, .ro, 0x0, 0x1, false, .quay 1, false⟩,
  ⟨"HM_QUAY_CMD", 0x0200, 64, 4, .wo, 0x0, 0xF, false, .quay 1, false⟩,
  ⟨"HM_QUAY_STATUS", 0x0204, 64, 4, .ro, 0x0, 0xFFFFFF, false, .quay 1, false⟩,
  ⟨"HM_QUAY_CHART_LO", 0x0208, 64, 4, .rw, 0x0, 0xFFFFFFFF, false, .quay 1, false⟩,
  ⟨"HM_QUAY_CHART_HI", 0x020C, 64, 4, .rw, 0x0, 0xFFFF, false, .quay 1, false⟩,
  ⟨"HM_QUAY_REPORT_LO", 0x0210, 64, 4, .rw, 0x0, 0xFFFFFFFF, false, .quay 1, false⟩,
  ⟨"HM_QUAY_REPORT_HI", 0x0214, 64, 4, .rw, 0x0, 0xFFFF, false, .quay 1, false⟩,
  ⟨"HM_QUAY_REPORT_SIZE", 0x0218, 64, 4, .rw, 0x0, 0x1FFF, false, .quay 1, false⟩,
  ⟨"HM_QUAY_START_FRAME", 0x021C, 64, 4, .rw, 0x0, 0xFFFFFFFF, false, .quay 1, false⟩,
  ⟨"HM_QUAY_FRAME", 0x0220, 64, 4, .ro, 0x0, 0xFFFFFFFF, true, .quay 1, false⟩,
  ⟨"HM_QUAY_BAD_STATE_COUNT", 0x0224, 64, 4, .ro, 0x0, 0xFFFFFFFF, false, .quay 1, false⟩,
  ⟨"HM_QUAY_TICK_LO", 0x0228, 64, 4, .ro, 0x0, 0xFFFFFFFF, true, .quay 1, false⟩,
  ⟨"HM_QUAY_TICK_HI", 0x022C, 64, 4, .ro, 0x0, 0xFFFFFFFF, true, .quay 1, false⟩,
  ⟨"HM_QUAY_EVENT", 0x0230, 64, 4, .w1c, 0x0, 0x7, false, .quay 1, false⟩,
  ⟨"HM_QUAY_CHART_SIZE", 0x0234, 64, 4, .rw, 0x0, 0x1FFFFFF, false, .quay 1, false⟩,
  ⟨"HM_QUAY_FREEWHEEL", 0x0400, 32, 4, .ro, 0x0, 0x7F, true, .quay 1, false⟩,
  ⟨"HM_QUAY_CONFIRMED", 0x0404, 32, 4, .ro, 0x0, 0xFFFFFFFF, true, .quay 1, false⟩,
  ⟨"HM_QUAY_PUBLISHED", 0x0408, 32, 4, .ro, 0x0, 0xFFFFFFFF, true, .quay 1, false⟩,
  ⟨"HM_QUAY_SQUASH_COUNT", 0x040C, 32, 4, .ro, 0x0, 0xFFFFFFFF, true, .quay 1, false⟩,
  ⟨"HM_QUAY_STALE_DROP_COUNT", 0x0410, 32, 4, .ro, 0x0, 0xFFFFFFFF, true, .quay 1, false⟩,
  ⟨"HM_QUAY_STAGE_FAULT_COUNT", 0x0414, 32, 4, .ro, 0x0, 0xFFFFFFFF, true, .quay 1, false⟩,
  ⟨"HM_QUAY_SKIP_COUNT", 0x0418, 32, 4, .ro, 0x0, 0xFFFFFFFF, true, .quay 1, false⟩,
  ⟨"HM_QUAY_TANDEM", 0x041C, 32, 4, .rwd, 0x1, 0x1, true, .quay 1, false⟩,
  ⟨"HM_FAULT_STATUS", 0x0480, 0, 1, .ro, 0x0, 0x3F, false, .quay 1, false⟩,
  ⟨"HM_FAULT_POP", 0x0484, 0, 1, .wo, 0x0, 0x1, false, .quay 1, false⟩,
  ⟨"HM_FAULT_ENTRY_LO", 0x0488, 0, 1, .ro, 0x0, 0x3FFFFFF, false, .quay 1, false⟩,
  ⟨"HM_FAULT_ENTRY_HI", 0x048C, 0, 1, .ro, 0x0, 0xFFFFFFFF, false, .quay 1, false⟩,
  ⟨"HM_FAULT_LOST_COUNT", 0x0490, 0, 1, .ro, 0x0, 0xFFFFFFFF, false, .quay 1, false⟩,
  ⟨"HM_CMDRING_BASE_LO", 0x0800, 128, 4, .rwd, 0x0, 0xFFFFFFFF, false, .quay 1, false⟩,
  ⟨"HM_CMDRING_BASE_HI", 0x0804, 128, 4, .rwd, 0x0, 0xFFFFF, false, .quay 1, false⟩,
  ⟨"HM_CMDRING_PRODUCER", 0x0808, 128, 4, .rw, 0x0, 0xFFF, false, .quay 1, false⟩,
  ⟨"HM_CMDRING_CONSUMER", 0x080C, 128, 4, .ro, 0x0, 0xFFFFFFFF, false, .quay 1, false⟩,
  ⟨"HM_CMDRING_STATUS", 0x0810, 128, 4, .ro, 0x0, 0x3FF, false, .quay 1, false⟩,
  ⟨"HM_CMDRING_BAD_STATE_COUNT", 0x0814, 128, 4, .ro, 0x0, 0xFFFFFFFF, false, .quay 1, false⟩,
  ⟨"HM_CRING_BASE_LO", 0x0820, 24, 4, .rwd, 0x0, 0xFFFFFFFF, false, .fixed 0, false⟩]

/-- HM window registers, part 1 (R538). -/
def hmRows1 : List RegRow := [
  ⟨"HM_CRING_BASE_LO", 0x08A0, 24, 4, .rwd, 0x0, 0xFFFFFFFF, false, .fixed 1, false⟩,
  ⟨"HM_CRING_BASE_LO", 0x0920, 24, 4, .rwd, 0x0, 0xFFFFFFFF, false, .fixed 2, false⟩,
  ⟨"HM_CRING_BASE_LO", 0x09A0, 24, 4, .rwd, 0x0, 0xFFFFFFFF, false, .fixed 3, false⟩,
  ⟨"HM_CRING_BASE_HI", 0x0824, 24, 4, .rwd, 0x0, 0xFFFFF, false, .fixed 0, false⟩,
  ⟨"HM_CRING_BASE_HI", 0x08A4, 24, 4, .rwd, 0x0, 0xFFFFF, false, .fixed 1, false⟩,
  ⟨"HM_CRING_BASE_HI", 0x0924, 24, 4, .rwd, 0x0, 0xFFFFF, false, .fixed 2, false⟩,
  ⟨"HM_CRING_BASE_HI", 0x09A4, 24, 4, .rwd, 0x0, 0xFFFFF, false, .fixed 3, false⟩,
  ⟨"HM_CRING_PRODUCER", 0x0828, 24, 4, .ro, 0x0, 0xFFFFFFFF, false, .fixed 0, false⟩,
  ⟨"HM_CRING_PRODUCER", 0x08A8, 24, 4, .ro, 0x0, 0xFFFFFFFF, false, .fixed 1, false⟩,
  ⟨"HM_CRING_PRODUCER", 0x0928, 24, 4, .ro, 0x0, 0xFFFFFFFF, false, .fixed 2, false⟩,
  ⟨"HM_CRING_PRODUCER", 0x09A8, 24, 4, .ro, 0x0, 0xFFFFFFFF, false, .fixed 3, false⟩,
  ⟨"HM_CRING_CONSUMER", 0x082C, 24, 4, .rw, 0x0, 0xFFF, false, .fixed 0, false⟩,
  ⟨"HM_CRING_CONSUMER", 0x08AC, 24, 4, .rw, 0x0, 0xFFF, false, .fixed 1, false⟩,
  ⟨"HM_CRING_CONSUMER", 0x092C, 24, 4, .rw, 0x0, 0xFFF, false, .fixed 2, false⟩,
  ⟨"HM_CRING_CONSUMER", 0x09AC, 24, 4, .rw, 0x0, 0xFFF, false, .fixed 3, false⟩,
  ⟨"HM_CRING_FILTER", 0x0830, 24, 4, .rwd, 0x0, 0xFFFF, false, .fixed 0, false⟩,
  ⟨"HM_CRING_FILTER", 0x08B0, 24, 4, .rwd, 0x0, 0xFFFF, false, .fixed 1, false⟩,
  ⟨"HM_CRING_FILTER", 0x0930, 24, 4, .rwd, 0x0, 0xFFFF, false, .fixed 2, false⟩,
  ⟨"HM_CRING_FILTER", 0x09B0, 24, 4, .rwd, 0x0, 0xFFFF, false, .fixed 3, false⟩,
  ⟨"HM_CRING_DROP_COUNT", 0x0834, 24, 4, .ro, 0x0, 0xFFFFFFFF, false, .fixed 0, false⟩,
  ⟨"HM_CRING_DROP_COUNT", 0x08B4, 24, 4, .ro, 0x0, 0xFFFFFFFF, false, .fixed 1, false⟩,
  ⟨"HM_CRING_DROP_COUNT", 0x0934, 24, 4, .ro, 0x0, 0xFFFFFFFF, false, .fixed 2, false⟩,
  ⟨"HM_CRING_DROP_COUNT", 0x09B4, 24, 4, .ro, 0x0, 0xFFFFFFFF, false, .fixed 3, false⟩]

/-- All registers of the window. -/
def hmRows : List RegRow := hmRows0 ++ hmRows1

/-- QUAY window registers (R393, R394, R92). -/
def quayRows : List RegRow := [
  ⟨"QUAY_MODE", 0x0100, 32, 4, .ro, 0x0, 0xFFFFFF, true, .quay 1, false⟩,
  ⟨"QUAY_TICK_PERIOD", 0x0104, 32, 4, .ro, 0x0, 0xFFFFFFFF, true, .quay 1, false⟩,
  ⟨"QUAY_TICK_PHASE", 0x0108, 32, 4, .ro, 0x0, 0xFFFFFFFF, true, .quay 1, false⟩,
  ⟨"QUAY_FLOOR", 0x010C, 32, 4, .ro, 0x0, 0x7FF, true, .quay 1, false⟩,
  ⟨"QUAY_BERTH_RANGE", 0x0110, 32, 4, .ro, 0x0, 0xFFFFFFFF, true, .quay 1, false⟩,
  ⟨"QUAY_PCH_MAP", 0x0114, 32, 4, .ro, 0x0, 0xFFFF, true, .quay 1, false⟩,
  ⟨"QUAY_CHART_ID", 0x0118, 32, 4, .ro, 0x0, 0xFFFFFFFF, true, .quay 1, false⟩,
  ⟨"QUAY_SPAD_TAG_FIRST", 0x0400, 64, 4, .rw, 0x0, 0xFFFF, true, .quay 1, false⟩,
  ⟨"QUAY_SPAD_TAG_COUNT", 0x0404, 64, 4, .rw, 0x0, 0xFFFF, true, .quay 1, false⟩,
  ⟨"QUAY_SPAD_TAG_CMD", 0x0408, 64, 4, .wo, 0x0, 0x3, true, .quay 1, false⟩,
  ⟨"QUAY_SPAD_TAG_STATUS", 0x040C, 64, 4, .ro, 0x0, 0x1FF, true, .quay 1, false⟩,
  ⟨"QUAY_SPAD_STATUS", 0x0410, 64, 4, .ro, 0x0, 0x3FFFF, true, .quay 1, false⟩,
  ⟨"QUAY_SPAD_SCRUB_COUNT", 0x0414, 64, 4, .ro, 0x0, 0xFFFFFFFF, false, .quay 1, false⟩,
  ⟨"QUAY_SPAD_LATE_WRITE_COUNT", 0x0418, 64, 4, .ro, 0x0, 0xFFFFFFFF, true, .quay 1, false⟩,
  ⟨"QUAY_SPAD_POISON_COUNT", 0x041C, 64, 4, .ro, 0x0, 0xFFFFFFFF, true, .quay 1, false⟩,
  ⟨"QUAY_SPAD_FENCED_COUNT", 0x0420, 64, 4, .ro, 0x0, 0xFFFFFFFF, true, .quay 1, false⟩,
  ⟨"QUAY_SPAD_BAD_STATE_COUNT", 0x0424, 64, 4, .ro, 0x0, 0xFFFFFFFF, false, .quay 1, false⟩,
  ⟨"QUAY_SPAD_HANDLE_SEL", 0x0428, 64, 4, .rw, 0x0, 0x3FF, true, .quay 1, false⟩,
  ⟨"QUAY_SPAD_HANDLE_INFO", 0x042C, 64, 4, .ro, 0x0, 0x7F, true, .quay 1, false⟩,
  ⟨"QUAY_SPAD_HANDLE_BASE", 0x0430, 64, 4, .ro, 0x0, 0xFFFFFFFF, true, .quay 1, false⟩,
  ⟨"QUAY_SPAD_HANDLE_LEN", 0x0434, 64, 4, .ro, 0x0, 0xFFFFFFFF, true, .quay 1, false⟩,
  ⟨"QUAY_BANK_GATE_REQ", 0x1000, 4, 4, .rw, 0x0, 0xFFFFFFFF, false, .none, false⟩,
  ⟨"QUAY_BANK_GATED", 0x1010, 4, 4, .ro, 0x0, 0xFFFFFFFF, false, .none, false⟩,
  ⟨"QUAY_BANK_MAPPED", 0x1020, 4, 4, .ro, 0x0, 0xFFFFFFFF, false, .none, false⟩,
  ⟨"QUAY_BANK_GIVEUP_COUNT", 0x1030, 0, 1, .ro, 0x0, 0xFFFFFFFF, false, .none, false⟩,
  ⟨"QUAY_BANK_LATE_WRITE_COUNT", 0x1034, 0, 1, .ro, 0x0, 0xFFFFFFFF, false, .none, false⟩]

/-- DRL window registers (R395). -/
def drlRows : List RegRow := [
  ⟨"DRL_STATUS", 0x0100, 0, 1, .ro, 0x0, 0x3F, false, .none, false⟩,
  ⟨"DRL_PORT_MIN_SUM", 0x0200, 8, 6, .ro, 0x0, 0xFF, false, .none, false⟩,
  ⟨"DRL_PORT_CAPACITY", 0x0204, 8, 6, .ro, 0x0, 0xFFFFFFFF, false, .none, false⟩,
  ⟨"DRL_QP_SHARE", 0x0400, 32, 32, .ro, 0x0, 0xFFFFFFFF, true, .quay 8, false⟩,
  ⟨"DRL_QP_SHARE_NEXT", 0x0404, 32, 32, .rw, 0x0, 0x7F7F7F, true, .quay 8, false⟩,
  ⟨"DRL_QP_RD_LINES", 0x0408, 32, 32, .ro, 0x0, 0xFFFFFFFF, false, .quay 8, false⟩,
  ⟨"DRL_QP_WR_LINES", 0x040C, 32, 32, .ro, 0x0, 0xFFFFFFFF, false, .quay 8, false⟩,
  ⟨"DRL_QP_RM_LINES", 0x0410, 32, 32, .ro, 0x0, 0xFFFFFFFF, false, .quay 8, false⟩,
  ⟨"DRL_QP_THROTTLE_COUNT", 0x0414, 32, 32, .ro, 0x0, 0xFFFFFFFF, true, .quay 8, false⟩,
  ⟨"DRL_QP_MERGE_COUNT", 0x0418, 32, 32, .ro, 0x0, 0xFFFFFFFF, true, .quay 8, false⟩]

/-- CAMRX window registers (R149, R150, R151). -/
def camrxRows : List RegRow := [
  ⟨"CAMRX_PORT_STATUS", 0x0200, 32, 8, .ro, 0x0, 0x7, true, .eng 1 1, false⟩,
  ⟨"CAMRX_PORT_ECC_COUNT", 0x0204, 32, 8, .ro, 0x0, 0xFFFFFFFF, true, .eng 1 1, false⟩,
  ⟨"CAMRX_PORT_HDR_LOST_COUNT", 0x0208, 32, 8, .ro, 0x0, 0xFFFFFFFF, true, .eng 1 1, false⟩,
  ⟨"CAMRX_PORT_CRC_COUNT", 0x020C, 32, 8, .ro, 0x0, 0xFFFFFFFF, true, .eng 1 1, false⟩,
  ⟨"CAMRX_PORT_PHY_ERR_COUNT", 0x0210, 32, 8, .ro, 0x0, 0xFFFFFFFF, true, .eng 1 1, false⟩,
  ⟨"CAMRX_PORT_UNMATCHED_COUNT", 0x0214, 32, 8, .ro, 0x0, 0xFFFFFFFF, true, .eng 1 1, false⟩,
  ⟨"CAMRX_PORT_EVENT", 0x0218, 32, 8, .w1c, 0x0, 0xF, true, .eng 1 1, false⟩,
  ⟨"CAMRX_CTX_FRAME", 0x0400, 64, 24, .ro, 0x0, 0xFFFFFFFF, true, .ctx, false⟩,
  ⟨"CAMRX_CTX_FLAGS", 0x0404, 64, 24, .ro, 0x0, 0xFFFF, true, .ctx, false⟩,
  ⟨"CAMRX_CTX_SOF_LO", 0x0408, 64, 24, .ro, 0x0, 0xFFFFFFFF, true, .ctx, false⟩,
  ⟨"CAMRX_CTX_SOF_HI", 0x040C, 64, 24, .ro, 0x0, 0xFFFFFFFF, true, .ctx, false⟩,
  ⟨"CAMRX_CTX_EOF_LO", 0x0410, 64, 24, .ro, 0x0, 0xFFFFFFFF, true, .ctx, false⟩,
  ⟨"CAMRX_CTX_EOF_HI", 0x0414, 64, 24, .ro, 0x0, 0xFFFFFFFF, true, .ctx, false⟩,
  ⟨"CAMRX_CTX_MID_LO", 0x0418, 64, 24, .ro, 0x0, 0xFFFFFFFF, true, .ctx, false⟩,
  ⟨"CAMRX_CTX_MID_HI", 0x041C, 64, 24, .ro, 0x0, 0xFFFFFFFF, true, .ctx, false⟩,
  ⟨"CAMRX_CTX_TICKET", 0x0420, 64, 24, .ro, 0x0, 0xFFFF, true, .ctx, false⟩,
  ⟨"CAMRX_CTX_SENSOR_COUNT", 0x0424, 64, 24, .ro, 0x0, 0xFFFFFFFF, true, .ctx, false⟩,
  ⟨"CAMRX_CTX_SIGNATURE", 0x0428, 64, 24, .ro, 0x0, 0xFFFFFFFF, true, .ctx, false⟩,
  ⟨"CAMRX_CTX_INVALID_COUNT", 0x042C, 64, 24, .ro, 0x0, 0xFFFFFFFF, true, .ctx, false⟩,
  ⟨"CAMRX_CTX_STALE_COUNT", 0x0430, 64, 24, .ro, 0x0, 0xFFFFFFFF, true, .ctx, false⟩,
  ⟨"CAMRX_CTX_EXTRA_COUNT", 0x0434, 64, 24, .ro, 0x0, 0xFFFFFFFF, true, .ctx, false⟩,
  ⟨"CAMRX_CTX_INJECT_FAIL_COUNT", 0x0438, 64, 24, .ro, 0x0, 0xFFFFFFFF, true, .ctx, false⟩,
  ⟨"CAMRX_TKT_TARGET", 0x1000, 32, 4, .rw, 0x0, 0xFFFFFFFF, false, .quay 1, false⟩,
  ⟨"CAMRX_TKT_EXPOSURE", 0x1004, 32, 4, .rw, 0x0, 0xFFFFFFFF, false, .quay 1, false⟩,
  ⟨"CAMRX_TKT_SCRIPT_LO", 0x1008, 32, 4, .rw, 0x0, 0xFFFFFFFF, false, .quay 1, false⟩,
  ⟨"CAMRX_TKT_SCRIPT_HI", 0x100C, 32, 4, .rw, 0x0, 0xFFFF, false, .quay 1, false⟩,
  ⟨"CAMRX_TKT_SUBMIT", 0x1010, 32, 4, .wo, 0x0, 0x1F, false, .quay 1, false⟩,
  ⟨"CAMRX_TKT_STATUS", 0x1014, 32, 4, .ro, 0x0, 0xFFFF00FF, true, .quay 1, false⟩,
  ⟨"CAMRX_TKT_BAD_STATE_COUNT", 0x1018, 32, 4, .ro, 0x0, 0xFFFFFFFF, false, .quay 1, false⟩,
  ⟨"CAMRX_TKT_RESULT_STATUS", 0x1100, 0, 1, .ro, 0x0, 0x3F, false, .none, false⟩,
  ⟨"CAMRX_TKT_RESULT_POP", 0x1104, 0, 1, .wo, 0x0, 0x1, false, .none, false⟩,
  ⟨"CAMRX_TKT_RESULT_LO", 0x1108, 0, 1, .ro, 0x0, 0xFF1FFFFF, false, .none, false⟩,
  ⟨"CAMRX_TKT_RESULT_HI", 0x110C, 0, 1, .ro, 0x0, 0xFFFFFFFF, false, .none, false⟩,
  ⟨"CAMRX_TKT_RESULT_LOST_COUNT", 0x1110, 0, 1, .ro, 0x0, 0xFFFFFFFF, false, .none, false⟩,
  ⟨"CAMRX_FSYNC_EDGE_LO", 0x1200, 8, 8, .ro, 0x0, 0xFFFFFFFF, true, .eng 15 1, false⟩,
  ⟨"CAMRX_FSYNC_EDGE_HI", 0x1204, 8, 8, .ro, 0x0, 0xFFFFFFFF, true, .eng 15 1, false⟩]

/-- CAMP window registers (R191, R192, R193). -/
def campRows : List RegRow := [
  ⟨"CAMP_PIPE_STATUS", 0x0200, 32, 4, .ro, 0x0, 0x3F, true, .eng 2 1, false⟩,
  ⟨"CAMP_PIPE_BUSY_CLOCKS", 0x0204, 32, 4, .ro, 0x0, 0xFFFFFFFF, false, .eng 2 1, false⟩,
  ⟨"CAMP_PIPE_STALL_CLOCKS", 0x0208, 32, 4, .ro, 0x0, 0xFFFFFFFF, false, .eng 2 1, false⟩,
  ⟨"CAMP_PIPE_EVENT", 0x020C, 32, 4, .w1c, 0x0, 0xF, true, .eng 2 1, false⟩,
  ⟨"CAMP_SLOT_FRAME", 0x0400, 32, 32, .ro, 0x0, 0xFFFFFFFF, true, .eng 2 8, false⟩,
  ⟨"CAMP_SLOT_LINES", 0x0404, 32, 32, .ro, 0x0, 0x1FFFFF, true, .eng 2 8, false⟩,
  ⟨"CAMP_SLOT_LOST_COUNT", 0x0408, 32, 32, .ro, 0x0, 0xFFFFFFFF, true, .eng 2 8, false⟩,
  ⟨"CAMP_SLOT_OVERRUN_COUNT", 0x040C, 32, 32, .ro, 0x0, 0xFFFFFFFF, true, .eng 2 8, false⟩,
  ⟨"CAMP_SLOT_ADJ", 0x0410, 32, 32, .ro, 0x0, 0x7FFFF, true, .eng 2 8, false⟩,
  ⟨"CAMP_SLOT_STATS_PRODUCER", 0x0414, 32, 32, .ro, 0x0, 0xFFFFFFFF, true, .eng 2 8, false⟩,
  ⟨"CAMP_SLOT_STATS_CONSUMER", 0x0418, 32, 32, .rw, 0x0, 0xFFFFFFFF, true, .eng 2 8, false⟩,
  ⟨"CAMP_SLOT_STATS_DROP_COUNT", 0x041C, 32, 32, .ro, 0x0, 0xFFFFFFFF, true, .eng 2 8, false⟩,
  ⟨"CAMP_ADJ_TARGET", 0x1000, 32, 4, .rw, 0x0, 0xFFFFFFFF, false, .quay 1, false⟩,
  ⟨"CAMP_ADJ_RECORD_LO", 0x1004, 32, 4, .rw, 0x0, 0xFFFFFFFF, false, .quay 1, false⟩,
  ⟨"CAMP_ADJ_RECORD_HI", 0x1008, 32, 4, .rw, 0x0, 0xFFFF, false, .quay 1, false⟩,
  ⟨"CAMP_ADJ_SUBMIT", 0x100C, 32, 4, .wo, 0x0, 0x1F, false, .quay 1, false⟩,
  ⟨"CAMP_ADJ_STATUS", 0x1010, 32, 4, .ro, 0x0, 0xFFFF00FF, true, .quay 1, false⟩,
  ⟨"CAMP_ADJ_BAD_STATE_COUNT", 0x1014, 32, 4, .ro, 0x0, 0xFFFFFFFF, false, .quay 1, false⟩]

/-- PYR window registers (R219). -/
def pyrRows : List RegRow := [
  ⟨"PYR_STATUS", 0x0200, 32, 2, .ro, 0x0, 0x7, true, .eng 3 1, false⟩,
  ⟨"PYR_BUSY_CLOCKS", 0x0204, 32, 2, .ro, 0x0, 0xFFFFFFFF, false, .eng 3 1, false⟩,
  ⟨"PYR_STALL_CLOCKS", 0x0208, 32, 2, .ro, 0x0, 0xFFFFFFFF, false, .eng 3 1, false⟩,
  ⟨"PYR_JOB_COUNT", 0x020C, 32, 2, .ro, 0x0, 0xFFFFFFFF, true, .eng 3 1, false⟩,
  ⟨"PYR_SHAPE_COUNT", 0x0210, 32, 2, .ro, 0x0, 0xFFFFFFFF, true, .eng 3 1, false⟩,
  ⟨"PYR_LAST_JOB", 0x0214, 32, 2, .ro, 0x0, 0xFFFFFF, true, .eng 3 1, false⟩,
  ⟨"PYR_EVENT", 0x0218, 32, 2, .w1c, 0x0, 0xF, true, .eng 3 1, false⟩]

/-- WARP window registers (R220). -/
def warpRows : List RegRow := [
  ⟨"WARP_STATUS", 0x0200, 64, 2, .ro, 0x0, 0xFFFF, true, .eng 4 1, false⟩,
  ⟨"WARP_BUSY_CLOCKS", 0x0204, 64, 2, .ro, 0x0, 0xFFFFFFFF, false, .eng 4 1, false⟩,
  ⟨"WARP_STALL_CLOCKS", 0x0208, 64, 2, .ro, 0x0, 0xFFFFFFFF, false, .eng 4 1, false⟩,
  ⟨"WARP_TILE_FETCH_COUNT", 0x020C, 64, 2, .ro, 0x0, 0xFFFFFFFF, true, .eng 4 1, false⟩,
  ⟨"WARP_TILE_HIT_COUNT", 0x0210, 64, 2, .ro, 0x0, 0xFFFFFFFF, true, .eng 4 1, false⟩,
  ⟨"WARP_OUTSIDE_COUNT", 0x0214, 64, 2, .ro, 0x0, 0xFFFFFFFF, true, .eng 4 1, false⟩,
  ⟨"WARP_JOB_COUNT", 0x0218, 64, 2, .ro, 0x0, 0xFFFFFFFF, true, .eng 4 1, false⟩,
  ⟨"WARP_SHAPE_COUNT", 0x021C, 64, 2, .ro, 0x0, 0xFFFFFFFF, true, .eng 4 1, false⟩,
  ⟨"WARP_LAST_JOB", 0x0220, 64, 2, .ro, 0x0, 0xFFFFFF, true, .eng 4 1, false⟩,
  ⟨"WARP_EVENT", 0x0224, 64, 2, .w1c, 0x0, 0x1F, true, .eng 4 1, false⟩]

/-- STEREO window registers (R243). -/
def stereoRows : List RegRow := [
  ⟨"STEREO_STATUS", 0x0200, 64, 2, .ro, 0x0, 0x1FFFF, true, .eng 5 1, false⟩,
  ⟨"STEREO_BUSY_CLOCKS", 0x0204, 64, 2, .ro, 0x0, 0xFFFFFFFF, false, .eng 5 1, false⟩,
  ⟨"STEREO_STALL_CLOCKS", 0x0208, 64, 2, .ro, 0x0, 0xFFFFFFFF, false, .eng 5 1, false⟩,
  ⟨"STEREO_JOB_COUNT", 0x020C, 64, 2, .ro, 0x0, 0xFFFFFFFF, true, .eng 5 1, false⟩,
  ⟨"STEREO_SHAPE_COUNT", 0x0210, 64, 2, .ro, 0x0, 0xFFFFFFFF, true, .eng 5 1, false⟩,
  ⟨"STEREO_CONSISTENCY_COUNT", 0x0214, 64, 2, .ro, 0x0, 0xFFFFFFFF, true, .eng 5 1, false⟩,
  ⟨"STEREO_AMBIGUOUS_COUNT", 0x0218, 64, 2, .ro, 0x0, 0xFFFFFFFF, true, .eng 5 1, false⟩,
  ⟨"STEREO_BORDER_COUNT", 0x021C, 64, 2, .ro, 0x0, 0xFFFFFFFF, true, .eng 5 1, false⟩,
  ⟨"STEREO_LAST_JOB", 0x0220, 64, 2, .ro, 0x0, 0xFFFFFF, true, .eng 5 1, false⟩,
  ⟨"STEREO_EVENT", 0x0224, 64, 2, .w1c, 0x0, 0xF, true, .eng 5 1, false⟩]

/-- FLOW window registers (R244). -/
def flowRows : List RegRow := [
  ⟨"FLOW_STATUS", 0x0200, 64, 2, .ro, 0x0, 0xFFFFF, true, .eng 6 1, false⟩,
  ⟨"FLOW_BUSY_CLOCKS", 0x0204, 64, 2, .ro, 0x0, 0xFFFFFFFF, false, .eng 6 1, false⟩,
  ⟨"FLOW_STALL_CLOCKS", 0x0208, 64, 2, .ro, 0x0, 0xFFFFFFFF, false, .eng 6 1, false⟩,
  ⟨"FLOW_JOB_COUNT", 0x020C, 64, 2, .ro, 0x0, 0xFFFFFFFF, true, .eng 6 1, false⟩,
  ⟨"FLOW_SHAPE_COUNT", 0x0210, 64, 2, .ro, 0x0, 0xFFFFFFFF, true, .eng 6 1, false⟩,
  ⟨"FLOW_AMBIGUOUS_COUNT", 0x0214, 64, 2, .ro, 0x0, 0xFFFFFFFF, true, .eng 6 1, false⟩,
  ⟨"FLOW_BORDER_COUNT", 0x0218, 64, 2, .ro, 0x0, 0xFFFFFFFF, true, .eng 6 1, false⟩,
  ⟨"FLOW_NO_HISTORY_COUNT", 0x021C, 64, 2, .ro, 0x0, 0xFFFFFFFF, true, .eng 6 1, false⟩,
  ⟨"FLOW_LAST_JOB", 0x0220, 64, 2, .ro, 0x0, 0xFFFFFF, true, .eng 6 1, false⟩,
  ⟨"FLOW_EVENT", 0x0224, 64, 2, .w1c, 0x0, 0x1F, true, .eng 6 1, false⟩]

/-- FEAT window registers (R267, R268, R269). -/
def featLedgerRows : List RegRow := [
  ⟨"FEAT_STATUS", 0x0200, 64, 2, .ro, 0x0, 0x1F, true, .eng 7 1, false⟩,
  ⟨"FEAT_BUSY_CLOCKS", 0x0204, 64, 2, .ro, 0x0, 0xFFFFFFFF, false, .eng 7 1, false⟩,
  ⟨"FEAT_STALL_CLOCKS", 0x0208, 64, 2, .ro, 0x0, 0xFFFFFFFF, false, .eng 7 1, false⟩,
  ⟨"FEAT_JOB_COUNT", 0x020C, 64, 2, .ro, 0x0, 0xFFFFFFFF, true, .eng 7 1, false⟩,
  ⟨"FEAT_SHAPE_COUNT", 0x0210, 64, 2, .ro, 0x0, 0xFFFFFFFF, true, .eng 7 1, false⟩,
  ⟨"FEAT_FEATURE_COUNT", 0x0214, 64, 2, .ro, 0x0, 0xFFFFFFFF, true, .eng 7 1, false⟩,
  ⟨"FEAT_MATCH_COUNT", 0x0218, 64, 2, .ro, 0x0, 0xFFFFFFFF, true, .eng 7 1, false⟩,
  ⟨"FEAT_UNPREDICTED_COUNT", 0x021C, 64, 2, .ro, 0x0, 0xFFFFFFFF, true, .eng 7 1, false⟩,
  ⟨"FEAT_LAST_JOB", 0x0220, 64, 2, .ro, 0x0, 0xFFFFFF, true, .eng 7 1, false⟩,
  ⟨"FEAT_EVENT", 0x0224, 64, 2, .w1c, 0x0, 0x3F, true, .eng 7 1, false⟩,
  ⟨"LEDGER_SWEEP_STATUS", 0x1000, 0, 1, .ro, 0x0, 0x7, false, .none, false⟩,
  ⟨"LEDGER_WRITE_DROP_COUNT", 0x1004, 0, 1, .ro, 0x0, 0xFFFFFFFF, false, .none, false⟩,
  ⟨"LEDGER_BLOCK_STATUS", 0x1100, 16, 16, .ro, 0x0, 0x7FFFF, true, .eng 8 1, false⟩,
  ⟨"LEDGER_BLOCK_BIRTH_COUNT", 0x1104, 16, 16, .ro, 0x0, 0xFFFFFFFF, true, .eng 8 1, false⟩,
  ⟨"LEDGER_BLOCK_RETIRE_COUNT", 0x1108, 16, 16, .ro, 0x0, 0xFFFFFFFF, true, .eng 8 1, false⟩,
  ⟨"LEDGER_BLOCK_BIRTH_DROP_COUNT", 0x110C, 16, 16, .ro, 0x0, 0xFFFFFFFF, true, .eng 8 1, false⟩,
  ⟨"LEDGER_PRED_TARGET", 0x2000, 32, 4, .rw, 0x0, 0xFFFFFFFF, false, .quay 1, false⟩,
  ⟨"LEDGER_PRED_RECORD_LO", 0x2004, 32, 4, .rw, 0x0, 0xFFFFFFFF, false, .quay 1, false⟩,
  ⟨"LEDGER_PRED_RECORD_HI", 0x2008, 32, 4, .rw, 0x0, 0xFFFF, false, .quay 1, false⟩,
  ⟨"LEDGER_PRED_SUBMIT", 0x200C, 32, 4, .wo, 0x0, 0x1F, false, .quay 1, false⟩,
  ⟨"LEDGER_PRED_STATUS", 0x2010, 32, 4, .ro, 0x0, 0x7FF, true, .quay 1, false⟩,
  ⟨"LEDGER_PRED_BAD_STATE_COUNT", 0x2014, 32, 4, .ro, 0x0, 0xFFFFFFFF, false, .quay 1, false⟩]

/-- SND window registers (R300, R301, R302). -/
def sndEdgeRows : List RegRow := [
  ⟨"SND_STATUS", 0x0100, 0, 1, .ro, 0x0, 0x7, true, .eng 9 1, false⟩,
  ⟨"SND_BUSY_CLOCKS", 0x0104, 0, 1, .ro, 0x0, 0xFFFFFFFF, false, .eng 9 1, false⟩,
  ⟨"SND_JOB_COUNT", 0x0108, 0, 1, .ro, 0x0, 0xFFFFFFFF, true, .eng 9 1, false⟩,
  ⟨"SND_MAP_GEN", 0x010C, 0, 1, .ro, 0x0, 0xFFFFFFFF, true, .eng 9 1, false⟩,
  ⟨"SND_BLOCKS_LIVE", 0x0110, 0, 1, .ro, 0x0, 0x7FFFFF, true, .eng 9 1, false⟩,
  ⟨"SND_ALLOC_DROP_COUNT", 0x0114, 0, 1, .ro, 0x0, 0xFFFFFFFF, true, .eng 9 1, false⟩,
  ⟨"SND_EVICT_COUNT", 0x0118, 0, 1, .ro, 0x0, 0xFFFFFFFF, true, .eng 9 1, false⟩,
  ⟨"SND_CORRUPT_COUNT", 0x011C, 0, 1, .ro, 0x0, 0xFFFFFFFF, true, .eng 9 1, false⟩,
  ⟨"SND_SKIP_JOB_COUNT", 0x0120, 0, 1, .ro, 0x0, 0xFFFFFFFF, true, .eng 9 1, false⟩,
  ⟨"SND_LAST_JOB", 0x0124, 0, 1, .ro, 0x0, 0xFFFFFF, true, .eng 9 1, false⟩,
  ⟨"SND_EVENT", 0x0128, 0, 1, .w1c, 0x0, 0x7F, true, .eng 9 1, false⟩,
  ⟨"SND_EXPORT_PRODUCER", 0x012C, 0, 1, .ro, 0x0, 0xFFFFFFFF, false, .eng 9 1, false⟩,
  ⟨"SND_EXPORT_CONSUMER", 0x0130, 0, 1, .rw, 0x0, 0xFFFFFFFF, false, .eng 9 1, false⟩,
  ⟨"SND_EXPORT_DROP_COUNT", 0x0134, 0, 1, .ro, 0x0, 0xFFFFFFFF, true, .eng 9 1, false⟩,
  ⟨"SND_POSE_TARGET", 0x0200, 0, 1, .rw, 0x0, 0xFFFFFFFF, false, .eng 9 1, false⟩,
  ⟨"SND_POSE_RECORD_LO", 0x0204, 0, 1, .rw, 0x0, 0xFFFFFFFF, false, .eng 9 1, false⟩,
  ⟨"SND_POSE_RECORD_HI", 0x0208, 0, 1, .rw, 0x0, 0xFFFF, false, .eng 9 1, false⟩,
  ⟨"SND_POSE_SUBMIT", 0x020C, 0, 1, .wo, 0x0, 0x3, false, .eng 9 1, false⟩,
  ⟨"SND_POSE_STATUS", 0x0210, 0, 1, .ro, 0x0, 0x7FF, true, .eng 9 1, false⟩,
  ⟨"SND_POSE_BAD_STATE_COUNT", 0x0214, 0, 1, .ro, 0x0, 0xFFFFFFFF, false, .eng 9 1, false⟩,
  ⟨"EDGE_STATUS", 0x1000, 0, 1, .ro, 0x2, 0xF, true, .fixed 0, false⟩,
  ⟨"EDGE_TRIPPED", 0x1004, 0, 1, .ro, 0x0, 0xFFFFFFFF, true, .fixed 0, false⟩,
  ⟨"EDGE_LAST_DROP", 0x1008, 0, 1, .ro, 0x0, 0xFFFFFFFF, true, .fixed 0, false⟩,
  ⟨"EDGE_LAST_UNKNOWN", 0x100C, 0, 1, .ro, 0x0, 0xFFFFFFFF, true, .fixed 0, false⟩,
  ⟨"EDGE_TRIP_COUNT", 0x1010, 0, 1, .ro, 0x0, 0xFFFFFFFF, true, .fixed 0, false⟩,
  ⟨"EDGE_UNKNOWN_COUNT", 0x1014, 0, 1, .ro, 0x0, 0xFFFFFFFF, true, .fixed 0, false⟩,
  ⟨"EDGE_DISAGREE_COUNT", 0x1018, 0, 1, .ro, 0x0, 0xFFFFFFFF, true, .fixed 0, false⟩,
  ⟨"EDGE_LAST_TRIP_FRAME", 0x101C, 0, 1, .ro, 0x0, 0xFFFFFFFF, true, .fixed 0, false⟩,
  ⟨"EDGE_LAST_TRIP_TIME_LO", 0x1020, 0, 1, .ro, 0x0, 0xFFFFFFFF, true, .fixed 0, false⟩,
  ⟨"EDGE_LAST_TRIP_TIME_HI", 0x1024, 0, 1, .ro, 0x0, 0xFFFFFFFF, true, .fixed 0, false⟩,
  ⟨"EDGE_RELEASE", 0x1028, 0, 1, .wo, 0x0, 0x1, true, .fixed 0, false⟩,
  ⟨"EDGE_TEST", 0x102C, 0, 1, .rw, 0x0, 0x1, true, .fixed 0, false⟩,
  ⟨"EDGE_EVENT", 0x1030, 0, 1, .w1c, 0x0, 0xF, true, .fixed 0, false⟩]

/-- ELV window registers (R323). -/
def elvRows : List RegRow := [
  ⟨"ELV_STATUS", 0x0200, 64, 12, .ro, 0x0, 0xFFFF007F, true, .eng 11 1, false⟩,
  ⟨"ELV_BUSY_CLOCKS", 0x0204, 64, 12, .ro, 0x0, 0xFFFFFFFF, false, .eng 11 1, false⟩,
  ⟨"ELV_STALL_CLOCKS", 0x0208, 64, 12, .ro, 0x0, 0xFFFFFFFF, false, .eng 11 1, false⟩,
  ⟨"ELV_CMD_COUNT", 0x020C, 64, 12, .ro, 0x0, 0xFFFFFFFF, true, .eng 11 1, false⟩,
  ⟨"ELV_LAYER_COUNT", 0x0210, 64, 12, .ro, 0x0, 0xFFFFFFFF, true, .eng 11 1, false⟩,
  ⟨"ELV_TANDEM_COUNT", 0x0214, 64, 12, .ro, 0x0, 0xFFFFFFFF, true, .eng 11 1, false⟩,
  ⟨"ELV_TANDEM_OVERRUN_COUNT", 0x0218, 64, 12, .ro, 0x0, 0xFFFFFFFF, true, .eng 11 1, false⟩,
  ⟨"ELV_BAD_CMD_COUNT", 0x021C, 64, 12, .ro, 0x0, 0xFFFFFFFF, true, .eng 11 1, false⟩,
  ⟨"ELV_LAST_JOB", 0x0220, 64, 12, .ro, 0x0, 0xFFFFFF, true, .eng 11 1, false⟩,
  ⟨"ELV_LAST_BAD_CMD", 0x0224, 64, 12, .ro, 0x0, 0xFFFFFFFF, true, .eng 11 1, false⟩,
  ⟨"ELV_PROG_STATUS", 0x0228, 64, 12, .ro, 0x0, 0xFFFFFFFF, true, .eng 11 1, false⟩,
  ⟨"ELV_EVENT", 0x022C, 64, 12, .w1c, 0x0, 0x7F, true, .eng 11 1, false⟩,
  ⟨"ELV_TILE_CE_COUNT", 0x0230, 64, 12, .ro, 0x0, 0xFFFFFFFF, true, .eng 11 1, false⟩]

/-- LAYOUT window registers (R367, R368). -/
def layoutRows : List RegRow := [
  ⟨"LAYOUT_STATUS", 0x0200, 64, 2, .ro, 0x0, 0x1F, true, .eng 12 1, false⟩,
  ⟨"LAYOUT_BUSY_CLOCKS", 0x0204, 64, 2, .ro, 0x0, 0xFFFFFFFF, false, .eng 12 1, false⟩,
  ⟨"LAYOUT_STALL_CLOCKS", 0x0208, 64, 2, .ro, 0x0, 0xFFFFFFFF, false, .eng 12 1, false⟩,
  ⟨"LAYOUT_CMD_COUNT", 0x020C, 64, 2, .ro, 0x0, 0xFFFFFFFF, true, .eng 12 1, false⟩,
  ⟨"LAYOUT_OOB_COUNT", 0x0210, 64, 2, .ro, 0x0, 0xFFFFFFFF, true, .eng 12 1, false⟩,
  ⟨"LAYOUT_ALIAS_COUNT", 0x0214, 64, 2, .ro, 0x0, 0xFFFFFFFF, true, .eng 12 1, false⟩,
  ⟨"LAYOUT_MISALIGNED_COUNT", 0x0218, 64, 2, .ro, 0x0, 0xFFFFFFFF, true, .eng 12 1, false⟩,
  ⟨"LAYOUT_BAD_CMD_COUNT", 0x021C, 64, 2, .ro, 0x0, 0xFFFFFFFF, true, .eng 12 1, false⟩,
  ⟨"LAYOUT_LAST_JOB", 0x0220, 64, 2, .ro, 0x0, 0xFFFFFF, true, .eng 12 1, false⟩,
  ⟨"LAYOUT_LAST_BAD_CMD", 0x0224, 64, 2, .ro, 0x0, 0xFFFFFFFF, true, .eng 12 1, false⟩,
  ⟨"LAYOUT_EVENT", 0x0228, 64, 2, .w1c, 0x0, 0x7F, true, .eng 12 1, false⟩,
  ⟨"LAYOUT_QUAY_ALIAS_COUNT", 0x1000, 16, 4, .ro, 0x0, 0xFFFFFFFF, true, .quay 1, false⟩,
  ⟨"LAYOUT_QUAY_ALIAS_LAST", 0x1004, 16, 4, .ro, 0x0, 0xFFFFFFFF, true, .quay 1, false⟩,
  ⟨"LAYOUT_QUAY_OOB_COUNT", 0x1008, 16, 4, .ro, 0x0, 0xFFFFFFFF, true, .quay 1, false⟩]

/-- TENDER window registers (R440, R441). -/
def tenderRows : List RegRow := [
  ⟨"TENDER_BUSY", 0x0100, 0, 1, .ro, 0x0, 0xFFFFFFFF, false, .none, false⟩,
  ⟨"TENDER_HALTED", 0x0104, 0, 1, .ro, 0x0, 0xFFFFFFFF, false, .none, false⟩,
  ⟨"TENDER_HELD", 0x0108, 0, 1, .ro, 0x0, 0xFFFFFFFF, false, .none, false⟩,
  ⟨"TENDER_BAD_STATE_COUNT", 0x010C, 0, 1, .ro, 0x0, 0xFFFFFFFF, false, .none, false⟩,
  ⟨"TENDER_TIMER_PERIOD", 0x0200, 8, 8, .rw, 0x0, 0xFFFFF, false, .none, false⟩,
  ⟨"TENDER_TIMER_CTRL", 0x0204, 8, 8, .rw, 0x0, 0x1FFFFF, false, .none, false⟩,
  ⟨"TENDER_CH_SRC_LO", 0x1000, 128, 32, .rw, 0x0, 0xFFFFFFFF, true, .eng 13 1, false⟩,
  ⟨"TENDER_CH_SRC_HI", 0x1004, 128, 32, .rw, 0x0, 0xFFFF, true, .eng 13 1, false⟩,
  ⟨"TENDER_CH_DST_LO", 0x1008, 128, 32, .rw, 0x0, 0xFFFFFFFF, true, .eng 13 1, false⟩,
  ⟨"TENDER_CH_DST_HI", 0x100C, 128, 32, .rw, 0x0, 0xFFFF, true, .eng 13 1, false⟩,
  ⟨"TENDER_CH_COUNT", 0x1010, 128, 32, .rw, 0x0, 0xFFFFFFFF, true, .eng 13 1, false⟩,
  ⟨"TENDER_CH_BLOCK", 0x1014, 128, 32, .rw, 0x0, 0xFFFFFFFF, true, .eng 13 1, false⟩,
  ⟨"TENDER_CH_CTRL", 0x1018, 128, 32, .rw, 0xC0000, 0x3FFFFF, true, .eng 13 1, false⟩,
  ⟨"TENDER_CH_TRIG", 0x101C, 128, 32, .rw, 0x0, 0xFF, true, .eng 13 1, false⟩,
  ⟨"TENDER_CH_CMD", 0x1020, 128, 32, .wo, 0x0, 0xF, true, .eng 13 1, false⟩,
  ⟨"TENDER_CH_STATUS", 0x1024, 128, 32, .ro, 0x0, 0xFFFFFF, true, .eng 13 1, false⟩,
  ⟨"TENDER_CH_CUR_SRC_LO", 0x1028, 128, 32, .ro, 0x0, 0xFFFFFFFF, true, .eng 13 1, false⟩,
  ⟨"TENDER_CH_CUR_SRC_HI", 0x102C, 128, 32, .ro, 0x0, 0xFFFF, true, .eng 13 1, false⟩,
  ⟨"TENDER_CH_CUR_DST_LO", 0x1030, 128, 32, .ro, 0x0, 0xFFFFFFFF, true, .eng 13 1, false⟩,
  ⟨"TENDER_CH_CUR_DST_HI", 0x1034, 128, 32, .ro, 0x0, 0xFFFF, true, .eng 13 1, false⟩,
  ⟨"TENDER_CH_REMAIN", 0x1038, 128, 32, .ro, 0x0, 0xFFFFFFFF, true, .eng 13 1, false⟩,
  ⟨"TENDER_CH_CHECK", 0x103C, 128, 32, .ro, 0x0, 0xFFFFFFFF, true, .eng 13 1, false⟩,
  ⟨"TENDER_CH_ERR_ADDR_LO", 0x1040, 128, 32, .ro, 0x0, 0xFFFFFFFF, true, .eng 13 1, false⟩,
  ⟨"TENDER_CH_ERR_ADDR_HI", 0x1044, 128, 32, .ro, 0x0, 0x1FFFF, true, .eng 13 1, false⟩,
  ⟨"TENDER_CH_RETRY_COUNT", 0x1048, 128, 32, .ro, 0x0, 0xFFFFFFFF, true, .eng 13 1, false⟩,
  ⟨"TENDER_CH_TRIG_LOST_COUNT", 0x104C, 128, 32, .ro, 0x0, 0xFFFFFFFF, true, .eng 13 1, false⟩,
  ⟨"TENDER_CH_DONE_COUNT", 0x1050, 128, 32, .ro, 0x0, 0xFFFFFFFF, true, .eng 13 1, false⟩,
  ⟨"TENDER_CH_EVENT", 0x1054, 128, 32, .w1c, 0x0, 0x1F, true, .eng 13 1, false⟩]

/-- XLT window registers (R421). -/
def xltRows : List RegRow := [
  ⟨"XLT_EVENT", 0x0100, 0, 1, .w1c, 0x0, 0xFF, false, .quay 1, false⟩,
  ⟨"XLT_TABLE_WRITE_DROP_COUNT", 0x0104, 0, 1, .ro, 0x0, 0xFFFFFFFF, false, .quay 1, false⟩,
  ⟨"XLT_QUAY_ROOT_LO", 0x0200, 32, 4, .ro, 0x0, 0xFFFFFFFF, true, .quay 1, false⟩,
  ⟨"XLT_QUAY_ROOT_HI", 0x0204, 32, 4, .ro, 0x0, 0xFFFF, true, .quay 1, false⟩,
  ⟨"XLT_QUAY_FAULT_RING_LO", 0x0208, 32, 4, .rw, 0x0, 0xFFFFFFFF, false, .quay 1, false⟩,
  ⟨"XLT_QUAY_FAULT_RING_HI", 0x020C, 32, 4, .rw, 0x0, 0xFFFFF, false, .quay 1, false⟩,
  ⟨"XLT_QUAY_FAULT_PRODUCER", 0x0210, 32, 4, .ro, 0x0, 0xFFFFFFFF, true, .quay 1, false⟩,
  ⟨"XLT_QUAY_FAULT_CONSUMER", 0x0214, 32, 4, .rw, 0x0, 0xFFF, true, .quay 1, false⟩,
  ⟨"XLT_QUAY_FAULT_COUNT", 0x0218, 32, 4, .ro, 0x0, 0xFFFFFFFF, true, .quay 1, false⟩,
  ⟨"XLT_QUAY_FAULT_DROP_COUNT", 0x021C, 32, 4, .ro, 0x0, 0xFFFFFFFF, true, .quay 1, false⟩,
  ⟨"XLT_PROBE_VA_LO", 0x0300, 0, 1, .rw, 0x0, 0xFFFFFFFF, false, .quay 1, false⟩,
  ⟨"XLT_PROBE_VA_HI", 0x0304, 0, 1, .rw, 0x0, 0x7FFFF, false, .quay 1, false⟩,
  ⟨"XLT_PROBE_PA_LO", 0x0308, 0, 1, .ro, 0x0, 0xFFFFFFFF, false, .quay 1, false⟩,
  ⟨"XLT_PROBE_PA_HI", 0x030C, 0, 1, .ro, 0x0, 0x3FFFFF, false, .quay 1, false⟩]

/-- HBMC window registers (R420). -/
def hbmcRows : List RegRow := [
  ⟨"HBMC_SYSTEM_GROUPS", 0x0100, 0, 1, .rw, 0x8080, 0xFFFF, false, .none, false⟩,
  ⟨"HBMC_SRAM_CE_COUNT", 0x0104, 8, 4, .ro, 0x0, 0xFFFFFFFF, false, .none, false⟩,
  ⟨"HBMC_SRAM_UE_COUNT", 0x0108, 8, 4, .ro, 0x0, 0xFFFFFFFF, false, .none, false⟩,
  ⟨"HBMC_STATUS", 0x0200, 64, 2, .ro, 0x8, 0xFFFF, false, .none, false⟩,
  ⟨"HBMC_HULL_MODE", 0x0204, 64, 2, .rw, 0x0, 0x3, false, .none, false⟩,
  ⟨"HBMC_CE_COUNT", 0x0208, 64, 2, .ro, 0x0, 0xFFFFFFFF, false, .none, false⟩,
  ⟨"HBMC_UE_COUNT", 0x020C, 64, 2, .ro, 0x0, 0xFFFFFFFF, false, .none, false⟩,
  ⟨"HBMC_POISON_READ_COUNT", 0x0210, 64, 2, .ro, 0x0, 0xFFFFFFFF, false, .none, false⟩,
  ⟨"HBMC_PATROL_PASS_COUNT", 0x0214, 64, 2, .ro, 0x0, 0xFFFFFFFF, false, .none, false⟩,
  ⟨"HBMC_RETIRE_STATUS", 0x0218, 64, 2, .ro, 0x0, 0x7FF, false, .none, true⟩,
  ⟨"HBMC_RETIRE_INDEX", 0x021C, 64, 2, .rw, 0x0, 0x3FF, false, .none, false⟩,
  ⟨"HBMC_RETIRE_ENTRY", 0x0220, 64, 2, .ro, 0x0, 0x3FFFFFF, false, .none, true⟩,
  ⟨"HBMC_RETIRE_ADD", 0x0224, 64, 2, .wo, 0x0, 0xFFFFFF, false, .none, false⟩,
  ⟨"HBMC_LAST_UE_LO", 0x0228, 64, 2, .ro, 0x0, 0xFFFFFFFF, false, .none, false⟩,
  ⟨"HBMC_LAST_UE_HI", 0x022C, 64, 2, .ro, 0x0, 0xFFFF, false, .none, false⟩,
  ⟨"HBMC_EVENT", 0x0230, 64, 2, .w1c, 0x0, 0x1F, false, .none, false⟩,
  ⟨"HBMC_GROUP_RETIRED", 0x0234, 64, 2, .ro, 0x0, 0xFF, false, .none, true⟩]

/-- ONNAK window registers, part 0 (R465, R466, R467, R468, R469). -/
def onnakRows0 : List RegRow := [
  ⟨"ONNAK_NODE_ID", 0x0100, 0, 1, .ro, 0x0, 0x7, false, .none, false⟩,
  ⟨"ONNAK_FLEET_ID", 0x0104, 0, 1, .rw, 0x0, 0xFFFFFFFF, false, .none, false⟩,
  ⟨"ONNAK_VERSION", 0x0108, 0, 1, .ro, 0x1210, 0xFFFF, false, .none, false⟩,
  ⟨"ONNAK_CTRL", 0x010C, 0, 1, .rw, 0x0, 0x1FFFF, false, .none, false⟩,
  ⟨"ONNAK_PEER_TIMEOUT", 0x0110, 0, 1, .rw, 0x7D0, 0x1FFFF, false, .none, false⟩,
  ⟨"ONNAK_RTO", 0x0114, 0, 1, .rw, 0x14, 0x3FF, false, .none, false⟩,
  ⟨"ONNAK_MAC_LO", 0x0118, 0, 1, .ro, 0x0, 0xFFFFFFFF, false, .none, false⟩,
  ⟨"ONNAK_MAC_HI", 0x011C, 0, 1, .ro, 0x0, 0xFFFF, false, .none, false⟩,
  ⟨"ONNAK_HELLO_MAC_LO", 0x0120, 0, 1, .rw, 0x3, 0xFFFFFFFF, false, .none, false⟩,
  ⟨"ONNAK_HELLO_MAC_HI", 0x0124, 0, 1, .rw, 0xB588, 0xFFFF, false, .none, false⟩,
  ⟨"ONNAK_TIME_PRIORITY", 0x0128, 0, 1, .rw, 0xF8F8, 0xFFFF, false, .none, false⟩,
  ⟨"ONNAK_EVENT", 0x012C, 0, 1, .w1c, 0x0, 0x1F, false, .none, false⟩,
  ⟨"ONNAK_PORT_CTRL", 0x0200, 32, 4, .rw, 0x0, 0x7, false, .none, false⟩,
  ⟨"ONNAK_PORT_STATUS", 0x0204, 32, 4, .ro, 0x0, 0x3FF, false, .none, false⟩,
  ⟨"ONNAK_PORT_ASYM", 0x0208, 32, 4, .rw, 0x0, 0xFFFFFFFF, false, .none, false⟩,
  ⟨"ONNAK_PORT_FEC_CORR_COUNT", 0x020C, 32, 4, .ro, 0x0, 0xFFFFFFFF, false, .none, false⟩,
  ⟨"ONNAK_PORT_FCS_COUNT", 0x0210, 32, 4, .ro, 0x0, 0xFFFFFFFF, false, .none, false⟩,
  ⟨"ONNAK_PORT_OTHER_COUNT", 0x0214, 32, 4, .ro, 0x0, 0xFFFFFFFF, false, .none, false⟩,
  ⟨"ONNAK_PORT_RETX_COUNT", 0x0218, 32, 4, .ro, 0x0, 0xFFFFFFFF, false, .none, false⟩,
  ⟨"ONNAK_PORT_DOWN_COUNT", 0x021C, 32, 4, .ro, 0x0, 0xFFFFFFFF, false, .none, false⟩,
  ⟨"ONNAK_PEER_STATE", 0x0400, 64, 8, .ro, 0x0, 0xFFFFF03, false, .none, false⟩,
  ⟨"ONNAK_PEER_ROUTE", 0x0404, 64, 8, .rw, 0xF, 0xF, false, .none, false⟩,
  ⟨"ONNAK_PEER_PART", 0x0408, 64, 8, .ro, 0x0, 0xFFFFFFFF, false, .none, false⟩,
  ⟨"ONNAK_PEER_RTT", 0x040C, 64, 8, .ro, 0x0, 0xFFFFFFFF, false, .none, false⟩,
  ⟨"ONNAK_PEER_LOST_COUNT", 0x0410, 64, 8, .ro, 0x0, 0xFFFFFFFF, false, .none, false⟩,
  ⟨"ONNAK_PEER_SESSION_DROP_COUNT", 0x0414, 64, 8, .ro, 0x0, 0xFFFFFFFF, false, .none, false⟩,
  ⟨"ONNAK_PEER_TIMEOUT_COUNT", 0x0418, 64, 8, .ro, 0x0, 0xFFFFFFFF, false, .none, false⟩,
  ⟨"ONNAK_PEER_LATE_ANSWER_COUNT", 0x041C, 64, 8, .ro, 0x0, 0xFFFFFFFF, false, .none, false⟩,
  ⟨"ONNAK_PEER_SKEW_COUNT", 0x0420, 64, 8, .ro, 0x0, 0xFFFFFFFF, false, .none, false⟩,
  ⟨"ONNAK_PEER_SQUASHED_DROP_COUNT", 0x0424, 64, 8, .ro, 0x0, 0xFFFFFFFF, false, .none, false⟩,
  ⟨"ONNAK_PEER_BAD_FRAME_COUNT", 0x0428, 64, 8, .ro, 0x0, 0xFFFFFFFF, false, .none, false⟩,
  ⟨"ONNAK_BIND_STATE", 0x0800, 16, 32, .ro, 0x0, 0x3FFFFFF, true, .quay 8, false⟩,
  ⟨"ONNAK_BIND_OUTSTANDING", 0x0804, 16, 32, .ro, 0x0, 0x7FF, true, .quay 8, false⟩,
  ⟨"ONNAK_BIND_STALE_COUNT", 0x0808, 16, 32, .ro, 0x0, 0xFFFFFFFF, true, .quay 8, false⟩,
  ⟨"ETH_MGMT_CTRL", 0x1000, 0, 1, .rw, 0x0, 0x1F, false, .none, false⟩,
  ⟨"ETH_MGMT_STATUS", 0x1004, 0, 1, .ro, 0x0, 0x3, false, .none, false⟩,
  ⟨"ETH_MGMT_GCL_BASE_LO", 0x1008, 0, 1, .rw, 0x0, 0xFFFFFFFF, false, .none, false⟩,
  ⟨"ETH_MGMT_GCL_BASE_HI", 0x100C, 0, 1, .rw, 0x0, 0xFFFFFFFF, false, .none, false⟩,
  ⟨"ETH_MGMT_GCL_CYCLE", 0x1010, 0, 1, .rw, 0x0, 0xFFFFFFFF, false, .none, false⟩,
  ⟨"ETH_MGMT_GCL_LEN", 0x1014, 0, 1, .rw, 0x0, 0x7F, false, .none, false⟩]

/-- ONNAK window registers, part 1 (R469, R539). -/
def onnakRows1 : List RegRow := [
  ⟨"ETH_MGMT_GCL_COMMIT", 0x1018, 0, 1, .wo, 0x0, 0x1, false, .none, false⟩,
  ⟨"ETH_MGMT_DROP_COUNT", 0x101C, 0, 1, .ro, 0x0, 0xFFFFFFFF, false, .none, false⟩,
  ⟨"ETH_MGMT_GCL", 0x1100, 4, 64, .rw, 0x0, 0xFFFFFFFF, false, .none, false⟩,
  ⟨"ETH_MGMT_TX_BASE_LO", 0x1200, 0, 1, .rw, 0x0, 0xFFFFFFFF, false, .none, false⟩,
  ⟨"ETH_MGMT_TX_BASE_HI", 0x1204, 0, 1, .rw, 0x0, 0xFFFFF, false, .none, false⟩,
  ⟨"ETH_MGMT_TX_PRODUCER", 0x1208, 0, 1, .rw, 0x0, 0xFFF, false, .none, false⟩,
  ⟨"ETH_MGMT_TX_CONSUMER", 0x120C, 0, 1, .ro, 0x0, 0xFFFFFFFF, false, .none, false⟩,
  ⟨"ETH_MGMT_RX_BASE_LO", 0x1210, 0, 1, .rw, 0x0, 0xFFFFFFFF, false, .none, false⟩,
  ⟨"ETH_MGMT_RX_BASE_HI", 0x1214, 0, 1, .rw, 0x0, 0xFFFFF, false, .none, false⟩,
  ⟨"ETH_MGMT_RX_PRODUCER", 0x1218, 0, 1, .ro, 0x0, 0xFFFFFFFF, false, .none, false⟩,
  ⟨"ETH_MGMT_RX_CONSUMER", 0x121C, 0, 1, .rw, 0x0, 0xFFF, false, .none, false⟩,
  ⟨"ETH_MGMT_RX_BUF_SIZE", 0x1220, 0, 1, .rw, 0x600, 0x3FFF, false, .none, false⟩,
  ⟨"ETH_MGMT_RX_DROP_COUNT", 0x1224, 0, 1, .ro, 0x0, 0xFFFFFFFF, false, .none, false⟩]

/-- All registers of the window. -/
def onnakRows : List RegRow := onnakRows0 ++ onnakRows1

/-- CG window registers (R496, R497). -/
def cgRows : List RegRow := [
  ⟨"CG_STATUS", 0x0100, 0, 1, .ro, 0xF, 0x3F, false, .none, false⟩,
  ⟨"CG_CAUSE_ACTIVE", 0x0104, 0, 1, .ro, 0x3, 0xFFFFFFFF, false, .none, false⟩,
  ⟨"CG_CAUSE_LATCHED", 0x0108, 0, 1, .ro, 0x1, 0xFFFFFFFF, false, .none, false⟩,
  ⟨"CG_CAUSE_EVENT", 0x010C, 0, 1, .w1c, 0x3, 0xFFFFFFFF, false, .none, false⟩,
  ⟨"CG_RELEASE", 0x0110, 0, 1, .wo, 0x0, 0x1, false, .none, false⟩,
  ⟨"CG_RELEASE_STATUS", 0x0114, 0, 1, .ro, 0x0, 0xFFFF00FF, false, .none, false⟩,
  ⟨"CG_SW_REQUEST", 0x0118, 0, 1, .wo, 0x0, 0x1, false, .none, false⟩,
  ⟨"CG_Q0_GUARD", 0x011C, 0, 1, .rw, 0x0, 0x1, false, .none, false⟩,
  ⟨"CG_WDT_PERIOD", 0x0120, 0, 1, .rw, 0x3E8, 0x3FFF, false, .none, false⟩,
  ⟨"CG_WDT_KICK", 0x0124, 0, 1, .wo, 0x0, 0xFFFFFFFF, false, .none, false⟩,
  ⟨"CG_NOTICE_PERIOD", 0x0128, 0, 1, .rw, 0x2710, 0x1FFFF, false, .none, false⟩,
  ⟨"CG_DECISION_COUNT", 0x012C, 0, 1, .ro, 0x0, 0xFFFFFFFF, false, .none, true⟩,
  ⟨"CG_LAST_DECISION_TIME_LO", 0x0130, 0, 1, .ro, 0x0, 0xFFFFFFFF, false, .none, false⟩,
  ⟨"CG_LAST_DECISION_TIME_HI", 0x0134, 0, 1, .ro, 0x0, 0xFFFFFFFF, false, .none, false⟩,
  ⟨"CG_LAST_DECISION_FRAME", 0x0138, 0, 1, .ro, 0x0, 0xFFFFFFFF, false, .none, false⟩,
  ⟨"CG_CHECK_MISMATCH_COUNT", 0x013C, 0, 1, .ro, 0x0, 0xFFFFFFFF, false, .none, true⟩,
  ⟨"CG_AGE_SEL", 0x0140, 0, 1, .rw, 0x0, 0x3FF, false, .none, false⟩,
  ⟨"CG_AGE_STAGE", 0x0144, 0, 1, .ro, 0x0, 0xFFFF, false, .none, false⟩,
  ⟨"CG_AGE_VALUE", 0x0148, 0, 1, .ro, 0x0, 0x7FFFF, false, .none, false⟩,
  ⟨"CG_AGE_FAULT_COUNT", 0x014C, 0, 1, .ro, 0x0, 0xFFFFFFFF, false, .none, true⟩,
  ⟨"CG_MSG_CTRL", 0x0150, 0, 1, .rw, 0x0, 0xFFF7, false, .none, false⟩,
  ⟨"CG_ETH_DST_LO", 0x0154, 0, 1, .rw, 0x0, 0xFFFFFFFF, false, .none, false⟩,
  ⟨"CG_ETH_DST_HI", 0x0158, 0, 1, .rw, 0x0, 0xFFFF, false, .none, false⟩,
  ⟨"CG_CAN_ID_NOTICE", 0x015C, 0, 1, .rw, 0x0, 0x3FFFFFFF, false, .none, false⟩,
  ⟨"CG_CAN_ID_RESULT", 0x0160, 0, 1, .rw, 0x0, 0x3FFFFFFF, false, .none, false⟩,
  ⟨"CG_MSG_DROP_COUNT", 0x0164, 0, 1, .ro, 0x0, 0xFFFFFFFF, false, .none, true⟩,
  ⟨"CG_FWD", 0x0200, 8, 16, .rw, 0x0, 0x87FFFFFF, false, .none, false⟩,
  ⟨"CG_FWD_OFFSET", 0x0204, 8, 16, .rw, 0x0, 0xFFFFFFFF, false, .none, false⟩,
  ⟨"CG_LH_STATE", 0x0400, 16, 29, .ro, 0x0, 0x3F, false, .none, true⟩,
  ⟨"CG_LH_FAIL_COUNT", 0x0404, 16, 29, .ro, 0x0, 0xFFFFFFFF, false, .none, true⟩,
  ⟨"CG_LH_UNLIT_COUNT", 0x0408, 16, 29, .ro, 0x0, 0xFFFFFFFF, false, .none, true⟩,
  ⟨"CG_LH_TRANSIENT_COUNT", 0x040C, 16, 29, .ro, 0x0, 0xFFFFFFFF, false, .none, true⟩]

/-- SALVAGE window registers (R513, R514). -/
def salvageRows : List RegRow := [
  ⟨"SALVAGE_STATUS", 0x0100, 0, 1, .ro, 0x1, 0xF, false, .none, false⟩,
  ⟨"SALVAGE_ESCALATION", 0x0104, 0, 1, .ro, 0x0, 0x3F, false, .none, true⟩,
  ⟨"SALVAGE_ESCALATION_TIME_LO", 0x0108, 0, 1, .ro, 0x0, 0xFFFFFFFF, false, .none, true⟩,
  ⟨"SALVAGE_ESCALATION_TIME_HI", 0x010C, 0, 1, .ro, 0x0, 0xFFFFFFFF, false, .none, true⟩,
  ⟨"SALVAGE_ESCALATION_COUNT", 0x0110, 0, 1, .ro, 0x0, 0xFFFFFFFF, false, .none, true⟩,
  ⟨"SALVAGE_QUAY_CTRL", 0x0200, 64, 4, .rw, 0x0, 0x1, false, .quay 1, false⟩,
  ⟨"SALVAGE_QUAY_CMD", 0x0204, 64, 4, .wo, 0x0, 0x3, false, .quay 1, false⟩,
  ⟨"SALVAGE_QUAY_STATUS", 0x0208, 64, 4, .ro, 0x0, 0xFFFFF3F, false, .quay 1, false⟩,
  ⟨"SALVAGE_QUAY_DUMP_LO", 0x020C, 64, 4, .rw, 0x0, 0xFFFFFFFF, false, .quay 1, false⟩,
  ⟨"SALVAGE_QUAY_DUMP_HI", 0x0210, 64, 4, .rw, 0x0, 0xFFFF, false, .quay 1, false⟩,
  ⟨"SALVAGE_QUAY_DUMP_SIZE", 0x0214, 64, 4, .rw, 0x0, 0xFFFF, false, .quay 1, false⟩,
  ⟨"SALVAGE_QUAY_DUMP_STATUS", 0x0218, 64, 4, .ro, 0x0, 0x1FF, false, .quay 1, false⟩,
  ⟨"SALVAGE_QUAY_DUMP_RELEASE", 0x021C, 64, 4, .wo, 0x0, 0x1, false, .quay 1, false⟩,
  ⟨"SALVAGE_QUAY_HANG_COUNT", 0x0220, 64, 4, .ro, 0x0, 0xFFFFFFFF, false, .quay 1, false⟩,
  ⟨"SALVAGE_QUAY_RECOVER_COUNT", 0x0224, 64, 4, .ro, 0x0, 0xFFFFFFFF, false, .quay 1, false⟩,
  ⟨"SALVAGE_QUAY_REPLAY_COUNT", 0x0228, 64, 4, .ro, 0x0, 0xFFFFFFFF, false, .quay 1, false⟩,
  ⟨"SALVAGE_QUAY_CULPRIT", 0x022C, 64, 4, .ro, 0x0, 0xFFFF0FFF, false, .quay 1, false⟩,
  ⟨"SALVAGE_QUAY_RESET_TIME", 0x0230, 64, 4, .ro, 0x0, 0xFFFF, false, .quay 1, false⟩,
  ⟨"SALVAGE_QUAY_LATE_DROP_COUNT", 0x0234, 64, 4, .ro, 0x0, 0xFFFFFFFF, false, .quay 1, false⟩,
  ⟨"SALVAGE_QUAY_BAD_STATE_COUNT", 0x0238, 64, 4, .ro, 0x0, 0xFFFFFFFF, false, .quay 1, false⟩,
  ⟨"SALVAGE_QUAY_EVENT", 0x023C, 64, 4, .w1c, 0x0, 0xFF, false, .quay 1, false⟩]

/-- PMC window registers (R552). -/
def pmcRows : List RegRow := [
  ⟨"PMC_STATUS", 0x0100, 0, 1, .ro, 0x0, 0xF, false, .none, false⟩,
  ⟨"PMC_EPOCH", 0x0104, 0, 1, .ro, 0x0, 0xFFFFFFFF, false, .none, true⟩,
  ⟨"PMC_ENVELOPE", 0x0108, 0, 1, .rw, 0xB4, 0xFF, false, .none, false⟩,
  ⟨"PMC_THROTTLE_TEMP", 0x010C, 0, 1, .rw, 0x5A, 0xFF, false, .none, false⟩,
  ⟨"PMC_FLOOR_MHZ", 0x0110, 0, 1, .ro, 0x384, 0x7FF, false, .none, false⟩,
  ⟨"PMC_CORE_MHZ", 0x0114, 4, 2, .ro, 0x384, 0xFFFF07FF, false, .none, false⟩,
  ⟨"PMC_APU_MHZ", 0x011C, 4, 2, .ro, 0xA28, 0xFFF, false, .none, false⟩,
  ⟨"PMC_APU_REQ", 0x0124, 4, 2, .rw, 0xA28, 0xFFF, false, .none, false⟩,
  ⟨"PMC_POWER_MW", 0x012C, 0, 1, .ro, 0x0, 0xFFFFFFFF, false, .none, false⟩,
  ⟨"PMC_OVER_ENVELOPE_COUNT", 0x0130, 0, 1, .ro, 0x0, 0xFFFFFFFF, false, .none, true⟩,
  ⟨"PMC_EMERGENCY_COUNT", 0x0134, 0, 1, .ro, 0x0, 0xFFFFFFFF, false, .none, true⟩,
  ⟨"PMC_SERVICE_ACTIVE", 0x0138, 0, 1, .ro, 0x0, 0xFFFFFFFF, false, .none, true⟩,
  ⟨"PMC_SERVICE_LATCHED", 0x013C, 0, 1, .w1c, 0x0, 0xFFFFFFFF, false, .none, true⟩,
  ⟨"PMC_SERVICE_LAST", 0x0140, 0, 1, .ro, 0x0, 0xFFFFFFFF, false, .none, true⟩,
  ⟨"PMC_EVENT", 0x0144, 0, 1, .w1c, 0x0, 0x1F, false, .none, false⟩,
  ⟨"PMC_TEMP", 0x0200, 4, 32, .ro, 0x0, 0xFFFF01FF, false, .none, true⟩,
  ⟨"PMC_RAIL_MA", 0x0300, 4, 18, .ro, 0x0, 0xFFFFFFFF, false, .none, false⟩]

/-- CUSTOMS window registers (R540). -/
def customsRows : List RegRow := [
  ⟨"CUSTOMS_BOOT_STATUS", 0x0100, 0, 1, .ro, 0x0, 0x7FFFF, false, .none, true⟩,
  ⟨"CUSTOMS_FUSE_STATE", 0x0104, 0, 1, .ro, 0x0, 0x7FF, false, .none, true⟩,
  ⟨"CUSTOMS_IMAGE_VERSION", 0x0108, 0, 1, .ro, 0x0, 0xFFFFFFFF, false, .none, true⟩,
  ⟨"CUSTOMS_SLOT_VALID", 0x010C, 0, 1, .ro, 0x0, 0xFFFFFFFF, false, .none, true⟩,
  ⟨"CUSTOMS_MB_CMD", 0x0110, 0, 1, .wo, 0x0, 0xFF, false, .none, true⟩,
  ⟨"CUSTOMS_MB_STATUS", 0x0114, 0, 1, .ro, 0x0, 0x1FF, false, .none, true⟩,
  ⟨"CUSTOMS_MB_ADDR_LO", 0x0118, 0, 1, .rw, 0x0, 0xFFFFFFFF, false, .none, true⟩,
  ⟨"CUSTOMS_MB_ADDR_HI", 0x011C, 0, 1, .rw, 0x0, 0xFFFF, false, .none, true⟩,
  ⟨"CUSTOMS_MB_LEN", 0x0120, 0, 1, .rw, 0x0, 0xFFFFFFFF, false, .none, true⟩,
  ⟨"CUSTOMS_MB_ARG", 0x0124, 0, 1, .rw, 0x0, 0xFFFFFFFF, false, .none, true⟩,
  ⟨"CUSTOMS_MB_OUT_LO", 0x0128, 0, 1, .rw, 0x0, 0xFFFFFFFF, false, .none, true⟩,
  ⟨"CUSTOMS_MB_OUT_HI", 0x012C, 0, 1, .rw, 0x0, 0xFFFF, false, .none, true⟩,
  ⟨"CUSTOMS_ID_PUB", 0x0140, 4, 8, .ro, 0x0, 0xFFFFFFFF, false, .none, true⟩,
  ⟨"CUSTOMS_DEBUG_NONCE", 0x0160, 4, 8, .ro, 0x0, 0xFFFFFFFF, false, .none, true⟩,
  ⟨"CUSTOMS_DEBUG_STATUS", 0x0180, 0, 1, .ro, 0x0, 0xFFFFFFFF, false, .none, true⟩]

/-- SPI window registers (R152). -/
def periphRows : List RegRow := [
  ⟨"SPI_STAMP_CTRL", 0x4000, 32, 4, .rw, 0x0, 0x1FFFFFF, false, .none, false⟩,
  ⟨"SPI_STAMP_CMD", 0x4004, 32, 4, .rw, 0x0, 0xFFFFFFFF, false, .none, false⟩,
  ⟨"SPI_STAMP_RING_LO", 0x4008, 32, 4, .rw, 0x0, 0xFFFFFFFF, false, .none, false⟩,
  ⟨"SPI_STAMP_RING_HI", 0x400C, 32, 4, .rw, 0x0, 0xFFFF, false, .none, false⟩,
  ⟨"SPI_STAMP_PRODUCER", 0x4010, 32, 4, .ro, 0x0, 0xFFFFFFFF, false, .none, false⟩,
  ⟨"SPI_STAMP_CONSUMER", 0x4014, 32, 4, .rw, 0x0, 0xFFF, false, .none, false⟩,
  ⟨"SPI_STAMP_DROP_COUNT", 0x4018, 32, 4, .ro, 0x0, 0xFFFFFFFF, false, .none, false⟩]

/-- The common header of every block window (R14). -/
def headerRows (b : Nat) : List RegRow := [
  ⟨"BLOCK_ID", 0x0000, 0, 1, .ro, b, 0xFF, false, .none, false⟩,
  ⟨"BLOCK_VERSION", 0x0004, 0, 1, .ro, 0x200, 0xFFFF, false, .none, false⟩,
  ⟨"COLLIDE_COUNT", 0x0008, 0, 1, .ro, 0, 0xFFFFFFFF, false, .none, false⟩,
  ⟨"IGNORED_WRITE_COUNT", 0x000C, 0, 1, .ro, 0, 0xFFFFFFFF, false, .none, false⟩,
  ⟨"LAST_IGNORED_OFFSET", 0x0010, 0, 1, .ro, 0, 0xFFFFF, false, .none, false⟩,
  ⟨"EVENT_MSI", 0x0014, 0, 1, .rw, 0, 0x1, false, .none, false⟩]

/-- The block-specific rows of block `b` (R397). -/
def blockRows (b : Nat) : List RegRow :=
  match b with
  | 0 => topRows
  | 1 => hmRows
  | 2 => quayRows
  | 3 => drlRows
  | 4 => camrxRows
  | 5 => campRows
  | 6 => pyrRows
  | 7 => warpRows
  | 8 => stereoRows
  | 9 => flowRows
  | 10 => featLedgerRows
  | 11 => sndEdgeRows
  | 12 => elvRows
  | 13 => layoutRows
  | 14 => tenderRows
  | 15 => xltRows
  | 16 => hbmcRows
  | 17 => onnakRows
  | 18 => cgRows
  | 19 => salvageRows
  | 20 => pmcRows
  | 21 => customsRows
  | 22 => periphRows
  | _ => []

/-- Instance index of window offset `o` in row `r`. -/
def RegRow.index? (r : RegRow) (o : Nat) : Option Nat :=
  if r.count = 1 then (if o = r.off then some 0 else Option.none)
  else if o < r.off then Option.none
  else if (o - r.off) % r.stride = 0 ∧ (o - r.off) / r.stride < r.count then some ((o - r.off) / r.stride)
  else Option.none

/-- The row and instance index of window offset `o` among `rows`. -/
def findRow (o : Nat) : List RegRow → Option (RegRow × Nat)
  | [] => Option.none
  | r :: rs => match r.index? o with
    | some i => some (r, i)
    | Option.none => findRow o rs

/-- The block index of a control-window address (R14). -/
def blockOf (a : Nat) : Nat := a / 0x100000

/-- The window offset of a control-window address. -/
def offOf (a : Nat) : Nat := a % 0x100000

/-- The row and instance index of a control-window address; none at a reserved offset (R13). -/
def regRow (a : Nat) : Option (RegRow × Nat) :=
  if blockOf a < 23 then
    if offOf a < 0x100 then findRow (offOf a) (headerRows (blockOf a)) else findRow (offOf a) (blockRows (blockOf a))
  else Option.none

/-- The reset value of a control-window address (R21); reserved offsets read as zero (R13). -/
def regReset (a : Nat) : Word :=
  match regRow a with
  | some (r, _) => BitVec.ofNat 32 r.reset
  | Option.none => 0#32

/-- A row's control-window addresses within block `b`. -/
def RegRow.addrs (b : Nat) (r : RegRow) : List Nat :=
  (List.range r.count).map (fun i => b * 0x100000 + r.off + i * r.stride)

namespace Reg
/-- Common header: collision counter of block b (R14). -/
def COLLIDE_COUNT (b : Nat) : Nat := b * 0x100000 + 0x8
/-- Common header: ignored-write counter (R14). -/
def IGNORED_WRITE_COUNT (b : Nat) : Nat := b * 0x100000 + 0xC
/-- Common header: last ignored offset (R14). -/
def LAST_IGNORED_OFFSET (b : Nat) : Nat := b * 0x100000 + 0x10
/-- Common header: event MSI enable (R14). -/
def EVENT_MSI (b : Nat) : Nat := b * 0x100000 + 0x14
/-- R91. -/
def HM_HTIME_LO : Nat := 0x0100100
/-- R91. -/
def HM_HTIME_HI : Nat := 0x0100104
/-- R91. -/
def HM_TICK_ORIGIN_LO : Nat := 0x0100108
/-- R91. -/
def HM_TICK_ORIGIN_HI : Nat := 0x010010C
/-- R91. -/
def HM_TIME_STATUS : Nat := 0x0100110
/-- R91. -/
def HM_Q0_GUARD : Nat := 0x0100114
/-- R91. -/
def HM_QUAY_CMD (q : Nat) : Nat := 0x0100200 + q * 64
/-- R91. -/
def HM_QUAY_STATUS (q : Nat) : Nat := 0x0100204 + q * 64
/-- R91. -/
def HM_QUAY_CHART_LO (q : Nat) : Nat := 0x0100208 + q * 64
/-- R91. -/
def HM_QUAY_CHART_HI (q : Nat) : Nat := 0x010020C + q * 64
/-- R91. -/
def HM_QUAY_REPORT_LO (q : Nat) : Nat := 0x0100210 + q * 64
/-- R91. -/
def HM_QUAY_REPORT_HI (q : Nat) : Nat := 0x0100214 + q * 64
/-- R91. -/
def HM_QUAY_REPORT_SIZE (q : Nat) : Nat := 0x0100218 + q * 64
/-- R91. -/
def HM_QUAY_START_FRAME (q : Nat) : Nat := 0x010021C + q * 64
/-- R91. -/
def HM_QUAY_FRAME (q : Nat) : Nat := 0x0100220 + q * 64
/-- R91. -/
def HM_QUAY_BAD_STATE_COUNT (q : Nat) : Nat := 0x0100224 + q * 64
/-- R91. -/
def HM_QUAY_TICK_LO (q : Nat) : Nat := 0x0100228 + q * 64
/-- R91. -/
def HM_QUAY_TICK_HI (q : Nat) : Nat := 0x010022C + q * 64
/-- R91. -/
def HM_QUAY_EVENT (q : Nat) : Nat := 0x0100230 + q * 64
/-- R91. -/
def HM_QUAY_CHART_SIZE (q : Nat) : Nat := 0x0100234 + q * 64
/-- R92. -/
def QUAY_MODE (q : Nat) : Nat := 0x0200100 + q * 32
/-- R92. -/
def QUAY_TICK_PERIOD (q : Nat) : Nat := 0x0200104 + q * 32
/-- R92. -/
def QUAY_TICK_PHASE (q : Nat) : Nat := 0x0200108 + q * 32
/-- R92. -/
def QUAY_FLOOR (q : Nat) : Nat := 0x020010C + q * 32
/-- R92. -/
def QUAY_BERTH_RANGE (q : Nat) : Nat := 0x0200110 + q * 32
/-- R92. -/
def QUAY_PCH_MAP (q : Nat) : Nat := 0x0200114 + q * 32
/-- R92. -/
def QUAY_CHART_ID (q : Nat) : Nat := 0x0200118 + q * 32
/-- R121. -/
def HM_QUAY_FREEWHEEL (q : Nat) : Nat := 0x0100400 + q * 32
/-- R121. -/
def HM_QUAY_CONFIRMED (q : Nat) : Nat := 0x0100404 + q * 32
/-- R121. -/
def HM_QUAY_PUBLISHED (q : Nat) : Nat := 0x0100408 + q * 32
/-- R121. -/
def HM_QUAY_SQUASH_COUNT (q : Nat) : Nat := 0x010040C + q * 32
/-- R121. -/
def HM_QUAY_STALE_DROP_COUNT (q : Nat) : Nat := 0x0100410 + q * 32
/-- R121. -/
def HM_QUAY_STAGE_FAULT_COUNT (q : Nat) : Nat := 0x0100414 + q * 32
/-- R121. -/
def HM_QUAY_SKIP_COUNT (q : Nat) : Nat := 0x0100418 + q * 32
/-- R121. -/
def HM_QUAY_TANDEM (q : Nat) : Nat := 0x010041C + q * 32
/-- R121. -/
def HM_FAULT_STATUS : Nat := 0x0100480
/-- R121. -/
def HM_FAULT_POP : Nat := 0x0100484
/-- R121. -/
def HM_FAULT_ENTRY_LO : Nat := 0x0100488
/-- R121. -/
def HM_FAULT_ENTRY_HI : Nat := 0x010048C
/-- R121. -/
def HM_FAULT_LOST_COUNT : Nat := 0x0100490
/-- R149. -/
def CAMRX_PORT_STATUS (p : Nat) : Nat := 0x0400200 + p * 32
/-- R149. -/
def CAMRX_PORT_ECC_COUNT (p : Nat) : Nat := 0x0400204 + p * 32
/-- R149. -/
def CAMRX_PORT_HDR_LOST_COUNT (p : Nat) : Nat := 0x0400208 + p * 32
/-- R149. -/
def CAMRX_PORT_CRC_COUNT (p : Nat) : Nat := 0x040020C + p * 32
/-- R149. -/
def CAMRX_PORT_PHY_ERR_COUNT (p : Nat) : Nat := 0x0400210 + p * 32
/-- R149. -/
def CAMRX_PORT_UNMATCHED_COUNT (p : Nat) : Nat := 0x0400214 + p * 32
/-- R149. -/
def CAMRX_PORT_EVENT (p : Nat) : Nat := 0x0400218 + p * 32
/-- R150. -/
def CAMRX_CTX_FRAME (c : Nat) : Nat := 0x0400400 + c * 64
/-- R150. -/
def CAMRX_CTX_FLAGS (c : Nat) : Nat := 0x0400404 + c * 64
/-- R150. -/
def CAMRX_CTX_SOF_LO (c : Nat) : Nat := 0x0400408 + c * 64
/-- R150. -/
def CAMRX_CTX_SOF_HI (c : Nat) : Nat := 0x040040C + c * 64
/-- R150. -/
def CAMRX_CTX_EOF_LO (c : Nat) : Nat := 0x0400410 + c * 64
/-- R150. -/
def CAMRX_CTX_EOF_HI (c : Nat) : Nat := 0x0400414 + c * 64
/-- R150. -/
def CAMRX_CTX_MID_LO (c : Nat) : Nat := 0x0400418 + c * 64
/-- R150. -/
def CAMRX_CTX_MID_HI (c : Nat) : Nat := 0x040041C + c * 64
/-- R150. -/
def CAMRX_CTX_TICKET (c : Nat) : Nat := 0x0400420 + c * 64
/-- R150. -/
def CAMRX_CTX_SENSOR_COUNT (c : Nat) : Nat := 0x0400424 + c * 64
/-- R150. -/
def CAMRX_CTX_SIGNATURE (c : Nat) : Nat := 0x0400428 + c * 64
/-- R150. -/
def CAMRX_CTX_INVALID_COUNT (c : Nat) : Nat := 0x040042C + c * 64
/-- R150. -/
def CAMRX_CTX_STALE_COUNT (c : Nat) : Nat := 0x0400430 + c * 64
/-- R150. -/
def CAMRX_CTX_EXTRA_COUNT (c : Nat) : Nat := 0x0400434 + c * 64
/-- R150. -/
def CAMRX_CTX_INJECT_FAIL_COUNT (c : Nat) : Nat := 0x0400438 + c * 64
/-- R151. -/
def CAMRX_TKT_TARGET (q : Nat) : Nat := 0x0401000 + q * 32
/-- R151. -/
def CAMRX_TKT_EXPOSURE (q : Nat) : Nat := 0x0401004 + q * 32
/-- R151. -/
def CAMRX_TKT_SCRIPT_LO (q : Nat) : Nat := 0x0401008 + q * 32
/-- R151. -/
def CAMRX_TKT_SCRIPT_HI (q : Nat) : Nat := 0x040100C + q * 32
/-- R151. -/
def CAMRX_TKT_SUBMIT (q : Nat) : Nat := 0x0401010 + q * 32
/-- R151. -/
def CAMRX_TKT_STATUS (q : Nat) : Nat := 0x0401014 + q * 32
/-- R151. -/
def CAMRX_TKT_BAD_STATE_COUNT (q : Nat) : Nat := 0x0401018 + q * 32
/-- R151. -/
def CAMRX_TKT_RESULT_STATUS : Nat := 0x0401100
/-- R151. -/
def CAMRX_TKT_RESULT_POP : Nat := 0x0401104
/-- R151. -/
def CAMRX_TKT_RESULT_LO : Nat := 0x0401108
/-- R151. -/
def CAMRX_TKT_RESULT_HI : Nat := 0x040110C
/-- R151. -/
def CAMRX_TKT_RESULT_LOST_COUNT : Nat := 0x0401110
/-- R151. -/
def CAMRX_FSYNC_EDGE_LO (i : Nat) : Nat := 0x0401200 + i * 8
/-- R151. -/
def CAMRX_FSYNC_EDGE_HI (i : Nat) : Nat := 0x0401204 + i * 8
/-- R152. -/
def SPI_STAMP_CTRL (s : Nat) : Nat := 0x1604000 + s * 32
/-- R152. -/
def SPI_STAMP_CMD (s : Nat) : Nat := 0x1604004 + s * 32
/-- R152. -/
def SPI_STAMP_RING_LO (s : Nat) : Nat := 0x1604008 + s * 32
/-- R152. -/
def SPI_STAMP_RING_HI (s : Nat) : Nat := 0x160400C + s * 32
/-- R152. -/
def SPI_STAMP_PRODUCER (s : Nat) : Nat := 0x1604010 + s * 32
/-- R152. -/
def SPI_STAMP_CONSUMER (s : Nat) : Nat := 0x1604014 + s * 32
/-- R152. -/
def SPI_STAMP_DROP_COUNT (s : Nat) : Nat := 0x1604018 + s * 32
/-- R191. -/
def CAMP_PIPE_STATUS (i : Nat) : Nat := 0x0500200 + i * 32
/-- R191. -/
def CAMP_PIPE_BUSY_CLOCKS (i : Nat) : Nat := 0x0500204 + i * 32
/-- R191. -/
def CAMP_PIPE_STALL_CLOCKS (i : Nat) : Nat := 0x0500208 + i * 32
/-- R191. -/
def CAMP_PIPE_EVENT (i : Nat) : Nat := 0x050020C + i * 32
/-- R192. -/
def CAMP_SLOT_FRAME (n : Nat) : Nat := 0x0500400 + n * 32
/-- R192. -/
def CAMP_SLOT_LINES (n : Nat) : Nat := 0x0500404 + n * 32
/-- R192. -/
def CAMP_SLOT_LOST_COUNT (n : Nat) : Nat := 0x0500408 + n * 32
/-- R192. -/
def CAMP_SLOT_OVERRUN_COUNT (n : Nat) : Nat := 0x050040C + n * 32
/-- R192. -/
def CAMP_SLOT_ADJ (n : Nat) : Nat := 0x0500410 + n * 32
/-- R192. -/
def CAMP_SLOT_STATS_PRODUCER (n : Nat) : Nat := 0x0500414 + n * 32
/-- R192. -/
def CAMP_SLOT_STATS_CONSUMER (n : Nat) : Nat := 0x0500418 + n * 32
/-- R192. -/
def CAMP_SLOT_STATS_DROP_COUNT (n : Nat) : Nat := 0x050041C + n * 32
/-- R193. -/
def CAMP_ADJ_TARGET (q : Nat) : Nat := 0x0501000 + q * 32
/-- R193. -/
def CAMP_ADJ_RECORD_LO (q : Nat) : Nat := 0x0501004 + q * 32
/-- R193. -/
def CAMP_ADJ_RECORD_HI (q : Nat) : Nat := 0x0501008 + q * 32
/-- R193. -/
def CAMP_ADJ_SUBMIT (q : Nat) : Nat := 0x050100C + q * 32
/-- R193. -/
def CAMP_ADJ_STATUS (q : Nat) : Nat := 0x0501010 + q * 32
/-- R193. -/
def CAMP_ADJ_BAD_STATE_COUNT (q : Nat) : Nat := 0x0501014 + q * 32
/-- R219. -/
def PYR_STATUS (i : Nat) : Nat := 0x0600200 + i * 32
/-- R219. -/
def PYR_BUSY_CLOCKS (i : Nat) : Nat := 0x0600204 + i * 32
/-- R219. -/
def PYR_STALL_CLOCKS (i : Nat) : Nat := 0x0600208 + i * 32
/-- R219. -/
def PYR_JOB_COUNT (i : Nat) : Nat := 0x060020C + i * 32
/-- R219. -/
def PYR_SHAPE_COUNT (i : Nat) : Nat := 0x0600210 + i * 32
/-- R219. -/
def PYR_LAST_JOB (i : Nat) : Nat := 0x0600214 + i * 32
/-- R219. -/
def PYR_EVENT (i : Nat) : Nat := 0x0600218 + i * 32
/-- R220. -/
def WARP_STATUS (i : Nat) : Nat := 0x0700200 + i * 64
/-- R220. -/
def WARP_BUSY_CLOCKS (i : Nat) : Nat := 0x0700204 + i * 64
/-- R220. -/
def WARP_STALL_CLOCKS (i : Nat) : Nat := 0x0700208 + i * 64
/-- R220. -/
def WARP_TILE_FETCH_COUNT (i : Nat) : Nat := 0x070020C + i * 64
/-- R220. -/
def WARP_TILE_HIT_COUNT (i : Nat) : Nat := 0x0700210 + i * 64
/-- R220. -/
def WARP_OUTSIDE_COUNT (i : Nat) : Nat := 0x0700214 + i * 64
/-- R220. -/
def WARP_JOB_COUNT (i : Nat) : Nat := 0x0700218 + i * 64
/-- R220. -/
def WARP_SHAPE_COUNT (i : Nat) : Nat := 0x070021C + i * 64
/-- R220. -/
def WARP_LAST_JOB (i : Nat) : Nat := 0x0700220 + i * 64
/-- R220. -/
def WARP_EVENT (i : Nat) : Nat := 0x0700224 + i * 64
/-- R243. -/
def STEREO_STATUS (i : Nat) : Nat := 0x0800200 + i * 64
/-- R243. -/
def STEREO_BUSY_CLOCKS (i : Nat) : Nat := 0x0800204 + i * 64
/-- R243. -/
def STEREO_STALL_CLOCKS (i : Nat) : Nat := 0x0800208 + i * 64
/-- R243. -/
def STEREO_JOB_COUNT (i : Nat) : Nat := 0x080020C + i * 64
/-- R243. -/
def STEREO_SHAPE_COUNT (i : Nat) : Nat := 0x0800210 + i * 64
/-- R243. -/
def STEREO_CONSISTENCY_COUNT (i : Nat) : Nat := 0x0800214 + i * 64
/-- R243. -/
def STEREO_AMBIGUOUS_COUNT (i : Nat) : Nat := 0x0800218 + i * 64
/-- R243. -/
def STEREO_BORDER_COUNT (i : Nat) : Nat := 0x080021C + i * 64
/-- R243. -/
def STEREO_LAST_JOB (i : Nat) : Nat := 0x0800220 + i * 64
/-- R243. -/
def STEREO_EVENT (i : Nat) : Nat := 0x0800224 + i * 64
/-- R244. -/
def FLOW_STATUS (i : Nat) : Nat := 0x0900200 + i * 64
/-- R244. -/
def FLOW_BUSY_CLOCKS (i : Nat) : Nat := 0x0900204 + i * 64
/-- R244. -/
def FLOW_STALL_CLOCKS (i : Nat) : Nat := 0x0900208 + i * 64
/-- R244. -/
def FLOW_JOB_COUNT (i : Nat) : Nat := 0x090020C + i * 64
/-- R244. -/
def FLOW_SHAPE_COUNT (i : Nat) : Nat := 0x0900210 + i * 64
/-- R244. -/
def FLOW_AMBIGUOUS_COUNT (i : Nat) : Nat := 0x0900214 + i * 64
/-- R244. -/
def FLOW_BORDER_COUNT (i : Nat) : Nat := 0x0900218 + i * 64
/-- R244. -/
def FLOW_NO_HISTORY_COUNT (i : Nat) : Nat := 0x090021C + i * 64
/-- R244. -/
def FLOW_LAST_JOB (i : Nat) : Nat := 0x0900220 + i * 64
/-- R244. -/
def FLOW_EVENT (i : Nat) : Nat := 0x0900224 + i * 64
/-- R267. -/
def FEAT_STATUS (i : Nat) : Nat := 0x0A00200 + i * 64
/-- R267. -/
def FEAT_BUSY_CLOCKS (i : Nat) : Nat := 0x0A00204 + i * 64
/-- R267. -/
def FEAT_STALL_CLOCKS (i : Nat) : Nat := 0x0A00208 + i * 64
/-- R267. -/
def FEAT_JOB_COUNT (i : Nat) : Nat := 0x0A0020C + i * 64
/-- R267. -/
def FEAT_SHAPE_COUNT (i : Nat) : Nat := 0x0A00210 + i * 64
/-- R267. -/
def FEAT_FEATURE_COUNT (i : Nat) : Nat := 0x0A00214 + i * 64
/-- R267. -/
def FEAT_MATCH_COUNT (i : Nat) : Nat := 0x0A00218 + i * 64
/-- R267. -/
def FEAT_UNPREDICTED_COUNT (i : Nat) : Nat := 0x0A0021C + i * 64
/-- R267. -/
def FEAT_LAST_JOB (i : Nat) : Nat := 0x0A00220 + i * 64
/-- R267. -/
def FEAT_EVENT (i : Nat) : Nat := 0x0A00224 + i * 64
/-- R268. -/
def LEDGER_SWEEP_STATUS : Nat := 0x0A01000
/-- R268. -/
def LEDGER_WRITE_DROP_COUNT : Nat := 0x0A01004
/-- R268. -/
def LEDGER_BLOCK_STATUS (b : Nat) : Nat := 0x0A01100 + b * 16
/-- R268. -/
def LEDGER_BLOCK_BIRTH_COUNT (b : Nat) : Nat := 0x0A01104 + b * 16
/-- R268. -/
def LEDGER_BLOCK_RETIRE_COUNT (b : Nat) : Nat := 0x0A01108 + b * 16
/-- R268. -/
def LEDGER_BLOCK_BIRTH_DROP_COUNT (b : Nat) : Nat := 0x0A0110C + b * 16
/-- R269. -/
def LEDGER_PRED_TARGET (q : Nat) : Nat := 0x0A02000 + q * 32
/-- R269. -/
def LEDGER_PRED_RECORD_LO (q : Nat) : Nat := 0x0A02004 + q * 32
/-- R269. -/
def LEDGER_PRED_RECORD_HI (q : Nat) : Nat := 0x0A02008 + q * 32
/-- R269. -/
def LEDGER_PRED_SUBMIT (q : Nat) : Nat := 0x0A0200C + q * 32
/-- R269. -/
def LEDGER_PRED_STATUS (q : Nat) : Nat := 0x0A02010 + q * 32
/-- R269. -/
def LEDGER_PRED_BAD_STATE_COUNT (q : Nat) : Nat := 0x0A02014 + q * 32
/-- R300. -/
def SND_STATUS : Nat := 0x0B00100
/-- R300. -/
def SND_BUSY_CLOCKS : Nat := 0x0B00104
/-- R300. -/
def SND_JOB_COUNT : Nat := 0x0B00108
/-- R300. -/
def SND_MAP_GEN : Nat := 0x0B0010C
/-- R300. -/
def SND_BLOCKS_LIVE : Nat := 0x0B00110
/-- R300. -/
def SND_ALLOC_DROP_COUNT : Nat := 0x0B00114
/-- R300. -/
def SND_EVICT_COUNT : Nat := 0x0B00118
/-- R300. -/
def SND_CORRUPT_COUNT : Nat := 0x0B0011C
/-- R300. -/
def SND_SKIP_JOB_COUNT : Nat := 0x0B00120
/-- R300. -/
def SND_LAST_JOB : Nat := 0x0B00124
/-- R300. -/
def SND_EVENT : Nat := 0x0B00128
/-- R300. -/
def SND_EXPORT_PRODUCER : Nat := 0x0B0012C
/-- R300. -/
def SND_EXPORT_CONSUMER : Nat := 0x0B00130
/-- R300. -/
def SND_EXPORT_DROP_COUNT : Nat := 0x0B00134
/-- R301. -/
def SND_POSE_TARGET : Nat := 0x0B00200
/-- R301. -/
def SND_POSE_RECORD_LO : Nat := 0x0B00204
/-- R301. -/
def SND_POSE_RECORD_HI : Nat := 0x0B00208
/-- R301. -/
def SND_POSE_SUBMIT : Nat := 0x0B0020C
/-- R301. -/
def SND_POSE_STATUS : Nat := 0x0B00210
/-- R301. -/
def SND_POSE_BAD_STATE_COUNT : Nat := 0x0B00214
/-- R302. -/
def EDGE_STATUS : Nat := 0x0B01000
/-- R302. -/
def EDGE_TRIPPED : Nat := 0x0B01004
/-- R302. -/
def EDGE_LAST_DROP : Nat := 0x0B01008
/-- R302. -/
def EDGE_LAST_UNKNOWN : Nat := 0x0B0100C
/-- R302. -/
def EDGE_TRIP_COUNT : Nat := 0x0B01010
/-- R302. -/
def EDGE_UNKNOWN_COUNT : Nat := 0x0B01014
/-- R302. -/
def EDGE_DISAGREE_COUNT : Nat := 0x0B01018
/-- R302. -/
def EDGE_LAST_TRIP_FRAME : Nat := 0x0B0101C
/-- R302. -/
def EDGE_LAST_TRIP_TIME_LO : Nat := 0x0B01020
/-- R302. -/
def EDGE_LAST_TRIP_TIME_HI : Nat := 0x0B01024
/-- R302. -/
def EDGE_RELEASE : Nat := 0x0B01028
/-- R302. -/
def EDGE_TEST : Nat := 0x0B0102C
/-- R302. -/
def EDGE_EVENT : Nat := 0x0B01030
/-- R323. -/
def ELV_STATUS (i : Nat) : Nat := 0x0C00200 + i * 64
/-- R323. -/
def ELV_BUSY_CLOCKS (i : Nat) : Nat := 0x0C00204 + i * 64
/-- R323. -/
def ELV_STALL_CLOCKS (i : Nat) : Nat := 0x0C00208 + i * 64
/-- R323. -/
def ELV_CMD_COUNT (i : Nat) : Nat := 0x0C0020C + i * 64
/-- R323. -/
def ELV_LAYER_COUNT (i : Nat) : Nat := 0x0C00210 + i * 64
/-- R323. -/
def ELV_TANDEM_COUNT (i : Nat) : Nat := 0x0C00214 + i * 64
/-- R323. -/
def ELV_TANDEM_OVERRUN_COUNT (i : Nat) : Nat := 0x0C00218 + i * 64
/-- R323. -/
def ELV_BAD_CMD_COUNT (i : Nat) : Nat := 0x0C0021C + i * 64
/-- R323. -/
def ELV_LAST_JOB (i : Nat) : Nat := 0x0C00220 + i * 64
/-- R323. -/
def ELV_LAST_BAD_CMD (i : Nat) : Nat := 0x0C00224 + i * 64
/-- R323. -/
def ELV_PROG_STATUS (i : Nat) : Nat := 0x0C00228 + i * 64
/-- R323. -/
def ELV_EVENT (i : Nat) : Nat := 0x0C0022C + i * 64
/-- R323. -/
def ELV_TILE_CE_COUNT (i : Nat) : Nat := 0x0C00230 + i * 64
/-- R367. -/
def LAYOUT_STATUS (i : Nat) : Nat := 0x0D00200 + i * 64
/-- R367. -/
def LAYOUT_BUSY_CLOCKS (i : Nat) : Nat := 0x0D00204 + i * 64
/-- R367. -/
def LAYOUT_STALL_CLOCKS (i : Nat) : Nat := 0x0D00208 + i * 64
/-- R367. -/
def LAYOUT_CMD_COUNT (i : Nat) : Nat := 0x0D0020C + i * 64
/-- R367. -/
def LAYOUT_OOB_COUNT (i : Nat) : Nat := 0x0D00210 + i * 64
/-- R367. -/
def LAYOUT_ALIAS_COUNT (i : Nat) : Nat := 0x0D00214 + i * 64
/-- R367. -/
def LAYOUT_MISALIGNED_COUNT (i : Nat) : Nat := 0x0D00218 + i * 64
/-- R367. -/
def LAYOUT_BAD_CMD_COUNT (i : Nat) : Nat := 0x0D0021C + i * 64
/-- R367. -/
def LAYOUT_LAST_JOB (i : Nat) : Nat := 0x0D00220 + i * 64
/-- R367. -/
def LAYOUT_LAST_BAD_CMD (i : Nat) : Nat := 0x0D00224 + i * 64
/-- R367. -/
def LAYOUT_EVENT (i : Nat) : Nat := 0x0D00228 + i * 64
/-- R368. -/
def LAYOUT_QUAY_ALIAS_COUNT (q : Nat) : Nat := 0x0D01000 + q * 16
/-- R368. -/
def LAYOUT_QUAY_ALIAS_LAST (q : Nat) : Nat := 0x0D01004 + q * 16
/-- R368. -/
def LAYOUT_QUAY_OOB_COUNT (q : Nat) : Nat := 0x0D01008 + q * 16
/-- R393. -/
def QUAY_SPAD_TAG_FIRST (q : Nat) : Nat := 0x0200400 + q * 64
/-- R393. -/
def QUAY_SPAD_TAG_COUNT (q : Nat) : Nat := 0x0200404 + q * 64
/-- R393. -/
def QUAY_SPAD_TAG_CMD (q : Nat) : Nat := 0x0200408 + q * 64
/-- R393. -/
def QUAY_SPAD_TAG_STATUS (q : Nat) : Nat := 0x020040C + q * 64
/-- R393. -/
def QUAY_SPAD_STATUS (q : Nat) : Nat := 0x0200410 + q * 64
/-- R393. -/
def QUAY_SPAD_SCRUB_COUNT (q : Nat) : Nat := 0x0200414 + q * 64
/-- R393. -/
def QUAY_SPAD_LATE_WRITE_COUNT (q : Nat) : Nat := 0x0200418 + q * 64
/-- R393. -/
def QUAY_SPAD_POISON_COUNT (q : Nat) : Nat := 0x020041C + q * 64
/-- R393. -/
def QUAY_SPAD_FENCED_COUNT (q : Nat) : Nat := 0x0200420 + q * 64
/-- R393. -/
def QUAY_SPAD_BAD_STATE_COUNT (q : Nat) : Nat := 0x0200424 + q * 64
/-- R393. -/
def QUAY_SPAD_HANDLE_SEL (q : Nat) : Nat := 0x0200428 + q * 64
/-- R393. -/
def QUAY_SPAD_HANDLE_INFO (q : Nat) : Nat := 0x020042C + q * 64
/-- R393. -/
def QUAY_SPAD_HANDLE_BASE (q : Nat) : Nat := 0x0200430 + q * 64
/-- R393. -/
def QUAY_SPAD_HANDLE_LEN (q : Nat) : Nat := 0x0200434 + q * 64
/-- R394. -/
def QUAY_BANK_GATE_REQ (w : Nat) : Nat := 0x0201000 + w * 4
/-- R394. -/
def QUAY_BANK_GATED (w : Nat) : Nat := 0x0201010 + w * 4
/-- R394. -/
def QUAY_BANK_MAPPED (w : Nat) : Nat := 0x0201020 + w * 4
/-- R394. -/
def QUAY_BANK_GIVEUP_COUNT : Nat := 0x0201030
/-- R394. -/
def QUAY_BANK_LATE_WRITE_COUNT : Nat := 0x0201034
/-- R395. -/
def DRL_STATUS : Nat := 0x0300100
/-- R395. -/
def DRL_PORT_MIN_SUM (p : Nat) : Nat := 0x0300200 + p * 8
/-- R395. -/
def DRL_PORT_CAPACITY (p : Nat) : Nat := 0x0300204 + p * 8
/-- R395. -/
def DRL_QP_SHARE (n : Nat) : Nat := 0x0300400 + n * 32
/-- R395. -/
def DRL_QP_SHARE_NEXT (n : Nat) : Nat := 0x0300404 + n * 32
/-- R395. -/
def DRL_QP_RD_LINES (n : Nat) : Nat := 0x0300408 + n * 32
/-- R395. -/
def DRL_QP_WR_LINES (n : Nat) : Nat := 0x030040C + n * 32
/-- R395. -/
def DRL_QP_RM_LINES (n : Nat) : Nat := 0x0300410 + n * 32
/-- R395. -/
def DRL_QP_THROTTLE_COUNT (n : Nat) : Nat := 0x0300414 + n * 32
/-- R395. -/
def DRL_QP_MERGE_COUNT (n : Nat) : Nat := 0x0300418 + n * 32
/-- R420. -/
def HBMC_SYSTEM_GROUPS : Nat := 0x1000100
/-- R420. -/
def HBMC_SRAM_CE_COUNT (m : Nat) : Nat := 0x1000104 + m * 8
/-- R420. -/
def HBMC_SRAM_UE_COUNT (m : Nat) : Nat := 0x1000108 + m * 8
/-- R420. -/
def HBMC_STATUS (s : Nat) : Nat := 0x1000200 + s * 64
/-- R420. -/
def HBMC_HULL_MODE (s : Nat) : Nat := 0x1000204 + s * 64
/-- R420. -/
def HBMC_CE_COUNT (s : Nat) : Nat := 0x1000208 + s * 64
/-- R420. -/
def HBMC_UE_COUNT (s : Nat) : Nat := 0x100020C + s * 64
/-- R420. -/
def HBMC_POISON_READ_COUNT (s : Nat) : Nat := 0x1000210 + s * 64
/-- R420. -/
def HBMC_PATROL_PASS_COUNT (s : Nat) : Nat := 0x1000214 + s * 64
/-- R420. -/
def HBMC_RETIRE_STATUS (s : Nat) : Nat := 0x1000218 + s * 64
/-- R420. -/
def HBMC_RETIRE_INDEX (s : Nat) : Nat := 0x100021C + s * 64
/-- R420. -/
def HBMC_RETIRE_ENTRY (s : Nat) : Nat := 0x1000220 + s * 64
/-- R420. -/
def HBMC_RETIRE_ADD (s : Nat) : Nat := 0x1000224 + s * 64
/-- R420. -/
def HBMC_LAST_UE_LO (s : Nat) : Nat := 0x1000228 + s * 64
/-- R420. -/
def HBMC_LAST_UE_HI (s : Nat) : Nat := 0x100022C + s * 64
/-- R420. -/
def HBMC_EVENT (s : Nat) : Nat := 0x1000230 + s * 64
/-- R420. -/
def HBMC_GROUP_RETIRED (s : Nat) : Nat := 0x1000234 + s * 64
/-- R421. -/
def XLT_EVENT : Nat := 0x0F00100
/-- R421. -/
def XLT_TABLE_WRITE_DROP_COUNT : Nat := 0x0F00104
/-- R421. -/
def XLT_QUAY_ROOT_LO (q : Nat) : Nat := 0x0F00200 + q * 32
/-- R421. -/
def XLT_QUAY_ROOT_HI (q : Nat) : Nat := 0x0F00204 + q * 32
/-- R421. -/
def XLT_QUAY_FAULT_RING_LO (q : Nat) : Nat := 0x0F00208 + q * 32
/-- R421. -/
def XLT_QUAY_FAULT_RING_HI (q : Nat) : Nat := 0x0F0020C + q * 32
/-- R421. -/
def XLT_QUAY_FAULT_PRODUCER (q : Nat) : Nat := 0x0F00210 + q * 32
/-- R421. -/
def XLT_QUAY_FAULT_CONSUMER (q : Nat) : Nat := 0x0F00214 + q * 32
/-- R421. -/
def XLT_QUAY_FAULT_COUNT (q : Nat) : Nat := 0x0F00218 + q * 32
/-- R421. -/
def XLT_QUAY_FAULT_DROP_COUNT (q : Nat) : Nat := 0x0F0021C + q * 32
/-- R421. -/
def XLT_PROBE_VA_LO : Nat := 0x0F00300
/-- R421. -/
def XLT_PROBE_VA_HI : Nat := 0x0F00304
/-- R421. -/
def XLT_PROBE_PA_LO : Nat := 0x0F00308
/-- R421. -/
def XLT_PROBE_PA_HI : Nat := 0x0F0030C
/-- R440. -/
def TENDER_BUSY : Nat := 0x0E00100
/-- R440. -/
def TENDER_HALTED : Nat := 0x0E00104
/-- R440. -/
def TENDER_HELD : Nat := 0x0E00108
/-- R440. -/
def TENDER_BAD_STATE_COUNT : Nat := 0x0E0010C
/-- R440. -/
def TENDER_TIMER_PERIOD (t : Nat) : Nat := 0x0E00200 + t * 8
/-- R440. -/
def TENDER_TIMER_CTRL (t : Nat) : Nat := 0x0E00204 + t * 8
/-- R441. -/
def TENDER_CH_SRC_LO (n : Nat) : Nat := 0x0E01000 + n * 128
/-- R441. -/
def TENDER_CH_SRC_HI (n : Nat) : Nat := 0x0E01004 + n * 128
/-- R441. -/
def TENDER_CH_DST_LO (n : Nat) : Nat := 0x0E01008 + n * 128
/-- R441. -/
def TENDER_CH_DST_HI (n : Nat) : Nat := 0x0E0100C + n * 128
/-- R441. -/
def TENDER_CH_COUNT (n : Nat) : Nat := 0x0E01010 + n * 128
/-- R441. -/
def TENDER_CH_BLOCK (n : Nat) : Nat := 0x0E01014 + n * 128
/-- R441. -/
def TENDER_CH_CTRL (n : Nat) : Nat := 0x0E01018 + n * 128
/-- R441. -/
def TENDER_CH_TRIG (n : Nat) : Nat := 0x0E0101C + n * 128
/-- R441. -/
def TENDER_CH_CMD (n : Nat) : Nat := 0x0E01020 + n * 128
/-- R441. -/
def TENDER_CH_STATUS (n : Nat) : Nat := 0x0E01024 + n * 128
/-- R441. -/
def TENDER_CH_CUR_SRC_LO (n : Nat) : Nat := 0x0E01028 + n * 128
/-- R441. -/
def TENDER_CH_CUR_SRC_HI (n : Nat) : Nat := 0x0E0102C + n * 128
/-- R441. -/
def TENDER_CH_CUR_DST_LO (n : Nat) : Nat := 0x0E01030 + n * 128
/-- R441. -/
def TENDER_CH_CUR_DST_HI (n : Nat) : Nat := 0x0E01034 + n * 128
/-- R441. -/
def TENDER_CH_REMAIN (n : Nat) : Nat := 0x0E01038 + n * 128
/-- R441. -/
def TENDER_CH_CHECK (n : Nat) : Nat := 0x0E0103C + n * 128
/-- R441. -/
def TENDER_CH_ERR_ADDR_LO (n : Nat) : Nat := 0x0E01040 + n * 128
/-- R441. -/
def TENDER_CH_ERR_ADDR_HI (n : Nat) : Nat := 0x0E01044 + n * 128
/-- R441. -/
def TENDER_CH_RETRY_COUNT (n : Nat) : Nat := 0x0E01048 + n * 128
/-- R441. -/
def TENDER_CH_TRIG_LOST_COUNT (n : Nat) : Nat := 0x0E0104C + n * 128
/-- R441. -/
def TENDER_CH_DONE_COUNT (n : Nat) : Nat := 0x0E01050 + n * 128
/-- R441. -/
def TENDER_CH_EVENT (n : Nat) : Nat := 0x0E01054 + n * 128
/-- R465. -/
def ONNAK_NODE_ID : Nat := 0x1100100
/-- R465. -/
def ONNAK_FLEET_ID : Nat := 0x1100104
/-- R465. -/
def ONNAK_VERSION : Nat := 0x1100108
/-- R465. -/
def ONNAK_CTRL : Nat := 0x110010C
/-- R465. -/
def ONNAK_PEER_TIMEOUT : Nat := 0x1100110
/-- R465. -/
def ONNAK_RTO : Nat := 0x1100114
/-- R465. -/
def ONNAK_MAC_LO : Nat := 0x1100118
/-- R465. -/
def ONNAK_MAC_HI : Nat := 0x110011C
/-- R465. -/
def ONNAK_HELLO_MAC_LO : Nat := 0x1100120
/-- R465. -/
def ONNAK_HELLO_MAC_HI : Nat := 0x1100124
/-- R465. -/
def ONNAK_TIME_PRIORITY : Nat := 0x1100128
/-- R465. -/
def ONNAK_EVENT : Nat := 0x110012C
/-- R466. -/
def ONNAK_PORT_CTRL (p : Nat) : Nat := 0x1100200 + p * 32
/-- R466. -/
def ONNAK_PORT_STATUS (p : Nat) : Nat := 0x1100204 + p * 32
/-- R466. -/
def ONNAK_PORT_ASYM (p : Nat) : Nat := 0x1100208 + p * 32
/-- R466. -/
def ONNAK_PORT_FEC_CORR_COUNT (p : Nat) : Nat := 0x110020C + p * 32
/-- R466. -/
def ONNAK_PORT_FCS_COUNT (p : Nat) : Nat := 0x1100210 + p * 32
/-- R466. -/
def ONNAK_PORT_OTHER_COUNT (p : Nat) : Nat := 0x1100214 + p * 32
/-- R466. -/
def ONNAK_PORT_RETX_COUNT (p : Nat) : Nat := 0x1100218 + p * 32
/-- R466. -/
def ONNAK_PORT_DOWN_COUNT (p : Nat) : Nat := 0x110021C + p * 32
/-- R467. -/
def ONNAK_PEER_STATE (n : Nat) : Nat := 0x1100400 + n * 64
/-- R467. -/
def ONNAK_PEER_ROUTE (n : Nat) : Nat := 0x1100404 + n * 64
/-- R467. -/
def ONNAK_PEER_PART (n : Nat) : Nat := 0x1100408 + n * 64
/-- R467. -/
def ONNAK_PEER_RTT (n : Nat) : Nat := 0x110040C + n * 64
/-- R467. -/
def ONNAK_PEER_LOST_COUNT (n : Nat) : Nat := 0x1100410 + n * 64
/-- R467. -/
def ONNAK_PEER_SESSION_DROP_COUNT (n : Nat) : Nat := 0x1100414 + n * 64
/-- R467. -/
def ONNAK_PEER_TIMEOUT_COUNT (n : Nat) : Nat := 0x1100418 + n * 64
/-- R467. -/
def ONNAK_PEER_LATE_ANSWER_COUNT (n : Nat) : Nat := 0x110041C + n * 64
/-- R467. -/
def ONNAK_PEER_SKEW_COUNT (n : Nat) : Nat := 0x1100420 + n * 64
/-- R467. -/
def ONNAK_PEER_SQUASHED_DROP_COUNT (n : Nat) : Nat := 0x1100424 + n * 64
/-- R467. -/
def ONNAK_PEER_BAD_FRAME_COUNT (n : Nat) : Nat := 0x1100428 + n * 64
/-- R468. -/
def ONNAK_BIND_STATE (m : Nat) : Nat := 0x1100800 + m * 16
/-- R468. -/
def ONNAK_BIND_OUTSTANDING (m : Nat) : Nat := 0x1100804 + m * 16
/-- R468. -/
def ONNAK_BIND_STALE_COUNT (m : Nat) : Nat := 0x1100808 + m * 16
/-- R469. -/
def ETH_MGMT_CTRL : Nat := 0x1101000
/-- R469. -/
def ETH_MGMT_STATUS : Nat := 0x1101004
/-- R469. -/
def ETH_MGMT_GCL_BASE_LO : Nat := 0x1101008
/-- R469. -/
def ETH_MGMT_GCL_BASE_HI : Nat := 0x110100C
/-- R469. -/
def ETH_MGMT_GCL_CYCLE : Nat := 0x1101010
/-- R469. -/
def ETH_MGMT_GCL_LEN : Nat := 0x1101014
/-- R469. -/
def ETH_MGMT_GCL_COMMIT : Nat := 0x1101018
/-- R469. -/
def ETH_MGMT_DROP_COUNT : Nat := 0x110101C
/-- R469. -/
def ETH_MGMT_GCL (k : Nat) : Nat := 0x1101100 + k * 4
/-- R496. -/
def CG_STATUS : Nat := 0x1200100
/-- R496. -/
def CG_CAUSE_ACTIVE : Nat := 0x1200104
/-- R496. -/
def CG_CAUSE_LATCHED : Nat := 0x1200108
/-- R496. -/
def CG_CAUSE_EVENT : Nat := 0x120010C
/-- R496. -/
def CG_RELEASE : Nat := 0x1200110
/-- R496. -/
def CG_RELEASE_STATUS : Nat := 0x1200114
/-- R496. -/
def CG_SW_REQUEST : Nat := 0x1200118
/-- R496. -/
def CG_Q0_GUARD : Nat := 0x120011C
/-- R496. -/
def CG_WDT_PERIOD : Nat := 0x1200120
/-- R496. -/
def CG_WDT_KICK : Nat := 0x1200124
/-- R496. -/
def CG_NOTICE_PERIOD : Nat := 0x1200128
/-- R496. -/
def CG_DECISION_COUNT : Nat := 0x120012C
/-- R496. -/
def CG_LAST_DECISION_TIME_LO : Nat := 0x1200130
/-- R496. -/
def CG_LAST_DECISION_TIME_HI : Nat := 0x1200134
/-- R496. -/
def CG_LAST_DECISION_FRAME : Nat := 0x1200138
/-- R496. -/
def CG_CHECK_MISMATCH_COUNT : Nat := 0x120013C
/-- R496. -/
def CG_AGE_SEL : Nat := 0x1200140
/-- R496. -/
def CG_AGE_STAGE : Nat := 0x1200144
/-- R496. -/
def CG_AGE_VALUE : Nat := 0x1200148
/-- R496. -/
def CG_AGE_FAULT_COUNT : Nat := 0x120014C
/-- R496. -/
def CG_MSG_CTRL : Nat := 0x1200150
/-- R496. -/
def CG_ETH_DST_LO : Nat := 0x1200154
/-- R496. -/
def CG_ETH_DST_HI : Nat := 0x1200158
/-- R496. -/
def CG_CAN_ID_NOTICE : Nat := 0x120015C
/-- R496. -/
def CG_CAN_ID_RESULT : Nat := 0x1200160
/-- R496. -/
def CG_MSG_DROP_COUNT : Nat := 0x1200164
/-- R496. -/
def CG_FWD (k : Nat) : Nat := 0x1200200 + k * 8
/-- R496. -/
def CG_FWD_OFFSET (k : Nat) : Nat := 0x1200204 + k * 8
/-- R497. -/
def CG_LH_STATE (j : Nat) : Nat := 0x1200400 + j * 16
/-- R497. -/
def CG_LH_FAIL_COUNT (j : Nat) : Nat := 0x1200404 + j * 16
/-- R497. -/
def CG_LH_UNLIT_COUNT (j : Nat) : Nat := 0x1200408 + j * 16
/-- R497. -/
def CG_LH_TRANSIENT_COUNT (j : Nat) : Nat := 0x120040C + j * 16
/-- R513. -/
def SALVAGE_STATUS : Nat := 0x1300100
/-- R513. -/
def SALVAGE_ESCALATION : Nat := 0x1300104
/-- R513. -/
def SALVAGE_ESCALATION_TIME_LO : Nat := 0x1300108
/-- R513. -/
def SALVAGE_ESCALATION_TIME_HI : Nat := 0x130010C
/-- R513. -/
def SALVAGE_ESCALATION_COUNT : Nat := 0x1300110
/-- R514. -/
def SALVAGE_QUAY_CTRL (q : Nat) : Nat := 0x1300200 + q * 64
/-- R514. -/
def SALVAGE_QUAY_CMD (q : Nat) : Nat := 0x1300204 + q * 64
/-- R514. -/
def SALVAGE_QUAY_STATUS (q : Nat) : Nat := 0x1300208 + q * 64
/-- R514. -/
def SALVAGE_QUAY_DUMP_LO (q : Nat) : Nat := 0x130020C + q * 64
/-- R514. -/
def SALVAGE_QUAY_DUMP_HI (q : Nat) : Nat := 0x1300210 + q * 64
/-- R514. -/
def SALVAGE_QUAY_DUMP_SIZE (q : Nat) : Nat := 0x1300214 + q * 64
/-- R514. -/
def SALVAGE_QUAY_DUMP_STATUS (q : Nat) : Nat := 0x1300218 + q * 64
/-- R514. -/
def SALVAGE_QUAY_DUMP_RELEASE (q : Nat) : Nat := 0x130021C + q * 64
/-- R514. -/
def SALVAGE_QUAY_HANG_COUNT (q : Nat) : Nat := 0x1300220 + q * 64
/-- R514. -/
def SALVAGE_QUAY_RECOVER_COUNT (q : Nat) : Nat := 0x1300224 + q * 64
/-- R514. -/
def SALVAGE_QUAY_REPLAY_COUNT (q : Nat) : Nat := 0x1300228 + q * 64
/-- R514. -/
def SALVAGE_QUAY_CULPRIT (q : Nat) : Nat := 0x130022C + q * 64
/-- R514. -/
def SALVAGE_QUAY_RESET_TIME (q : Nat) : Nat := 0x1300230 + q * 64
/-- R514. -/
def SALVAGE_QUAY_LATE_DROP_COUNT (q : Nat) : Nat := 0x1300234 + q * 64
/-- R514. -/
def SALVAGE_QUAY_BAD_STATE_COUNT (q : Nat) : Nat := 0x1300238 + q * 64
/-- R514. -/
def SALVAGE_QUAY_EVENT (q : Nat) : Nat := 0x130023C + q * 64
/-- R537. -/
def TOP_PART : Nat := 0x0000100
/-- R537. -/
def TOP_VERSIONS : Nat := 0x0000104
/-- R537. -/
def TOP_STRAPS : Nat := 0x0000108
/-- R537. -/
def TOP_CORE_RELEASE : Nat := 0x000010C
/-- R537. -/
def TOP_RESET_CTRL : Nat := 0x0000110
/-- R537. -/
def TOP_MSI_PENDING (w : Nat) : Nat := 0x0001100 + w * 4
/-- R537. -/
def TOP_MSI (v : Nat) : Nat := 0x0002000 + v * 4
/-- R538. -/
def HM_CMDRING_BASE_LO (q : Nat) : Nat := 0x0100800 + q * 128
/-- R538. -/
def HM_CMDRING_BASE_HI (q : Nat) : Nat := 0x0100804 + q * 128
/-- R538. -/
def HM_CMDRING_PRODUCER (q : Nat) : Nat := 0x0100808 + q * 128
/-- R538. -/
def HM_CMDRING_CONSUMER (q : Nat) : Nat := 0x010080C + q * 128
/-- R538. -/
def HM_CMDRING_STATUS (q : Nat) : Nat := 0x0100810 + q * 128
/-- R538. -/
def HM_CMDRING_BAD_STATE_COUNT (q : Nat) : Nat := 0x0100814 + q * 128
/-- R538, completion ring n = 4q + c. -/
def HM_CRING_BASE_LO (n : Nat) : Nat := 0x0100820 + (n / 4) * 0x80 + (n % 4) * 0x18
/-- R538, completion ring n = 4q + c. -/
def HM_CRING_BASE_HI (n : Nat) : Nat := 0x0100824 + (n / 4) * 0x80 + (n % 4) * 0x18
/-- R538, completion ring n = 4q + c. -/
def HM_CRING_PRODUCER (n : Nat) : Nat := 0x0100828 + (n / 4) * 0x80 + (n % 4) * 0x18
/-- R538, completion ring n = 4q + c. -/
def HM_CRING_CONSUMER (n : Nat) : Nat := 0x010082C + (n / 4) * 0x80 + (n % 4) * 0x18
/-- R538, completion ring n = 4q + c. -/
def HM_CRING_FILTER (n : Nat) : Nat := 0x0100830 + (n / 4) * 0x80 + (n % 4) * 0x18
/-- R538, completion ring n = 4q + c. -/
def HM_CRING_DROP_COUNT (n : Nat) : Nat := 0x0100834 + (n / 4) * 0x80 + (n % 4) * 0x18
/-- R539. -/
def ETH_MGMT_TX_BASE_LO : Nat := 0x1101200
/-- R539. -/
def ETH_MGMT_TX_BASE_HI : Nat := 0x1101204
/-- R539. -/
def ETH_MGMT_TX_PRODUCER : Nat := 0x1101208
/-- R539. -/
def ETH_MGMT_TX_CONSUMER : Nat := 0x110120C
/-- R539. -/
def ETH_MGMT_RX_BASE_LO : Nat := 0x1101210
/-- R539. -/
def ETH_MGMT_RX_BASE_HI : Nat := 0x1101214
/-- R539. -/
def ETH_MGMT_RX_PRODUCER : Nat := 0x1101218
/-- R539. -/
def ETH_MGMT_RX_CONSUMER : Nat := 0x110121C
/-- R539. -/
def ETH_MGMT_RX_BUF_SIZE : Nat := 0x1101220
/-- R539. -/
def ETH_MGMT_RX_DROP_COUNT : Nat := 0x1101224
/-- R540. -/
def CUSTOMS_BOOT_STATUS : Nat := 0x1500100
/-- R540. -/
def CUSTOMS_FUSE_STATE : Nat := 0x1500104
/-- R540. -/
def CUSTOMS_IMAGE_VERSION : Nat := 0x1500108
/-- R540. -/
def CUSTOMS_SLOT_VALID : Nat := 0x150010C
/-- R540. -/
def CUSTOMS_MB_CMD : Nat := 0x1500110
/-- R540. -/
def CUSTOMS_MB_STATUS : Nat := 0x1500114
/-- R540. -/
def CUSTOMS_MB_ADDR_LO : Nat := 0x1500118
/-- R540. -/
def CUSTOMS_MB_ADDR_HI : Nat := 0x150011C
/-- R540. -/
def CUSTOMS_MB_LEN : Nat := 0x1500120
/-- R540. -/
def CUSTOMS_MB_ARG : Nat := 0x1500124
/-- R540. -/
def CUSTOMS_MB_OUT_LO : Nat := 0x1500128
/-- R540. -/
def CUSTOMS_MB_OUT_HI : Nat := 0x150012C
/-- R540. -/
def CUSTOMS_ID_PUB (i : Nat) : Nat := 0x1500140 + i * 4
/-- R540. -/
def CUSTOMS_DEBUG_NONCE (i : Nat) : Nat := 0x1500160 + i * 4
/-- R540. -/
def CUSTOMS_DEBUG_STATUS : Nat := 0x1500180
/-- R552. -/
def PMC_STATUS : Nat := 0x1400100
/-- R552. -/
def PMC_EPOCH : Nat := 0x1400104
/-- R552. -/
def PMC_ENVELOPE : Nat := 0x1400108
/-- R552. -/
def PMC_THROTTLE_TEMP : Nat := 0x140010C
/-- R552. -/
def PMC_FLOOR_MHZ : Nat := 0x1400110
/-- R552. -/
def PMC_CORE_MHZ (d : Nat) : Nat := 0x1400114 + d * 4
/-- R552. -/
def PMC_APU_MHZ (c : Nat) : Nat := 0x140011C + c * 4
/-- R552. -/
def PMC_APU_REQ (c : Nat) : Nat := 0x1400124 + c * 4
/-- R552. -/
def PMC_POWER_MW : Nat := 0x140012C
/-- R552. -/
def PMC_OVER_ENVELOPE_COUNT : Nat := 0x1400130
/-- R552. -/
def PMC_EMERGENCY_COUNT : Nat := 0x1400134
/-- R552. -/
def PMC_SERVICE_ACTIVE : Nat := 0x1400138
/-- R552. -/
def PMC_SERVICE_LATCHED : Nat := 0x140013C
/-- R552. -/
def PMC_SERVICE_LAST : Nat := 0x1400140
/-- R552. -/
def PMC_EVENT : Nat := 0x1400144
/-- R552. -/
def PMC_TEMP (k : Nat) : Nat := 0x1400200 + k * 4
/-- R552. -/
def PMC_RAIL_MA (r : Nat) : Nat := 0x1400300 + r * 4
end Reg

end Sys2Proof.Machine
end

