-- ==== Sys2Proof/Machine/Types.lean ====
section
/-! DEFINITION. The types the whole machine shares: who may send a command, what leaves the device, the status codes
of R22, the typed form of a chart (R52-R59), and the quay, frame and stage records of the Harbourmaster. -/
namespace Sys2Proof.Machine

/-- Who sends an access or a command: the readers and blocks the spec names as initiators. -/
inductive Initiator where
  /-- Firmware on an application core. -/
  | app
  /-- Coastguard software. -/
  | cg
  /-- The Management Controller. -/
  | mc
  /-- The Harbourmaster. -/
  | hm
  /-- The Salvage unit. -/
  | salvage
  /-- A Tender channel. -/
  | tender
  /-- The PCIe root port, inbound. -/
  | pcie
  /-- The debug unit behind the TAP. -/
  | debug
  deriving DecidableEq, Repr

/-- The status codes of R22, by name. -/
def St.OK : Status := 0x00#8
def St.BAD_STATE : Status := 0x01#8
def St.CLAMPED : Status := 0x02#8
def St.REFUSED : Status := 0x03#8
def St.AUTH : Status := 0x04#8
def St.VERSION : Status := 0x05#8
def St.NO_ROOM : Status := 0x06#8
def St.OOB : Status := 0x07#8
def St.POISON : Status := 0x08#8
def St.TIMEOUT : Status := 0x09#8
def St.STALE_TIDE : Status := 0x0A#8
def St.HANG : Status := 0x0B#8
def St.FAULT : Status := 0x0C#8
def St.FENCED : Status := 0x0D#8
def St.BUSY : Status := 0x0E#8
def St.SQUASHED : Status := 0x0F#8
/-- The Harbourmaster's block-specific code of a command aborted by RESET (R78). -/
def St.ABORTED : Status := 0x80#8

/-- Engine class codes (R57). -/
def Cls.CAMRX : Nat := 1
def Cls.CAMP : Nat := 2
def Cls.PYR : Nat := 3
def Cls.WARP : Nat := 4
def Cls.STEREO : Nat := 5
def Cls.FLOW : Nat := 6
def Cls.FEAT : Nat := 7
def Cls.LEDGER : Nat := 8
def Cls.SND : Nat := 9
def Cls.EDGE : Nat := 10
def Cls.ELV : Nat := 11
def Cls.LAYOUT : Nat := 12
def Cls.TENDER : Nat := 13
def Cls.I3C : Nat := 14
def Cls.FSYNC : Nat := 15

/-- How many instances class `c` has (R57). -/
def clsCount (c : Nat) : Nat :=
  match c with
  | 1 => 8 | 2 => 4 | 3 => 2 | 4 => 2 | 5 => 2 | 6 => 2 | 7 => 2 | 8 => 16 | 9 => 1 | 10 => 1
  | 11 => 12 | 12 => 2 | 13 => 32 | 14 => 4 | 15 => 8 | _ => 0

/-- A region's outcome at the Edge Guard for a frame (R291, R292). -/
inductive Outc where
  | clear | drop | unknown
  deriving DecidableEq, Repr

/-- Something that leaves the device or reaches an application core: the outputs of one command, oldest first. -/
inductive Emission where
  /-- An MSI of vector v to a hart's interrupt file (R518, R519). -/
  | msi (v : Nat) (target : Nat)
  /-- A frame on fleet port p (R444). -/
  | onnak (p : Nat) (frame : List Byte)
  /-- A frame on ETH_MGMT. -/
  | eth (frame : List Byte)
  /-- A CAN FD message on controller c with its identifier word. -/
  | can (c : Nat) (ident : Word) (data : List Byte)
  /-- An FSYNC output at a level. -/
  | fsync (i : Nat) (level : Bool)
  /-- A camera-control transfer on I3C controller i. -/
  | i3c (i : Nat) (bytes : List Byte)
  /-- An SPI sample read on port s. -/
  | spi (port : Nat) (cmd : List Byte)
  /-- A pin change: EDGE_N, SAFE_N, SERVICE_REQ_N, WARM_RST_OUT and the like. -/
  | pin (name : String) (level : Bool)
  /-- A recovery-path or serial message of the boot ROM (R528). -/
  | uart (bytes : List Byte)
  /-- An outbound PCIe write (R396). -/
  | pcie (a : Nat) (data : List Byte)
  /-- A PMBus command to a regulator (R560). -/
  | pmbus (regulator : Nat) (bytes : List Byte)
  /-- A signal from the Harbourmaster or an engine to Coastguard or the Salvage unit. -/
  | signal (name : String) (q : Nat)
  /-- A Lighthouse, replay or layer event inside the device that a unit observes. -/
  | note (name : String) (a b : Nat)
  deriving DecidableEq, Repr

/-- The outcome of the last bus access or request: its status and the data it returned. -/
structure Reply where
  status : Status
  data : Nat
  bytes : List Byte
  poison : Bool
  deriving DecidableEq, Repr

/-! The typed chart: the values applied after range checks (R58-R64). -/

/-- QUAY section (R58). -/
structure QuayCfg where
  piloted : Bool
  fif : Nat
  bollard : Bool
  periodUs : Nat
  phaseUs : Nat
  floorMhz : Nat
  pch : Nat
  berthFirst : Nat
  berthCount : Nat
  voyages : Nat
  handles : Nat
  publishPeriod : Nat
  publishOffsetUs : Nat
  noProgressUs : Nat
  deriving DecidableEq, Repr

/-- ENGINES entry. -/
structure EngineE where
  cls : Nat
  inst : Nat
  pilotable : Bool
  safety : Bool
  param : Nat
  deriving DecidableEq, Repr

/-- BERTHS entry. -/
structure BerthE where
  group : Nat
  first : Nat
  count : Nat
  tensorLayout : Bool
  fleet : Bool
  deriving DecidableEq, Repr

/-- HANDLES entry. -/
structure HandleE where
  handle : Nat
  kind : Nat
  access : Nat
  base : Nat
  length : Nat
  deriving DecidableEq, Repr

/-- STAGES entry. -/
structure StageE where
  stage : Nat
  engine : Nat
  fuseNext : Nat
  ins : List Nat
  outs : List Nat
  bound : Nat
  period : Nat
  ahead : Bool
  result : Bool
  crc : Bool
  window : Nat
  deriving DecidableEq, Repr

/-- WINDOWS entry. -/
structure WindowE where
  window : Nat
  period : Nat
  lighthouse : Bool
  openUs : Nat
  closeUs : Nat
  deriving DecidableEq, Repr

/-- SHARES entry. -/
structure ShareE where
  port : Nat
  rdMin : Nat
  rdMax : Nat
  wrMin : Nat
  wrMax : Nat
  rmMin : Nat
  rmMax : Nat
  streams : Nat
  requests : Nat
  deriving DecidableEq, Repr

/-- LIGHTHOUSE entry. -/
structure LightE where
  engine : Nat
  window : Nat
  input : Nat
  reference : Nat
  bound : Nat
  deriving DecidableEq, Repr

/-- AGES entry. -/
structure AgeE where
  stage : Nat
  maxAgeUs : Nat
  deriving DecidableEq, Repr

/-- FLEET entry. -/
structure FleetE where
  node : Nat
  minVersion : Nat
  remoteQuay : Nat
  timeoutUs : Nat
  deriving DecidableEq, Repr

/-- PILOT section. -/
structure PilotE where
  elvMask : Nat
  maxMoves : Nat
  hbmActBytes : Nat
  deriving DecidableEq, Repr

/-- An entry of CAMERAS, VISION, TENSOR or EDGE: its ENGINES index, parameter version and applied bytes, head
included (R59). -/
structure ParamE where
  sec : Nat
  engine : Nat
  version : Nat
  bytes : List Byte
  deriving DecidableEq, Repr

/-- A loaded chart. -/
structure Chart where
  major : Nat
  minor : Nat
  chartId : Nat
  signed : Bool
  clamped : Bool
  cfg : QuayCfg
  engines : List EngineE
  berths : List BerthE
  handles : List HandleE
  stages : List StageE
  windows : List WindowE
  shares : List ShareE
  lights : List LightE
  ages : List AgeE
  fleet : List FleetE
  pilot : Option PilotE
  params : List ParamE
  deriving DecidableEq, Repr

/-- One entry of a load or START report (R69). -/
structure RepEntry where
  sec : Nat
  reason : Nat
  field : Nat
  requested : Nat
  applied : Nat
  deriving DecidableEq, Repr

/-! The Harbourmaster's records. -/

/-- The states of a quay (R70), with the codes of HM_QUAY_STATUS. -/
inductive QState where
  | empty | loaded | running | docking | docked | faulted | resetting
  deriving DecidableEq, Repr

/-- HM_QUAY_STATUS.state codes (R91). -/
def QState.code : QState → Nat
  | .empty => 0 | .loaded => 1 | .running => 2 | .docking => 3 | .docked => 4 | .faulted => 5 | .resetting => 6

/-- The quay commands (R91), with their opcodes. -/
inductive QCmd where
  | load | start | dock | undock | unload | reset
  deriving DecidableEq, Repr

/-- HM_QUAY_CMD opcodes (R91). -/
def QCmd.code : QCmd → Nat
  | .load => 1 | .start => 2 | .dock => 3 | .undock => 4 | .unload => 5 | .reset => 6

/-- A neural request accepted from a command ring (R521-R523). -/
structure Request where
  tag : Nat
  tide : Tide
  /-- Stage id. -/
  stage : Nat
  /-- Voyage taken at dispatch. -/
  voyage : Option Nat
  frame : FrameNo
  dispatchedAt : Nat
  deriving DecidableEq, Repr

/-- One stage of one frame. `idx` is its STAGES entry index; `status` is set when it has completed (R104, R105). -/
structure StageRun where
  idx : Nat
  /-- Its window (or its chain's window) has opened and it has been dispatched (R93, R94). -/
  dispatched : Bool
  /-- It waits behind an older unpublished frame, or an SND stage for confirmation (R104, R109). -/
  held : Bool
  /-- Its window has closed. -/
  closed : Bool
  status : Option Status
  /-- Statuses its requests and writes have gathered so far (R24). -/
  gathered : List Status
  /-- Ready bitmap: the berths whose signals have arrived, in order of arrival (R98). -/
  ready : List Nat
  /-- When it was dispatched or released (harbour time). -/
  startedAt : Nat
  /-- The request it runs for (R321). -/
  request : Option Request
  /-- Its work is done and it waits for the answers to its remote writes (R456). -/
  draining : Bool
  /-- Its remote berths have been signalled (R457). -/
  signalled : Bool
  deriving DecidableEq, Repr

/-- A result that waits to be published: its stage, status and payload (R88, R90). -/
structure Result where
  idx : Nat
  status : Status
  tensor : Nat
  length : Nat
  crc : Option Nat
  request : Option Request
  /-- A poisoned line lies in the payload (R89). -/
  poison : Bool
  /-- Its stage was stopped at its window's close (R104). -/
  late : Bool
  deriving DecidableEq, Repr

/-- A camera stream's progress towards the confirmation of a frame (R107). -/
structure StreamRun where
  ctx : Nat
  ended : Bool
  invalid : Bool
  /-- Mid-exposure harbour time, once ingress computed it (R131). -/
  mid : Option Nat
  deriving DecidableEq, Repr

/-- A frame in flight (R45, R99, R107-R112). -/
structure FrameRec where
  num : FrameNo
  /-- Slot index k (R99). -/
  k : Nat
  /-- Harbour time of its tick. -/
  tick : Nat
  confirmed : Bool
  squashed : Bool
  /-- Squashed by DOCK: no descriptor is published (R108). -/
  byDock : Bool
  /-- The squash of this frame has completed (R111). -/
  squashDone : Bool
  committed : Bool
  stages : List StageRun
  streams : List StreamRun
  /-- Results completed and not yet published. -/
  results : List Result
  /-- Windows that have opened. -/
  opened : List Nat
  /-- It is the first frame of its RUNNING period (R239, R482). -/
  first : Bool
  /-- Its predecessor is not usable: it is the first frame, or the frame before was squashed (R239). -/
  noPrev : Bool
  /-- A stream was frozen or repeated (R89, R107). -/
  stale : Bool
  deriving DecidableEq, Repr

/-- Which stage of a quay reset has been reached (R506). -/
inductive ResetPhase where
  | fencing | drained | escalated
  deriving DecidableEq, Repr

/-- A handle-table entry (R378). -/
structure HandleT where
  handle : Nat
  kind : Nat
  access : Nat
  /-- Absolute first berth, virtual address or LEDGER block. -/
  base : Nat
  /-- Berths or 4 KiB units. -/
  length : Nat
  rotated : Bool
  fenced : Bool
  deriving DecidableEq, Repr

/-- What a LOAD in progress has decided (R66, R77). -/
structure LoadVerdict where
  status : Status
  entries : List RepEntry
  chart : Option Chart
  groups : List Nat
  newTide : Tide
  /-- Device addresses of the 2 MiB frames given to its HBM handles, in order (R412). -/
  frames : List Nat
  /-- When it completes at the latest (R77). -/
  doneAt : Nat
  deriving DecidableEq, Repr

/-- What a START in progress has decided (R74). -/
structure StartVerdict where
  status : Status
  entries : List RepEntry
  acceptedAt : Nat
  /-- It waits for a clock raise (R74). -/
  waitClock : Bool
  deriving DecidableEq, Repr

/-- One quay's Harbourmaster state. -/
structure Quay where
  st : QState
  /-- The command in progress (R78). -/
  busy : Option QCmd
  lastOp : Nat
  lastStatus : Status
  tide : Tide
  /-- Latest retirement harbour time of each tide value (R72). -/
  retired : List (Nat × Nat)
  chart : Option Chart
  handles : List HandleT
  /-- Pseudo-channel groups held, in the order R48 assigned them. -/
  groups : List Nat
  /-- 2 MiB HBM frames held (R412). -/
  hbmFrames : List Nat
  load : Option LoadVerdict
  start : Option StartVerdict
  /-- Frames in flight, oldest first. -/
  frames : List FrameRec
  /-- Harbour time before which no frame opens (R75, R76). -/
  openFrom : Nat
  /-- Number of the next frame to open. -/
  nextFrame : FrameNo
  /-- Slot index of the next frame to open (R99). -/
  nextK : Nat
  /-- Last frame published since START, with its k (R76, R99). -/
  lastPub : Option (FrameNo × Nat)
  /-- The slot index k each recently opened frame number took: R99's reuse rule. -/
  kOf : List (Nat × Nat)
  /-- Slot generations, 4 bits each (R112). -/
  gens : List Nat
  /-- Harbour time DOCK was accepted (R71). -/
  dockedAt : Nat
  /-- Harbour time RESETTING was entered, and the reset's phase (R506). -/
  resetAt : Nat
  phase : ResetPhase
  /-- A squash is in progress (R121). -/
  squashing : Bool
  /-- The next frame to open is the first since START or UNDOCK; the frame before it was squashed (R239). -/
  firstNext : Bool
  prevSquashed : Bool
  /-- Publish count since LOAD (R88). -/
  sequence : Nat
  /-- The command that led to RESETTING was UNLOAD (false: RESET). -/
  viaUnload : Bool
  /-- Requests accepted from the command ring and not yet complete, in ring order (R321, R522). -/
  requests : List Request
  /-- Completion records since LOAD (R523). -/
  records : Nat
  deriving DecidableEq, Repr

/-- A quay right after cold reset (R70, R72). -/
def Quay.reset : Quay where
  st := .empty
  busy := none
  lastOp := 0
  lastStatus := 0#8
  tide := 0#8
  retired := []
  chart := none
  handles := []
  groups := []
  hbmFrames := []
  load := none
  start := none
  frames := []
  openFrom := 0
  nextFrame := 0#32
  nextK := 0
  lastPub := none
  kOf := []
  gens := [0, 0, 0]
  dockedAt := 0
  resetAt := 0
  phase := .fencing
  squashing := false
  firstNext := false
  prevSquashed := false
  sequence := 0
  viaUnload := false
  requests := []
  records := 0

/-- An entry of the device fault FIFO (R106, R121). -/
structure FaultEntry where
  stage : Nat
  status : Status
  quay : Nat
  frame : FrameNo
  deriving DecidableEq, Repr

end Sys2Proof.Machine
end

