-- ==== Sys2Proof/Machine/TypesMem.lean ====
section
/-! DEFINITION. The records of the memory system: stores and their poison marks, berth waits, the Derailleur's buckets
and write combiners, translation walks and probes, HBM retirement and bank gating (chapters "Scratchpad, Berths and
Streaming" and "Memory System, Hull Code and Translation"). -/
namespace Sys2Proof.Machine

/-- The address map of R396, as bases. -/
def Addr.hbm0 : Nat := 0x000000000000
def Addr.spad : Nat := 0x001000000000
def Addr.ledger : Nat := 0x001010000000
def Addr.hbm1 : Nat := 0x001100000000
def Addr.pcie : Nat := 0x003000000000
def Addr.control : Nat := 0x004000000000
def Addr.onnak : Nat := 0x008000000000

/-- An engine's request as it travels: the quay, tide, handle, frame slot and frame tag it carries (R118, R371). -/
structure ReqTag where
  quay : Nat
  tide : Tide
  handle : Nat
  /-- STAGES entry index of the issuing stage. -/
  stage : Nat
  frame : FrameNo
  slot : Nat
  gen : Nat
  deriving DecidableEq, Repr

/-- A berth read waiting at the bank's tag check (R372). -/
structure HeldRead where
  tag : ReqTag
  /-- Frame whose tag the read carries, and its byte offset in the berth. -/
  carries : FrameNo
  berth : Nat
  off : Nat
  since : Nat
  deriving DecidableEq, Repr

/-- What a request does once admitted. -/
inductive ReqKind where
  | read | write
  deriving DecidableEq, Repr

/-- A request to HBM or a remote window: virtual address, kind, line data for a write with its byte enables (R350), the
descriptor's address and the indices reached, for a fault record (R417). -/
structure MemReq where
  tag : ReqTag
  va : Nat
  kind : ReqKind
  stream : Nat
  data : List Byte
  enables : Nat
  poison : Bool
  descAddr : Nat
  indices : List Nat
  /-- Bytes from `va` of the run that a remote read asks for (R355, R456). -/
  run : Nat
  deriving DecidableEq, Repr

/-- A berth access of an engine (R372, R373). -/
structure BerthReq where
  tag : ReqTag
  /-- Frame whose tag the access carries: the frame before the stage's for a previous-frame input (R100, R371). -/
  carries : FrameNo
  berth : Nat
  /-- Byte offset within the berth, a multiple of 64. -/
  off : Nat
  kind : ReqKind
  data : List Byte
  enables : Nat
  poison : Bool
  stream : Nat
  deriving DecidableEq, Repr

/-- A write burst collecting in a port's combiner (R387): its writes, oldest first, and when the first came. -/
structure Burst where
  port : Nat
  writes : List BerthReq
  since : Nat
  deriving DecidableEq, Repr

/-- A request waiting for the next Derailleur window (R382). -/
inductive DrlWait where
  | mem (r : MemReq)
  | berth (r : BerthReq)
  /-- A peer's request, received on a port, that a target quay's rm class has no lines for (R460): header and payload. -/
  | fleet (peer port : Nat) (frame : List Byte)
  deriving DecidableEq, Repr

/-- A request admitted and awaiting its reply, with its device address (R112, R401). -/
structure Outstanding where
  req : MemReq
  pa : Nat
  since : Nat
  deriving DecidableEq, Repr

/-- A cached leaf translation (R414). -/
structure TlbEntry where
  quay : Nat
  tide : Tide
  va : Nat
  size : Nat
  entry : Nat
  deriving DecidableEq, Repr

/-- A probe in progress (R419). -/
structure Probe where
  quay : Nat
  va : Nat
  write : Bool
  deriving DecidableEq, Repr

/-- A page on a controller's retired list (R409). -/
structure RetiredPage where
  page : Nat
  byUE : Bool
  deriving DecidableEq, Repr

/-- A berth signal on its way to the consumers of its handle (R97). -/
structure BerthSig where
  quay : Nat
  tide : Tide
  handle : Nat
  berth : Nat
  slot : Nat
  frame : FrameNo
  deriving DecidableEq, Repr

/-- A line of a remote window delivered to the stage that asked for it (R455, R456). -/
structure RemoteLine where
  tag : ReqTag
  /-- Device address of the line. -/
  pa : Nat
  data : List Byte
  poison : Bool
  deriving DecidableEq, Repr

/-- What the memory system holds beyond its registers. -/
structure MemState where
  /-- HBM and scratchpad bytes by device address; an unlisted byte reads zero. -/
  bytes : Tab Byte
  /-- Poison marks by device line number (R376, R405). -/
  poison : Tab Bool
  /-- Runs of line numbers [a, b) that carry the poison mark, beyond `poison`: outputs poisoned whole (R105). -/
  spans : List (Nat × Nat)
  /-- Lines written since their berth was last emptied or reopened, and lines of HBM outputs written by the stage that is
  running (R377). -/
  fresh : Tab Bool
  /-- Berth signals on their way (R97). -/
  signals : List BerthSig
  /-- Remote lines delivered to stages still running. -/
  delivered : List RemoteLine
  /-- Tile-store bytes by instance x 2 MiB + offset (R303). -/
  tile : Tab Byte
  /-- Tile-store poison marks by line. -/
  tilePoison : Tab Bool
  /-- Berth tags (R371). -/
  tags : Tab Word
  /-- Berths whose scrub is not yet complete (R388). -/
  scrubbing : List Nat
  heldReads : List HeldRead
  bursts : List Burst
  /-- Lines left in each bucket this window: key n * 8 + class * 2 + direction (R381, R382). -/
  buckets : Tab Nat
  drlWait : List DrlWait
  /-- Requests waiting for a page walk (R414). -/
  walks : List MemReq
  /-- Requests issued and not yet answered. -/
  outstanding : List Outstanding
  tlb : List TlbEntry
  probe : Option Probe
  /-- Retired pages of each stack (R409). -/
  retired : List (List RetiredPage)
  /-- Lines corrected in the previous and the present patrol pass, per stack (R409). -/
  patrolPrev : List (List Nat)
  patrolNow : List (List Nat)
  /-- Next line each pseudo-channel's patrol reads (R408). -/
  patrolAt : Tab Nat
  /-- Lines in which each pin was in error this patrol pass: (group, pin, line) (R410). -/
  pinErrs : List (Nat × Nat × Nat)
  /-- Next word each SRAM bank's patrol reads (R408). -/
  sramPatrolAt : Tab Nat
  /-- Banks gated (R390). -/
  gated : List Nat
  /-- Gate requests: bank and harbour time (R390). -/
  gateReqs : List (Nat × Nat)
  /-- Banks powering up and scrubbing (R392). -/
  waking : List Nat
  /-- Groups of each stack retired (R410): group numbers. -/
  groupsRetired : List Nat
  deriving DecidableEq, Repr

/-- The memory system right after reset: nothing listed. -/
def MemState.reset : MemState where
  bytes := []
  poison := []
  spans := []
  fresh := []
  signals := []
  delivered := []
  tile := []
  tilePoison := []
  tags := []
  scrubbing := []
  heldReads := []
  bursts := []
  buckets := []
  drlWait := []
  walks := []
  outstanding := []
  tlb := []
  probe := none
  retired := [[], []]
  patrolPrev := [[], []]
  patrolNow := [[], []]
  patrolAt := []
  pinErrs := []
  sramPatrolAt := []
  gated := []
  gateReqs := []
  waking := []
  groupsRetired := []

/-- What an unlisted memory byte reads as. -/
def byte0 : Nat → Byte := fun _ => 0#8
/-- An unlisted line carries no poison mark. -/
def mark0 : Nat → Bool := fun _ => false
/-- An unlisted counter is zero. -/
def nat0 : Nat → Nat := fun _ => 0
/-- An unlisted berth tag is zero: EMPTY, not owned (R570). -/
def tag0 : Nat → Word := fun _ => 0#32

end Sys2Proof.Machine
end

