-- ==== Sys2Proof/Machine/TypesCam.lean ====
section
/-! DEFINITION. The records of camera ingress and sensor control (R123-R152): stream frames, contexts, exposure tickets, I3C
controllers, FSYNC outputs and SPI stamp ports. -/
namespace Sys2Proof.Machine

/-- Ingress flag bits (R134). -/
def Ing.ECC_CORRECTED : Nat := 0
def Ing.HDR_LOST : Nat := 1
def Ing.CRC : Nat := 2
def Ing.MALFORMED : Nat := 3
def Ing.LATE : Nat := 4
def Ing.INJECT_FAIL : Nat := 5
def Ing.FROZEN : Nat := 6
def Ing.REPEATED : Nat := 7
def Ing.SKIPPED : Nat := 8
def Ing.OVERRUN : Nat := 9
def Ing.PHY : Nat := 10
def Ing.TICKET_LATE : Nat := 11
def Ing.TICKET_FAULT : Nat := 12

/-- A stream frame (R127, R131, R134). -/
structure StreamFrame where
  frame : FrameNo
  flags : Nat
  sof : Nat
  eof : Nat
  mid : Nat
  ticket : Nat
  sensorCount : Nat
  signature : Nat
  /-- Pixel lines received, and embedded-data lines captured. -/
  lines : Nat
  embedded : Nat
  /-- Running payload CRC-32C register (R138). -/
  crc : Nat
  /-- It is absorbed and discarded: an extra frame, or one invalidated (R127, R134). -/
  discard : Bool
  /-- It is an extra frame, or belongs to a tick that opens no frame (R127). -/
  extra : Bool
  /-- Its tick is still to come: the tick it belongs to (R127). -/
  early : Option Nat
  /-- The sensor counter was read from its embedded data (R139). -/
  counted : Bool
  deriving DecidableEq, Repr

/-- An exposure ticket (R142-R146). -/
structure Ticket where
  number : Nat
  ctx : Nat
  target : FrameNo
  exposure : Nat
  script : List Byte
  /-- The window of its target has passed: it is sent in a later one (R142). -/
  moved : Bool
  deriving DecidableEq, Repr

/-- A ticket that applies from a frame (R143, R146). -/
structure InForce where
  actual : FrameNo
  number : Nat
  exposure : Nat
  late : Bool
  fault : Bool
  deriving DecidableEq, Repr

/-- A stream context (R126). -/
structure Ctx where
  cur : Option StreamFrame
  /-- A frame that began and ended before the tick it belongs to (R127). -/
  waiting : Option StreamFrame
  /-- The latest completed frame's record, and the record captured by a read of CAMRX_CTX_FRAME (R150). -/
  last : Option StreamFrame
  captured : Option StreamFrame
  /-- Signature of the previous frame and the run of equal ones (R138). -/
  sig : Option Nat
  run : Nat
  /-- Sensor counter of the previous frame (R139). -/
  counter : Option Nat
  /-- Flags for the stream frame that follows: a failed injection (R137), a packet outside a frame (R134). -/
  nextFlags : Nat
  /-- Frames already opened in their interval or judged late (R127): the newest. -/
  seen : Option FrameNo
  queue : List Ticket
  lastTarget : Option FrameNo
  nextNumber : Nat
  inForce : List InForce
  deriving DecidableEq, Repr

/-- A context after reset. -/
def Ctx.reset : Ctx where
  cur := none
  waiting := none
  last := none
  captured := none
  sig := none
  run := 0
  counter := none
  nextFlags := 0
  seen := none
  queue := []
  lastTarget := none
  nextNumber := 1
  inForce := []

/-- What an I3C controller is sending (R141, R142): a ticket in the window of a frame, with the tick of that frame and the transfer
it has retried (R146), or a firmware transfer until a harbour time. -/
inductive I3cBusy where
  | ticket (t : Ticket) (window : FrameNo) (tick : Nat) (retried : Option Nat)
  | firmware (ends : Nat)
  deriving DecidableEq, Repr

/-- How a packet's header passed its check (R134). -/
inductive Header where
  | good | corrected | lost
  deriving DecidableEq, Repr

/-- A tick that opened a frame of a quay (R127, R133, R142). -/
structure OpenTick where
  quay : Nat
  tick : Nat
  frame : FrameNo
  deriving DecidableEq, Repr

/-- An entry of the ticket result FIFO (R146, R151). -/
structure TktResult where
  number : Nat
  ctx : Nat
  status : Status
  actual : FrameNo
  deriving DecidableEq, Repr

/-- An SPI stamp port (R147, R148): stamps held, the sequence number and whether a sample was dropped before the next
record. -/
structure SpiPort where
  held : List Nat
  seq : Nat
  dropped : Bool
  deriving DecidableEq, Repr

/-- Camera ingress. -/
structure CamState where
  ctxs : List Ctx
  i3c : List (Option I3cBusy)
  /-- Firmware transfers waiting, per controller: their bit counts and bytes (R141). -/
  i3cQueue : List (List (Nat × List Byte))
  /-- Payloads of in-band interrupts passed to firmware, per controller: target and bytes (R140). -/
  ibi : List (List (Nat × List Byte))
  results : List TktResult
  /-- FSYNC output levels: active. -/
  fsync : List Bool
  /-- The latest ticks that opened frames, and the leading edges given for them: output, tick and harbour time (R131, R133). -/
  ticks : List OpenTick
  edges : List (Nat × Nat × Nat)
  spi : List SpiPort
  deriving DecidableEq, Repr

/-- Camera ingress after reset. -/
def CamState.reset : CamState where
  ctxs := List.replicate 24 Ctx.reset
  i3c := List.replicate 4 none
  i3cQueue := List.replicate 4 []
  ibi := List.replicate 4 []
  results := []
  fsync := List.replicate 8 false
  ticks := []
  edges := []
  spi := List.replicate 4 ⟨[], 0, false⟩

end Sys2Proof.Machine
end

