-- ==== Sys2Proof/Machine/TypesFleet.lean ====
section
/-! DEFINITION. The records of Onnak, ETH_MGMT and the time-aware system (R442-R469, R525), and of clocks, power and the
Management Controller (R541-R562). -/
namespace Sys2Proof.Machine

/-- Peer states (R448). -/
inductive PeerSt where
  | down | up | incompatible | duplicate
  deriving DecidableEq, Repr

/-- ONNAK_PEER_STATE codes (R467). -/
def PeerSt.code : PeerSt → Nat
  | .down => 0 | .up => 1 | .incompatible => 2 | .duplicate => 3

/-- A sending lane: next sequence number, frames sent and not acknowledged, the peer's limit, and when the ack last
advanced or a frame was first sent with none outstanding (R450, R452). -/
structure LaneTx where
  seq : Nat
  /-- Sequence number, harbour time first sent, and the frame. -/
  unacked : List (Nat × Nat × List Byte)
  limit : Nat
  since : Nat
  /-- Frames waiting for limit or for room among 64 unacknowledged. -/
  waiting : List (List Byte)
  deriving DecidableEq, Repr

/-- A receiving lane: next expected sequence number, the limit advertised and when an ACK with gap was last sent. -/
structure LaneRx where
  next : Nat
  limit : Nat
  gapAt : Option Nat
  deriving DecidableEq, Repr

/-- A peer (R447-R452). Lanes: request, response, and the stream lane of each port. -/
structure Peer where
  st : PeerSt
  version : Nat
  /-- Own session for the pair, and the one learned from the peer's latest HELLO to this node. -/
  session : Nat
  theirs : Option Nat
  /-- Ports on which its HELLO has been heard. -/
  heard : List Nat
  mac : List (Nat × List Byte)
  part : Nat
  tx : List LaneTx
  rx : List LaneRx
  lastRx : Nat
  lastTx : Nat
  /-- In-order receipts not yet acknowledged by any frame, with the harbour time of the first (R450): 0 for the request and response
  lanes, 1 + p for the stream lane of port p. -/
  ackDue : List (Nat × Nat)
  deriving DecidableEq, Repr

/-- An idle sending lane. -/
def LaneTx.idle : LaneTx := ⟨0, [], 0, 0, []⟩
/-- An idle receiving lane. -/
def LaneRx.idle : LaneRx := ⟨0, 0, none⟩

/-- A peer after reset. -/
def Peer.reset : Peer where
  st := .down
  version := 0
  session := 0
  theirs := none
  heard := []
  mac := []
  part := 0
  tx := List.replicate 6 LaneTx.idle
  rx := List.replicate 6 LaneRx.idle
  lastRx := 0
  lastTx := 0
  ackDue := []

/-- Binding states (R454, R468). -/
inductive BindSt where
  | none | binding | bound | stale | lost
  deriving DecidableEq, Repr

/-- ONNAK_BIND_STATE codes. -/
def BindSt.code : BindSt → Nat
  | .none => 0 | .binding => 1 | .bound => 2 | .stale => 3 | .lost => 4

/-- A binding of quay q to node n. -/
structure Binding where
  st : BindSt
  tide : Tide
  lastStatus : Status
  sentAt : Nat
  deriving DecidableEq, Repr

/-- A binding after reset. -/
def Binding.reset : Binding := ⟨.none, 0#8, 0#8, 0⟩

/-- What an outstanding request to a peer is. -/
inductive FleetKind where
  | read | write | signal | stream | bind
  deriving DecidableEq, Repr

/-- A request outstanding to a peer (R445, R459). -/
structure FleetReq where
  peer : Nat
  tag : Nat
  kind : FleetKind
  quay : Nat
  /-- The target tide it carried. -/
  dstTide : Tide
  req : ReqTag
  address : Nat
  count : Nat
  issued : Nat
  deadline : Nat
  /-- Stream segments received: offset and data (R459). -/
  segs : List (Nat × List Byte × Bool)
  /-- STREAM_END has come with OK. -/
  ended : Bool
  deriving DecidableEq, Repr

/-- Writes being packed for a peer (R456). -/
structure WritePack where
  peer : Nat
  req : ReqTag
  stream : Nat
  address : Nat
  bytes : List Byte
  since : Nat
  poison : Bool
  deriving DecidableEq, Repr

/-- A fleet port. -/
structure FleetPort where
  up : Bool
  fecLocked : Bool
  /-- HELLO has been exchanged on it since link-up (R464). -/
  helloed : Bool
  deriving DecidableEq, Repr

/-- Onnak. -/
structure OnnakState where
  ports : List FleetPort
  peers : List Peer
  /-- Bindings by q * 8 + n. -/
  binds : List Binding
  reqs : List FleetReq
  packs : List WritePack
  nextTag : Nat
  /-- WRITE frames applied and SIGNALs waiting behind them are settled in order: SIGNALs held for a frame not yet confirmed
  here (R457): peer, frame, address and carrying tag. -/
  heldSignals : List (Nat × ReqTag × Nat)
  /-- Harbour time of the last HELLO to the group (R447). -/
  helloAt : Nat
  deriving DecidableEq, Repr

/-- Onnak after reset. -/
def OnnakState.reset : OnnakState where
  ports := List.replicate 4 ⟨false, false, false⟩
  peers := List.replicate 8 Peer.reset
  binds := List.replicate 32 Binding.reset
  reqs := []
  packs := []
  nextTag := 0
  heldSignals := []
  helloAt := 0

/-- A gate control list (R469): base time, cycle and (open gates, interval ns) entries. -/
structure Gcl where
  base : Nat
  cycle : Nat
  entries : List (Nat × Nat)
  deriving DecidableEq, Repr

/-- ETH_MGMT (R443, R469, R525). -/
structure EthState where
  up : Bool
  /-- A committed list waiting to take effect, and the list in force with its entry and when that entry ends. -/
  pending : Option Gcl
  active : Option Gcl
  entry : Nat
  entryEnds : Nat
  deriving DecidableEq, Repr

/-- ETH_MGMT after reset. -/
def EthState.reset : EthState := ⟨false, none, none, 0, 0⟩

/-- The time-aware system of gPTP domain 0 (R461): the grandmaster followed, and when lock was last confirmed. -/
structure GptpState where
  /-- Grandmaster identity and priorities of the best Announce, none while this node is grandmaster. -/
  master : Option (List Byte)
  /-- Port on which the master is heard: 0-3 fleet ports, 4 ETH_MGMT. -/
  port : Nat
  /-- Sync awaiting its Follow_Up: port, sequence and receipt harbour time. -/
  sync : Option (Nat × Nat × Nat)
  /-- Measured link delay of each port in ns. -/
  delays : List Nat
  /-- Pdelay_Resp awaiting its Follow_Up: port, t2 and t4. -/
  pdelay : Option (Nat × Nat × Nat)
  deriving DecidableEq, Repr

/-- The time-aware system after reset. -/
def GptpState.reset : GptpState := ⟨none, 0, none, List.replicate 5 0, none⟩

/-- Clocks, power and the Management Controller beyond the PMC registers. -/
structure PmcState where
  /-- Present core clock of each compute die and the clock set for the next epoch, MHz. -/
  core : List Nat
  coreNext : List Nat
  /-- Old and new frequency of a change in progress (R542). -/
  changing : List (Option (Nat × Nat))
  apu : List Nat
  apuNext : List Nat
  emergency : Bool
  /-- A die sensor is hot, or a stack is: what ends an emergency (R544). -/
  hotStacks : List Nat
  /-- Latest sample of each sensor, °C. -/
  temps : List (Option Int)
  /-- Sensors at the trip temperature in their latest sample (R546). -/
  tripOnce : List Nat
  /-- The critical-trip hold is in force. -/
  tripHold : Bool
  overEnvelope : Bool
  overRun : Nat
  /-- VOUT_COMMAND attempts not acknowledged, by rail (R560). -/
  voutTries : List Nat
  /-- Set value of rails 0 to 5 in tenths of a mV. -/
  vout : List Nat
  /-- Rails out of range. -/
  railsOut : List Nat
  /-- Steps the envelope loop has taken, newest first (R547). -/
  steps : List Nat
  epochAt : Nat
  /-- WARM_RST_N is low (R557). -/
  rstLow : Bool
  deriving DecidableEq, Repr

/-- What the Management Controller measures in an epoch (R402, R547, R548): average power in mW, rail currents in mA, stack temperatures
in °C. -/
structure EpochSample where
  powerMw : Nat
  railMa : List Nat
  stackTemps : List Int
  deriving DecidableEq, Repr

/-- What it chooses for the next epoch where the spec leaves it the choice (R31, R549): clocks of the compute dies and of the clusters in
MHz, and placements of Piloted stages as (quay, STAGES index, ENGINES index). -/
structure McOrders where
  core : List Nat
  apu : List Nat
  moves : List (Nat × Nat × Nat)
  deriving DecidableEq, Repr

/-- An inbound request at the PCIe root port (R517). -/
inductive PcieReq where
  | read (addr len : Nat)
  | write (addr : Nat) (data : List Byte)
  /-- An endpoint's MSI or MSI-X: hart, supervisor file, identity. -/
  | msi (hart : Nat) (supervisor : Bool) (identity : Nat)
  deriving DecidableEq, Repr

/-- Power state after cold reset (R552, R560): boot supply values, core 900 MHz, application clusters 2,600 MHz. -/
def PmcState.reset : PmcState where
  core := [900, 900]
  coreNext := [900, 900]
  changing := [none, none]
  apu := [2600, 2600]
  apuNext := [2600, 2600]
  emergency := false
  hotStacks := []
  temps := List.replicate 32 none
  tripOnce := []
  tripHold := false
  overEnvelope := false
  overRun := 0
  voutTries := List.replicate 6 0
  vout := [6500, 6500, 7500, 7500, 9000, 9000]
  railsOut := []
  steps := []
  epochAt := 0
  rstLow := false

end Sys2Proof.Machine
end

