-- ==== Sys2Proof/Machine/TypesHm.lean ====
section
/-! DEFINITION. The records of hang recovery, the rings and the boot and security chapters: Salvage phases and dumps
(R498-R512), requests (R521-R523), fuses, keys and the Customs mailbox (R526-R535). -/
namespace Sys2Proof.Machine

/-- Names a unit: class code and instance (R502). -/
abbrev UnitId := Nat × Nat

/-- A unit's wait record (R499). -/
structure WaitRec where
  quay : Nat
  unit : UnitId
  since : Nat
  target : Option UnitId
  kind : Nat
  object : Nat
  deriving DecidableEq, Repr

/-- A unit's shadow entry (R501): its key state with the harbour time of the mirror. -/
structure Shadow where
  quay : Nat
  unit : UnitId
  stamp : Nat
  record : List Byte
  deriving DecidableEq, Repr

/-- A dump in progress (R502, R503). -/
structure Dump where
  reason : Nat
  declaredAt : Nat
  /-- Units not yet read, in reading order. -/
  todo : List UnitId
  /-- Units in the cycle. -/
  cycle : List UnitId
  needed : Nat
  written : Nat
  tide : Tide
  frame : FrameNo
  published : FrameNo
  suspects : Nat
  /-- The dump is written to the buffer (R503). -/
  writing : Bool
  truncated : Bool
  overtaken : Bool
  deriving DecidableEq, Repr

/-- SALVAGE_QUAY_STATUS phases (R514). -/
inductive SalvPhase where
  | idle | dumping | resetting | reloading | replaying | overdue
  deriving DecidableEq, Repr

/-- The codes of SALVAGE_QUAY_STATUS.phase. -/
def SalvPhase.code : SalvPhase → Nat
  | .idle => 0 | .dumping => 1 | .resetting => 2 | .reloading => 3 | .replaying => 4 | .overdue => 5

/-- Per-quay Salvage state. -/
structure Salv where
  phase : SalvPhase
  reason : Nat
  lastCmdStatus : Status
  dump : Option Dump
  dumpWritten : Nat
  dumpTrunc : Bool
  held : Bool
  /-- Harbour times of declarations in the last second (R510). -/
  declared : List Nat
  suspects : List Request
  kept : List Request
  /-- Recovery is under way (R510). -/
  recovering : Bool
  /-- The declaration was the fourth within a second: the dump's end resets the quay and no recovery follows (R510). -/
  gaveUp : Bool
  /-- Reason of the declaration that the quay has not yet been reset from, 0 for none (R507, R513). -/
  hungFor : Nat
  /-- Groups held for recovery, in the order the quay held them (R510). -/
  heldGroups : List Nat
  /-- The frame number and harbour time at the declaration, for step 3 of R510. -/
  nextFrameAt : FrameNo × Nat
  /-- The tick period, phase and origin of the hung chart, for step 3 of R510. -/
  replay : Option Request
  replayAt : Nat
  /-- Start of the no-progress timer (R500). -/
  progressAt : Nat
  /-- Quay fields the recovery needs after the reset: period in ns. -/
  periodNs : Nat
  deriving DecidableEq, Repr

/-- A quay's Salvage state after reset. -/
def Salv.reset : Salv where
  phase := .idle
  reason := 0
  lastCmdStatus := 0#8
  dump := none
  dumpWritten := 0
  dumpTrunc := false
  held := false
  declared := []
  suspects := []
  kept := []
  recovering := false
  gaveUp := false
  hungFor := 0
  heldGroups := []
  nextFrameAt := (0#32, 0)
  replay := none
  replayAt := 0
  progressAt := 0
  periodNs := 0

/-- Fuses (R530, R531, R534). -/
structure Fuses where
  rollback : Nat
  sigRequired : Bool
  opened : Bool
  kill : Bool
  /-- Keys of slots 0 to 3, none while the slot's valid fuse is not blown. -/
  slots : List (Option (List Byte))
  identitySeed : List Byte
  /-- Ordering code: false C, true I (R1, R545). -/
  industrial : Bool
  macBytes : List Byte
  /-- Trim of the core supplies in mV, 0 to 30 in steps of 5 (R560). -/
  trimMv : Nat
  deriving DecidableEq, Repr

/-- Fuses as manufactured and not yet programmed. -/
def Fuses.blank : Fuses where
  rollback := 0
  sigRequired := false
  opened := false
  kill := false
  slots := [none, none, none, none]
  identitySeed := List.replicate 32 0#8
  industrial := false
  macBytes := List.replicate 6 0#8
  trimMv := 0

/-- Where the boot ROM stands (R527, R528). -/
inductive BootPhase where
  /-- Held in cold reset. -/
  | held
  /-- Halted at step 2. -/
  | halted
  /-- Listening on the recovery path. -/
  | recovery
  /-- Waiting for HBM training before step 9. -/
  | waitTraining
  /-- Application cores run. -/
  | done
  deriving DecidableEq, Repr

/-- The Customs mailbox command in progress. -/
structure Mailbox where
  opcode : Nat
  status : Status
  deriving DecidableEq, Repr

/-- Boot and security state (chapter "Application Cores, Boot and Security"). -/
structure CustomsState where
  fuses : Fuses
  /-- Keys of slots 4 to 15 from the KEYS component. -/
  keys : List (Option (List Byte))
  phase : BootPhase
  lastStep : Nat
  failCode : Status
  recovery : Bool
  warm : Bool
  mediumEmmc : Bool
  /-- Straps latched at cold reset: BOOT_SRC, BOOT_RECOVERY, NODE_ID (R537). -/
  strapSrc : Bool
  strapRecovery : Bool
  nodeId : Nat
  /-- Contents of the boot medium: what the BOOT_SRC strap selects holds (R526). -/
  medium : List Byte
  /-- The image being booted, and the running image's version and digest. -/
  image : List Byte
  imageVersion : Nat
  imageDigest : List Byte
  /-- Bytes received on the recovery path. -/
  received : List Byte
  mailbox : Option Mailbox
  nonce : List Byte
  debugEnabled : Bool
  lastUnlock : Status
  rejected : Nat
  /-- Training outcome of each stack: none while it runs (R398). -/
  trained : List (Option Bool)
  lastAnnounce : Nat
  deriving DecidableEq, Repr

end Sys2Proof.Machine
end

