-- ==== Sys2Proof/Machine/TypesIo.lean ====
section
/-! DEFINITION. The records of Tender's channels (R422-R439) and of Coastguard's decision unit, Lighthouse slots and age
monitor (R470-R497). -/
namespace Sys2Proof.Machine

/-! Tender. -/

/-- The states of a channel (R435). `halting`: it waits for its outstanding writes before it enters HALTED (R433); its
STATUS code is RUNNING's. -/
inductive TState where
  | idle | armed | running | pausing | paused | halted | aborting | halting
  deriving DecidableEq, Repr

/-- TENDER_CH[n].STATUS.state (R441). -/
def TState.code : TState → Nat
  | .idle => 0 | .armed => 1 | .running => 2 | .pausing => 3 | .paused => 4 | .halted => 5 | .aborting => 6 | .halting => 2

/-- A line of a transfer not yet written: its first position and byte count, how often it has failed, and whether it
waits to be reissued (R433). -/
structure TLine where
  off : Nat
  len : Nat
  fails : Nat
  waiting : Bool
  /-- The staged data and their poison mark, once the read has returned (R436). -/
  data : Option (List Byte × Bool)
  deriving DecidableEq, Repr

/-- A Tender channel. -/
structure TChan where
  st : TState
  trig : Bool
  lastStatus : Status
  cmdStatus : Status
  /-- Addresses of position 0 of the transfer, and its byte count. -/
  src : Nat
  dst : Nat
  count : Nat
  /-- Positions issued so far, and positions written without a gap. -/
  issued : Nat
  written : Nat
  /-- End of the block being moved. -/
  blockEnd : Nat
  lines : List TLine
  /-- Bytes of lines written beyond the gap: position and data. -/
  early : List (Nat × List Byte)
  /-- Check accumulator (before its final step) and the bytes it has taken (R430). -/
  acc : Nat
  accBytes : Nat
  poison : Bool
  /-- The check value has been written (R431). -/
  stored : Bool
  /-- The status that halts it, and the failing line's position (R433). -/
  haltCode : Status
  failOff : Nat
  /-- A block was cut by a pause (R435). -/
  cut : Bool
  /-- What a held channel's stage carries (R439). -/
  tag : Option ReqTag
  /-- Completion pulses emitted and not yet arrived at chained channels (R432). -/
  pulses : Nat
  deriving DecidableEq, Repr

/-- A channel after reset. -/
def TChan.reset : TChan where
  st := .idle
  trig := false
  lastStatus := 0#8
  cmdStatus := 0#8
  src := 0
  dst := 0
  count := 0
  issued := 0
  written := 0
  blockEnd := 0
  lines := []
  early := []
  acc := 0
  accBytes := 0
  poison := false
  stored := false
  haltCode := 0#8
  failOff := 0
  cut := false
  tag := none
  pulses := 0

/-! Coastguard. -/

/-- Cause bits (R486). -/
def Cause.INIT : Nat := 0
def Cause.NOT_RUNNING : Nat := 1
def Cause.LIGHTHOUSE_FAIL : Nat := 2
def Cause.UNCOVERED : Nat := 3
def Cause.INVALID : Nat := 4
def Cause.AGE : Nat := 5
def Cause.FENCE : Nat := 6
def Cause.QUAY_FAULT : Nat := 7
def Cause.EDGE_DISAGREE : Nat := 8
def Cause.CHECK_MISMATCH : Nat := 9
def Cause.CG_SELF : Nat := 10
def Cause.SW_REQUEST : Nat := 11

/-- A Lighthouse slot j (R497): outcomes 1 PASS, 2 FAIL, 3 UNLIT of the latest frames that ran one, newest first. -/
structure LhSlot where
  outs : List (FrameNo × Nat)
  /-- Frames of the latest FAILs, newest first (R483). -/
  fails : List FrameNo
  fenced : Bool
  deriving DecidableEq, Repr

/-- A slot after cold reset. -/
def LhSlot.reset : LhSlot := ⟨[], [], false⟩

/-- The outcome for a frame, 0 where there is none. -/
def LhSlot.outcome (l : LhSlot) (n : FrameNo) : Nat := ((l.outs.find? (fun e => e.1 = n)).map (·.2)).getD 0

/-- A Lighthouse run dispatched and not yet judged (R481). -/
structure LhRun where
  entry : Nat
  frame : FrameNo
  window : Nat
  deriving DecidableEq, Repr

/-- A RESULT message waiting to be sent (R494), by forwarding slot. -/
structure CgMsg where
  slot : Nat
  bytes : List Byte
  payload : List Byte
  deriving DecidableEq, Repr

/-- A published quay-0 descriptor as Coastguard's mirror holds it (R487). -/
structure MirrorDesc where
  bytes : List Byte
  publishTime : Nat
  /-- The result's data, from the tensor descriptor's base, as far as CG_FWD may take it. -/
  tensor : Nat
  deriving DecidableEq, Repr

/-- A quay-0 publish point as the mirror holds it: its frame, whether it opened its RUNNING period, whether the frame before
opened in the same period, and its descriptors. -/
structure MirrorPub where
  frame : FrameNo
  first : Bool
  tide : Tide
  descs : List MirrorDesc
  deriving DecidableEq, Repr

/-- Coastguard. -/
structure CgState where
  /-- Active causes, one bit each. -/
  active : Nat
  /-- Frames for which the frame causes were raised: (bit, frame). -/
  causeFrames : List (Nat × FrameNo)
  /-- Fault signals not yet decided: cause and frame (R488). -/
  signals : List (Nat × FrameNo)
  safe : Bool
  /-- The level driven on SAFE_N is asserted. -/
  safeN : Bool
  selfFault : Bool
  copiesAgree : Bool
  pairs : List Bool
  slots : List LhSlot
  runs : List LhRun
  /-- Counters of the AGES entries, in 10 µs (R484); none before the first tick after START or UNDOCK. -/
  ages : List (Option Nat)
  /-- AGES entries over their limit (R485). -/
  overAge : List Nat
  /-- Publish points not yet checked, oldest first (R487). -/
  mirror : List MirrorPub
  /-- The frame the mirror's publish point is for, and the sequence number expected next. -/
  expectFrame : Option FrameNo
  expectSeq : Nat
  /-- RESULT messages queued (R494). -/
  queue : List CgMsg
  /-- Sequence numbers of safety messages by interface and kind (R493): CAN FD 0 and 1, ETH_MGMT; RESULT, NOTICE. -/
  seqs : List (Nat × Nat)
  /-- Harbour time at which the watchdog was last kicked (R473). -/
  kickedAt : Nat
  /-- Harbour time of the last NOTICE. -/
  noticeAt : Nat
  releaseStatus : Status
  deriving DecidableEq, Repr

/-- Coastguard after cold reset (R486, R489, R496): INIT and NOT_RUNNING active, SAFE_N asserted. -/
def CgState.reset : CgState where
  active := 3
  causeFrames := []
  signals := []
  safe := true
  safeN := true
  selfFault := false
  copiesAgree := true
  pairs := [false, false]
  slots := List.replicate 29 LhSlot.reset
  runs := []
  ages := []
  overAge := []
  mirror := []
  expectFrame := none
  expectSeq := 0
  queue := []
  seqs := List.replicate 3 (0, 0)
  kickedAt := 0
  noticeAt := 0
  releaseStatus := 0#8

/-- What a self-fault is found by (R473), the watchdog apart. -/
inductive SelfFault where
  | lockstep (pair : Nat)
  | copies
  | clock
  | supply
  | psramCrc
  | readback
  deriving DecidableEq, Repr

/-- The Lighthouse slot of an instance (R497). -/
def lhSlot (cls inst : Nat) : Option Nat :=
  match cls with
  | 2 => some inst | 3 => some (4 + inst) | 4 => some (6 + inst) | 5 => some (8 + inst) | 6 => some (10 + inst)
  | 7 => some (12 + inst) | 11 => some (14 + inst) | 12 => some (26 + inst) | 10 => some 28 | _ => none

end Sys2Proof.Machine
end

