-- ==== Sys2Proof/Syntax.lean ====
section
/-! DEFINITION. The commands of the SK7460: one constructor per row of spec/opcode_table.json, in the table's order. The table gives
its rows no bits; the operands are the model's (log entry 2). -/
namespace Sys2Proof
open Sys2Proof.Machine

/-- A command. -/
inductive Instr where
  /-- REGISTER_WRITE (R11): A write to a register that has no row of its own is stored, acted on or ignored and counted according to
  its access code. -/
  | registerWrite (ini : Initiator) (a bytes : Nat) (v same : Word)
  /-- LO_CAPTURE_READ (R20): A read of a _LO register captures the whole 64-bit value for later _HI reads. -/
  | loCaptureRead (ini : Initiator) (a : Nat)
  /-- HI_WRITE_COMMIT (R20): A write to the _HI half of a writable 64-bit quantity makes the held _LO value and the new high half take
  effect together. -/
  | hiWriteCommit (ini : Initiator) (a : Nat) (v : Word)
  /-- RC_READ (R17): A read of a read-to-clear register returns its value and clears it, unless hardware sets a bit in the same cycle. -/
  | rcRead (ini : Initiator) (a bytes : Nat) (same : Word)
  /-- CTX_FRAME_READ (R150): A read of CAMRX_CTX_FRAME captures the latest completed frame record for the context's other registers.
  Operands and effect: The latest completed frame's record is captured. -/
  | ctxFrameRead (c : Fin 24)
  /-- TICK_ORIGIN_WRITE (R44): A write to HM_TICK_ORIGIN is stored only while no quay is RUNNING, DOCKING or DOCKED. Operands and
  effect: A write of both halves. -/
  | tickOriginWrite (ini : Initiator) (val : BitVec 64)
  /-- GPTP_MESSAGE (R461): An IEEE 802.1AS event or general message arrives on a port and is processed by the time-aware system,
  slewing harbour time. Operands and effect: A message of domain 0 on a port (0 to 3 fleet ports, 4 ETH_MGMT); `sent` is the stamp
  of the device's own Pdelay_Req that a Pdelay_Resp_Follow_Up answers. -/
  | gptpMessage (port : Fin 5) (b : List Byte) (sent : Nat)
  /-- HARBOUR_TIME_STEP (R41): A held step of harbour time is applied once no quay is RUNNING or DOCKING. Operands and effect: The
  held step is applied; harbour time never decreases, so a step back is slewed. -/
  | harbourTimeStep
  /-- LOAD (R66): LOAD copies and checks a chart in order and claims the quay's resources. -/
  | load (q : Fin 4) (ini : Initiator)
  /-- LOAD_COMPLETE (R77): LOAD finishes its checks and table building, enters LOADED or stays EMPTY, writes its report and raises
  cmd_done. -/
  | loadComplete (q : Fin 4)
  /-- START (R74): START checks program digests, programs and Lighthouse headers and requests any clock raise before entering RUNNING. -/
  | start (q : Fin 4) (ini : Initiator)
  /-- DOCK (R76): DOCK stops new frames from opening, squashes all frames in flight but the oldest, and enters DOCKING or DOCKED. -/
  | dock (q : Fin 4) (ini : Initiator)
  /-- UNDOCK (R76): UNDOCK returns a DOCKED quay to RUNNING, with the next frame opening at the first tick at least 100 us later. -/
  | undock (q : Fin 4) (ini : Initiator)
  /-- UNLOAD (R73): UNLOAD enters RESETTING and performs the quay reset. -/
  | unload (q : Fin 4) (ini : Initiator)
  /-- RESET (R506): RESET aborts any command in progress, advances the tide, fences the handles and starts the quay reset sequence. -/
  | reset (q : Fin 4) (ini : Initiator)
  /-- DOCK_TIMEOUT (R71): A quay still DOCKING frames_in_flight periods plus 500 us after DOCK enters FAULTED. -/
  | dockTimeout (q : Fin 4)
  /-- RESET_DRAIN_LIMIT (R506): At 20 us into RESETTING, old-tide requests still queued are dropped and every engine of the quay
  receives its unit reset. Operands and effect: 20 µs after RESETTING was entered, requests of the old tide are dropped and every
  engine of the quay is reset. -/
  | resetDrainLimit (q : Fin 4)
  /-- RESET_QUIESCENT (R506): Once every unit is idle and the scrub is done, role epochs end, resources are released and the quay
  enters EMPTY. Operands and effect: Every resource is released and the quay is EMPTY. -/
  | resetQuiescent (q : Fin 4)
  /-- RESET_OVERDUE (R507): A quay not quiescent 150 us after entering RESETTING sets reset_overdue. Operands and effect: 150 µs after
  RESETTING was entered the quay is not quiescent. -/
  | resetOverdue (q : Fin 4)
  /-- RESET_ESCALATION (R507): A quay not quiescent at 500 us makes the Salvage unit record the escalation and order a device warm
  reset. Operands and effect: The quay is not quiescent at 500 µs; the Salvage unit orders a device warm reset. -/
  | resetEscalation (q : Fin 4)
  /-- CADENCE_TICK (R45): A quay's tick opens the next frame, or opens none when the quay is docked or its frames are full. Operands
  and effect: The latest tick of the quay, if it has not been taken yet. -/
  | cadenceTick (q : Fin 4)
  /-- WINDOW_OPEN (R95): When a window opens, each stage or fused chain of the window is dispatched in the same cycle. Operands and
  effect: The window of frame n opens once. -/
  | windowOpen (q : Fin 4) (n : FrameNo) (w : Nat)
  /-- WINDOW_CLOSE (R104): A stage not yet complete when its window closes is stopped with TIMEOUT. Operands and effect: Every stage
  of the window that has not completed is stopped. -/
  | windowClose (q : Fin 4) (n : FrameNo) (w : Nat)
  /-- STAGE_COMPLETE (R105): A stage completes with its status; on a status other than OK its outputs are poisoned and a fault entry
  is written. Operands and effect: Stage i of frame n of quay q, running on its engine, completes with its status; nothing happens
  while its work is not done. -/
  | stageComplete (q : Fin 4) (n : FrameNo) (stage : Nat)
  /-- PUBLISH_POINT (R110): At a Moored quay's publish point, Ledger pending fields commit, descriptors are written and ring producer
  indices advance. Operands and effect: The oldest unpublished frame of a Moored quay. -/
  | publishPoint (q : Fin 4)
  /-- SQUASH_COMPLETE (R111): The squashed frames' berths have been set EMPTY and their pending fields cleared, and the squash count
  advances. -/
  | squashComplete (q : Fin 4)
  /-- BERTH_TAG_WRITE (R374): A producer's tag write sets a berth FULL with its frame tag and tide and emits a berth signal. Operands
  and effect: A stream's bursts go first; then the berth is FULL and its signal is emitted. -/
  | berthTagWrite (t : ReqTag) (stream berth : Nat)
  /-- BERTH_SIGNAL_ARRIVAL (R98): A berth signal reaches a subscribed consumer, which marks the berth ready and issues its first read.
  Operands and effect: The oldest berth signal reaches its consumers (R97, R98, R118, R372): dropped when its quay or tide no
  longer owns the berth; else it marks the berth ready in every armed consumer of the handle, held reads go on, and the Edge Guard
  sees the rows it completes. -/
  | berthSignalArrival (bad : Option Outc)
  /-- ENGINE_BERTH_READ (R372): An engine read of a berth is served, held at the tag check, or dropped for a tide mismatch. Operands
  and effect: Served, held at the tag check, or dropped. -/
  | engineBerthRead (r : BerthReq)
  /-- ENGINE_BERTH_WRITE (R373): An engine write is stored, reopens the berth, or is dropped as a late write, depending on the tag.
  Operands and effect: The write enters its port's combiner. -/
  | engineBerthWrite (r : BerthReq)
  /-- ENGINE_REQUEST (R413): An engine request to HBM or a remote window is checked for tide and translated before it is issued.
  Operands and effect: Checked for tide; issued on a cached translation, or waiting for a walk. -/
  | engineRequest (r : MemReq)
  /-- TRANSLATION_WALK_DONE (R416): A page walk completes with a translation or a fault, and a fault record is written. Operands and
  effect: The walk for the i-th waiting request ends. -/
  | translationWalkDone (idx : Nat)
  /-- MEMORY_REPLY (R112): A reply or prefetched block arrives and is delivered, or is discarded when its tide or slot generation is
  stale. Operands and effect: The i-th outstanding local request is answered, and its reply delivered or discarded. -/
  | memoryReply (idx : Nat)
  /-- HBM_READ (R406): An HBM line read is decoded under the Hull code, and is returned corrected, poisoned or as stored. Operands and
  effect: A line at a device address, with the errors its cells show. -/
  | hbmRead (a : Nat) (err : List (Nat × Nat))
  /-- HBM_MASKED_WRITE (R351): A masked write is applied to its line as one atomic read-modify-write. Operands and effect: One read-
  modify-write of a line; bit i of the mask enables bit i of the line. -/
  | hbmMaskedWrite (a : Nat) (data : List Byte) (mask : Nat) (poison : Bool)
  /-- PATROL_READ (R408): Every 4 us each pseudo-channel reads the next line and writes back any correction. Operands and effect:
  Pseudo-channel ch (0 to 63) reads its next line and writes back a correction. -/
  | patrolRead (ch : Fin 64) (err : List (Nat × Nat))
  /-- SRAM_PATROL_READ (R408): Every 1 us each SRAM bank patrols the next word. Operands and effect: A bank's next word, with the
  number of bits of its codeword in error. -/
  | sramPatrolRead (m : Fin 4) (bank errs : Nat)
  /-- FAULT_POP (R122): A write of 1 to HM_FAULT_POP removes the oldest entry of the fault FIFO. Operands and effect: A write of 1 to
  HM_FAULT_POP removes the oldest entry. -/
  | faultPop
  /-- FRAME_START (R127): A CSI-2 frame start packet is stamped and binds a stream frame to a quay frame, or is absorbed as extra. -/
  | frameStart (port : Fin 8) (hd : Header) (vc : Nat)
  /-- FRAME_END (R128): A frame end packet is stamped and closes the stream frame, with signature and counter checks. -/
  | frameEnd (port : Fin 8) (hd : Header) (vc : Nat)
  /-- LONG_PACKET (R124): A long packet is checked and decoded, and its line passes to the context's camera pipe. -/
  | longPacket (port : Fin 8) (hd : Header) (vc dt : Nat) (bytes : List Byte) (crcOk : Bool) (bad : Option Outc)
  /-- SHORT_PACKET (R124): A line start, line end or other short packet is checked and applied to its context. Operands and effect:
  Line start and line end are checked to lie in a frame; data types 0 and 1 are frame start and frame end; any other type matches
  no context. -/
  | shortPacket (port : Fin 8) (hd : Header) (vc dt : Nat)
  /-- PHY_ERROR (R134): A start-of-transmission, synchronisation or deskew error is counted and marks every open frame of the port. -/
  | phyError (port : Fin 8)
  /-- SOF_DEADLINE (R127): A frame interval ends with no frame start, and the stream frame is marked LATE. Operands and effect: Frame
  n's interval has ended without a frame start. -/
  | sofDeadline (c : Fin 24) (n : FrameNo)
  /-- EOF_DEADLINE (R135): A frame without its end by eof_deadline_us is marked LATE and invalidated. Operands and effect: The frame
  being received has not ended by tick + eof_deadline_us. -/
  | eofDeadline (c : Fin 24)
  /-- PATTERN_INJECTION (R136): The receiver injects and checks a PRBS test pattern before a stream frame. Operands and effect:
  Between frames, the pattern's CRC-32C as the context and as the pipe compute it are equal to the expected one, or not. -/
  | patternInjection (c : Fin 24) (ctxOk pipeOk : Bool)
  /-- FSYNC_EDGE (R133): An FSYNC output emits the leading edge of its pulse at the tick plus offset_us and records its harbour time.
  Operands and effect: The pulse of the latest tick that opened a frame, 0 ns to 4 ns after tick + offset_us. -/
  | fsyncEdge (idx : Fin 8)
  /-- FSYNC_PULSE_END (R133): An FSYNC pulse returns to inactive after width_us. Operands and effect: The pulse lasts width_us. -/
  | fsyncPulseEnd (idx : Fin 8)
  /-- TICKET_SUBMIT (R144): Firmware submits an exposure ticket, which is queued or rejected with a status. Operands and effect: The
  ticket in quay q's submission registers, for a context. -/
  | ticketSubmit (q : Fin 4) (c : Nat)
  /-- TICKET_WINDOW_OPEN (R142): A ticket window opens, and the sequencer begins eligible tickets whose predicted end fits. Operands
  and effect: The sequencer of controller i begins the first eligible ticket. -/
  | ticketWindowOpen (idx : Fin 4)
  /-- TICKET_DONE (R146): A ticket's script transfers finish, and a result entry with its actual frame is written. Operands and
  effect: The transfers of the ticket being sent have ended, every one acknowledged or transfer k not. A transfer not acknowledged
  is sent once more where the prediction allows it. -/
  | ticketDone (idx : Fin 4) (nack : Option Nat)
  /-- TICKET_RESULT_POP (R151): A write to CAMRX_TKT_RESULT_POP removes the oldest ticket result entry. Operands and effect: The
  oldest result entry is removed. -/
  | ticketResultPop
  /-- I3C_FW_TRANSFER (R141): A transfer queued by firmware is issued once no ticket is in progress and its predicted end precedes
  every ticket window. Operands and effect: Firmware queues a transfer on controller i; the oldest queued one is issued if it may
  be. An empty transfer queues nothing. -/
  | i3cFwTransfer (idx : Fin 4) (bits : Nat) (bytes : List Byte)
  /-- I3C_IBI (R140): An I3C in-band interrupt from a target is received and passed to firmware. Operands and effect: An in-band
  interrupt of a target is received and passed to firmware. -/
  | i3cIbi (idx : Fin 4) (target : Nat) (bytes : List Byte)
  /-- SPI_DRDY_EDGE (R148): An active edge on SPI_DRDY is stamped and queued for a read, or dropped when two are held. Operands and
  effect: Stamped 0 ns to 6 ns after the edge, and held or dropped. -/
  | spiDrdyEdge (port : Fin 4)
  /-- SPI_SAMPLE_DONE (R147): An SPI sample read finishes, and its 64-byte record is written to the ring. Operands and effect: The
  sample's record is written to the ring, or dropped where it is full; the next held read begins. -/
  | spiSampleDone (port : Fin 4) (data : List Byte)
  /-- LINE_ARRIVE (R182): A line's first pixel reaches a camera pipe and takes a line slot, or is lost and marks the frame OVERRUN.
  Operands and effect: The next line on its way to slot k. -/
  | lineArrive (slot : Fin 32)
  /-- PASS_END (R181): A camera-pipe pass ends, and the scheduler chooses the next pass among waiting lines and flushes. Operands and
  effect: The pass in progress ends, and the pipe chooses the next one. An idle pipe only chooses. -/
  | passEnd (pipe : Fin 4)
  /-- OUTPUT_ROW_WRITE (R183): An output row is written and its berths set FULL 96 pixel clocks after its last contributing pass.
  Operands and effect: The next row of output m of the oldest frame of slot k, once the pass that completes its last contributing
  input row has ended and the frame's stage runs. -/
  | outputRowWrite (slot : Fin 32) (output : Fin 4)
  /-- ADJ_SUBMIT (R169): Firmware submits a per-frame adjustment, which is queued, replaces another, or is rejected. Operands and
  effect: The adjustment in quay q's submission registers, for a context. -/
  | adjSubmit (q : Fin 4) (c : Nat)
  /-- HEAD_DESCRIPTOR_CHECK (R195): Once the head berth of in[0] is full, a vision job reads and checks its input descriptor, or ends
  with SHAPE or STALE_TIDE. Operands and effect: The next job of an instance starts once its head berths are full, or ends with
  SHAPE or STALE_TIDE. -/
  | headDescriptorCheck (cls inst : Nat)
  /-- WARP_BAND_COMPLETE (R212): A warp band completes, and its output rows and berths are written. Operands and effect: The next band
  of the job on WARP instance i, once its source rows can be read. -/
  | warpBandComplete (inst : Fin 2)
  /-- PREDICTION_SUBMIT (R256): Firmware submits a motion prediction for a stream context and target frame. Operands and effect: The
  prediction in quay q's submission registers, for a context. -/
  | predictionSubmit (q : Fin 4) (c : Nat)
  /-- LEDGER_WINDOW_READ (R254): A read of the Ledger window folds committed entries, then returns the context state. Operands and
  effect: The context is settled, then its bytes are returned. -/
  | ledgerWindowRead (a n : Nat)
  /-- LEDGER_WINDOW_WRITE (R254): A write to the Ledger window is dropped, completes with FENCED and is counted. -/
  | ledgerWindowWrite (a : Nat) (bs : List Byte)
  /-- LEDGER_SWEEP_DONE (R264): A base die's sweep finishes folding or clearing the quay's Ledger blocks after a commit or voiding.
  Operands and effect: The sweep of a quay's blocks on a base die ends; the clear of a quay reset is RESET_QUIESCENT's. -/
  | ledgerSweepDone (die : Fin 2) (q : Fin 4)
  /-- POSE_SUBMIT (R274): Firmware submits a camera pose for an SND job and target frame. Operands and effect: The pose in the
  submission registers, for a job. -/
  | poseSubmit (k : Nat)
  /-- SND_PRODUCERS_DONE (R276): An SND job whose same-frame producers have all completed integrates, or writes nothing when one of
  them failed. Operands and effect: The running job's same-frame producers have all completed; it integrates, or ends without
  writing when one of them failed or an input is not what its job record says. -/
  | sndProducersDone
  /-- EDGE_DEADLINE (R292): A region whose last row has not arrived by deadline_us takes the outcome UNKNOWN. Operands and effect: A
  region whose last row has not arrived by tick + deadline_us takes UNKNOWN. -/
  | edgeDeadline (source region : Nat)
  /-- EDGE_RELEASE (R293): Coastguard software writes EDGE_RELEASE to release latched trips. Operands and effect: Coastguard software
  only. -/
  | edgeRelease (ini : Initiator)
  /-- EDGE_TEST (R302): Coastguard software forces EDGE_N asserted or releases the force through EDGE_TEST. Operands and effect:
  Coastguard software forces EDGE_N asserted, or ends the force. -/
  | edgeTest (ini : Initiator) (force : Bool)
  /-- MATMUL (R309): A matrix multiply over tiles with optional accumulation and epilogues. -/
  | matmul (inst : Fin 12) (k : Nat)
  /-- CONV2D (R309): A convolution computed as a matrix multiply. -/
  | conv2d (inst : Fin 12) (k : Nat)
  /-- ATTN (R340): Multi-head attention over Q, K and V in the tile store. -/
  | attn (inst : Fin 12) (k : Nat)
  /-- NORM (R339): LayerNorm or RMSNorm of rows in the tile store. -/
  | norm (inst : Fin 12) (k : Nat)
  /-- VEC (R310): An elementwise vector operation. -/
  | vec (inst : Fin 12) (k : Nat)
  /-- REDUCE (R309): A sum, max, min or mean along one axis. -/
  | reduce (inst : Fin 12) (k : Nat)
  /-- FETCH (R311): Enters the transfer queue to copy an operand into the tile store without conversion. -/
  | fetch (inst : Fin 12) (k : Nat)
  /-- COPY (R311): Enters the transfer queue to copy an operand with format conversion, setting berths FULL when final. -/
  | copy (inst : Fin 12) (k : Nat)
  /-- LAYER (R318): Opens a layer and announces its fill and drain bubbles. -/
  | layer (inst : Fin 12)
  /-- END (R311): Waits for the stage's transfers, sets its remaining output berths FULL and completes the stage. -/
  | elvEnd (inst : Fin 12)
  /-- ELV_TRANSFER_COMPLETE (R311): A FETCH or COPY in the transfer queue has all its writes acknowledged, freeing its place. Operands
  and effect: Transfer j of an instance's queue moves its data once nothing before it holds it back; a final COPY sets the output
  berths it wrote to full. -/
  | elvTransferComplete (inst : Fin 12) (j : Nat)
  /-- BOLLARD_RELEASE (R115): Once every instance of a voyage has drained layer L, all begin layer L+1 together 24 cycles later.
  Operands and effect: Every instance of a voyage has drained its layer; all go on together. -/
  | bollardRelease (q : Fin 4) (n : FrameNo) (voyage : Nat)
  /-- TANDEM_ISSUE (R116): A layer of another stage is issued into a bubble of the primary stage when its bound fits. Operands and
  effect: The next layer of the stage behind the primary is issued into a bubble with `left` cycles left. -/
  | tandemIssue (inst : Fin 12) (left : Nat)
  /-- LAYOUT_COPY (R362): A layout COPY with conversion and padding. -/
  | layoutCopy (inst : Fin 2)
  /-- PERMUTE (R362): Reorders dimensions through the transpose buffer. -/
  | permute (inst : Fin 2)
  /-- GATHER (R363): Copies source blocks named by a list into consecutive destination blocks. -/
  | gather (inst : Fin 2)
  /-- SCATTER (R363): Copies consecutive source blocks to destination blocks named by a list. -/
  | scatter (inst : Fin 2)
  /-- FILL (R362): Writes the destination's fill value to every in-bounds element. -/
  | fill (inst : Fin 2)
  /-- LAYOUT_END (R365): Ends a layout stage 24 cycles after its last write is acknowledged. -/
  | layoutEnd (inst : Fin 2)
  /-- CMDRING_DOORBELL (R522): Firmware writes a new producer index to the quay's command ring. Operands and effect: A new producer
  index. -/
  | cmdringDoorbell (q : Fin 4) (val : Word)
  /-- CMDRING_ENTRY_READ (R522): The Harbourmaster reads and judges the next command-ring entry while fewer than 256 requests wait.
  Operands and effect: The next entry, while fewer than 256 requests wait. -/
  | cmdringEntryRead (q : Fin 4)
  /-- NEURAL_REQUEST_DISPATCH (R321): An accepted request is dispatched on a request-driven stage within its window, taking a voyage
  context. Operands and effect: The first waiting request, in ring order, whose stage's window is open; `placed` is the MC's
  answer of R87. -/
  | neuralRequestDispatch (q : Fin 4) (placed : Bool)
  /-- DRL_WINDOW (R382): At each 1 us window of harbour time every Derailleur bucket is refilled to its budget. Operands and effect:
  Every bucket is refilled, and what waited is tried again, oldest first. -/
  | drlWindow
  /-- COMBINER_TIMEOUT (R387): A write burst is issued 16 cycles after its first write. Operands and effect: 16 cycles have passed
  since the first write of a port's burst. -/
  | combinerTimeout (port : Fin 6)
  /-- TAG_SET_STATIC_FULL (R375): The tag operation sets a berth range static and FULL. -/
  | tagSetStaticFull (q : Fin 4)
  /-- TAG_SET_EMPTY (R375): The tag operation sets a berth range EMPTY with static cleared. -/
  | tagSetEmpty (q : Fin 4)
  /-- FIRMWARE_BERTH_WRITE (R375): A firmware write through the scratchpad window is stored only while the owning quay is LOADED or
  DOCKED. Operands and effect: A write through the scratchpad window. -/
  | firmwareBerthWrite (a : Nat) (bs : List Byte)
  /-- BANK_GATE_REQUEST (R390): The MC requests power gating of a scratchpad bank. -/
  | bankGateRequest (ini : Initiator) (bank : Fin 128)
  /-- BANK_GATED (R390): A requested bank is gated in the first cycle in which no handle maps it and no write is outstanding. Operands
  and effect: A requested bank that nothing maps is gated, and keeps no contents. Writes are acknowledged within the command that
  issues them, so its outstanding-write counter is zero. -/
  | bankGated (bank : Fin 128)
  /-- BANK_GATE_GIVEUP (R390): A gate request not met within 50 us is abandoned and counted. Operands and effect: The conditions have
  not held by 50 µs after the request. -/
  | bankGateGiveup (bank : Fin 128)
  /-- BANK_WAKE (R392): A gated bank is woken by the MC or by a LOAD claim, then powered up and scrubbed. Operands and effect: The MC
  clears a bank's request bit. -/
  | bankWake (ini : Initiator) (bank : Fin 128)
  /-- BANK_WAKE_DONE (R392): A woken bank completes its power-up and scrub and becomes usable. Operands and effect: Powered up and
  scrubbed. -/
  | bankWakeDone (bank : Fin 128)
  /-- HBMC_RETIRE_ADD (R409): Firmware restores a retired page into the list while every quay is EMPTY. Operands and effect: Firmware
  restores a retired page while every quay is EMPTY. -/
  | hbmcRetireAdd (st : Fin 2) (page : Nat)
  /-- XLT_PROBE (R419): A write to XLT_PROBE_VA_HI starts a translation probe. Operands and effect: A write of XLT_PROBE_VA_HI starts
  a walk. -/
  | xltProbe (val : Word)
  /-- XLT_PROBE_DONE (R419): A probe walk finishes, and its result and done are set. -/
  | xltProbeDone
  /-- PAGE_REMAP (R415): The MC remaps a movable page of a Piloted quay with one leaf store and invalidates the cached translation.
  Operands and effect: The MC stores a new leaf for a movable page of a Piloted quay and invalidates what is cached. -/
  | pageRemap (q : Fin 4) (va leaf : Nat)
  /-- TENDER_START (R427): The start command checks the programming registers and arms the channel. -/
  | tenderStart (n : Fin 32)
  /-- TENDER_PAUSE (R436): The pause command stops new reads and drains the channel toward PAUSED. -/
  | tenderPause (n : Fin 32)
  /-- TENDER_RESUME (R435): The resume command continues a paused or halted transfer. -/
  | tenderResume (n : Fin 32)
  /-- TENDER_ABORT (R435): The abort command stops the channel and drains it toward IDLE with ABORTED. -/
  | tenderAbort (n : Fin 32)
  /-- TENDER_TIMER_FIRE (R428): A Tender timer fires and triggers each channel that selects it. Operands and effect: Timer t is
  enabled and a firing is due. -/
  | tenderTimerFire (timer : Fin 8)
  /-- PERIPHERAL_REQUEST (R428): A high peripheral request line triggers an armed channel. Operands and effect: Request line i is
  high: it triggers the channels that are ARMED between blocks. -/
  | peripheralRequest (line : Fin 16)
  /-- CHAIN_TRIGGER (R428): A completion pulse reaches a chained channel 2 cycles later and triggers it. Operands and effect: A
  completion pulse of channel m reaches the channels that chain on it. -/
  | chainTrigger (source : Fin 32)
  /-- TENDER_WRITE_RESPONSE (R433): A line's read or write response arrives, and the line is done, queued for retry or halts the
  channel. Operands and effect: The read response (`wr` false) or write response of the line at position `off`. `st` is the status
  that the link or memory reports; OK leaves the outcome to the device. -/
  | tenderWriteResponse (n : Fin 32) (off : Nat) (wr : Bool) (st : Status) (bytes : List Byte)
  /-- TENDER_RETRY (R433): A failed line is reissued 256 cycles after its failure. Operands and effect: The line at position `off`,
  which has failed, is reissued. -/
  | tenderRetry (n : Fin 32) (off : Nat)
  /-- TRANSFER_COMPLETE (R432): A transfer's last write response arrives, and the channel goes IDLE or re-arms and emits its
  completion pulse. Operands and effect: Every write of the transfer has its response, the check's included. -/
  | transferComplete (n : Fin 32)
  /-- TENDER_HALT_DRAINED (R433): A halting channel's outstanding writes have responded, and it enters HALTED. Operands and effect:
  The halting channel's writes have responded; a held channel's stage ends with the code. -/
  | tenderHaltDrained (n : Fin 32)
  /-- PAUSE_DRAINED (R436): A pausing channel's write responses have all arrived, and it enters PAUSED. -/
  | pauseDrained (n : Fin 32)
  /-- ABORT_DRAINED (R435): An aborting channel's outstanding writes have responded, and it enters IDLE with ABORTED. -/
  | abortDrained (n : Fin 32)
  /-- HELLO (R447): A HELLO is received, answered and used to set the peer state and version. Operands and effect: Received, answered
  by unicast when it was sent to the group, and used for the peer's state and version. -/
  | hello (p : Fin 4) (frame : List Byte) (fcs : Bool)
  /-- HELLO_TIMER (R447): Every 10 ms and at link-up, HELLO is sent on every fleet port. Operands and effect: Every 10 ms, on every
  fleet port that is up. -/
  | helloTimer
  /-- ACK (R450): A standalone ACK is received and advances acknowledgements and limits, or triggers retransmission on a gap. Operands
  and effect: Acknowledgements and limits are applied; with gap set, the lanes that use the port send again. -/
  | ack (p : Fin 4) (frame : List Byte) (fcs : Bool)
  /-- ACK_TIMER (R450): 2 us after an in-order receipt with nothing sent to the peer, a standalone ACK is sent. Operands and effect: 2
  µs after an in-order receipt that no frame has acknowledged. -/
  | ackTimer (n : Fin 8)
  /-- KEEPALIVE_ACK (R452): A standalone ACK is sent to an UP peer that has received nothing for 20 us. Operands and effect: An UP
  peer has received nothing from this node for 20 µs. -/
  | keepaliveAck (n : Fin 8)
  /-- RTO_EXPIRY (R450): ONNAK_RTO passes without an ack advance, and unacknowledged frames are sent again. Operands and effect:
  ONNAK_RTO has passed with no advance of a lane's acknowledgement. -/
  | rtoExpiry (n : Fin 8) (lane : Fin 6)
  /-- PEER_TIMEOUT (R452): A peer is lost after ONNAK_PEER_TIMEOUT, and its bindings and outstanding requests end. Operands and
  effect: Nothing received, or a frame unacknowledged, for ONNAK_PEER_TIMEOUT. -/
  | peerTimeout (n : Fin 8)
  /-- BIND (R454): A BIND request is judged by the target, which answers with BIND_ACK. Operands and effect: The target's answer, by
  the first condition that applies. -/
  | bind (p : Fin 4) (frame : List Byte) (fcs : Bool)
  /-- BIND_ACK (R454): A BIND_ACK sets the binding BOUND with the target tide, or reports a failure. -/
  | bindAck (p : Fin 4) (frame : List Byte) (fcs : Bool)
  /-- BIND_RETRY (R454): A BIND is repeated every timeout_us until the binding is BOUND. Operands and effect: A binding of a quay that
  is RUNNING, DOCKING or DOCKED is not BOUND timeout_us after its last BIND. -/
  | bindRetry (q : Fin 4) (n : Fin 8)
  /-- READ (R453): A remote READ request is resolved in the receiver's fleet window and answered with READ_RESP. -/
  | read (p : Fin 4) (frame : List Byte) (fcs : Bool)
  /-- READ_RESP (R456): A READ_RESP delivers lines with their poison marks to the requesting engine. -/
  | readResp (p : Fin 4) (frame : List Byte) (fcs : Bool)
  /-- WRITE (R458): A remote WRITE is checked for tide and frame, stored and acknowledged. -/
  | write (p : Fin 4) (frame : List Byte) (fcs : Bool)
  /-- WRITE_ACK (R456): A WRITE_ACK completes an outstanding remote write. -/
  | writeAck (p : Fin 4) (frame : List Byte) (fcs : Bool)
  /-- SIGNAL (R457): A remote SIGNAL sets a fleet-visible berth FULL once earlier writes are acknowledged. Operands and effect: Every
  earlier WRITE of the request lane has been applied. -/
  | signal (p : Fin 4) (frame : List Byte) (fcs : Bool)
  /-- SIGNAL_ACK (R446): A SIGNAL_ACK completes an outstanding SIGNAL. -/
  | signalAck (p : Fin 4) (frame : List Byte) (fcs : Bool)
  /-- STREAM (R456): A STREAM request makes the target send its range as STREAM_DATA segments. -/
  | stream (p : Fin 4) (frame : List Byte) (fcs : Bool)
  /-- STREAM_DATA (R459): A stream segment is reassembled and delivered to the engine in offset order. Operands and effect: A segment
  is held until those before it have come. Its lines' marks are kept line by line. -/
  | streamData (p : Fin 4) (frame : List Byte) (fcs : Bool)
  /-- STREAM_END (R446): STREAM_END gives the status of a whole stream. Operands and effect: The status of the whole stream. -/
  | streamEnd (p : Fin 4) (frame : List Byte) (fcs : Bool)
  /-- REQUEST_DEADLINE (R459): A remote request not answered by its timeout_us completes with TIMEOUT. Operands and effect: A request
  to peer n with an identifier has not been answered by its deadline. -/
  | requestDeadline (n : Fin 8) (tag : Nat)
  /-- WRITE_PACK_TIMEOUT (R456): A partly filled WRITE frame is sent 64 cycles after its first byte. Operands and effect: 64 cycles
  have passed since the first byte of the i-th partly filled WRITE. -/
  | writePackTimeout (idx : Nat)
  /-- LINK_UP (R442): A fleet port's link comes up after auto-negotiation and training. Operands and effect: An enabled port's link
  comes up, and HELLO goes on it. -/
  | linkUp (p : Fin 4)
  /-- LINK_DOWN (R449): A fleet port goes down, its lanes move to other ports, and service is requested. Operands and effect: A port
  goes down, its lanes move, and service is requested where it had exchanged HELLO. -/
  | linkDown (p : Fin 4)
  /-- OTHER_ETHERTYPE_FRAME (R442): A frame with another EtherType on a fleet port is dropped and counted. Operands and effect: A
  frame that is neither Onnak nor 802.1AS is dropped on a fleet port and counted; on ETH_MGMT (port 4) an Onnak frame is. -/
  | otherEthertypeFrame (p : Fin 5) (frame : List Byte)
  /-- ETH_MGMT_RX_FRAME (R525): A frame received on ETH_MGMT is delivered to the receive ring or dropped. Operands and effect: A frame
  without its FCS. -/
  | ethMgmtRxFrame (frame : List Byte) (fcs : Bool)
  /-- ETH_MGMT_TX_DOORBELL (R525): Firmware advances the ETH_MGMT transmit producer, and descriptors are sent or refused. Operands and
  effect: The producer index advances. -/
  | ethMgmtTxDoorbell (val : Word)
  /-- GCL_COMMIT (R469): Coastguard software commits a new 802.1Qbv gate control list. Operands and effect: Coastguard software
  commits the list its registers hold; it takes effect at the first cycle start at or after its base time. -/
  | gclCommit (ini : Initiator) (val : Word)
  /-- GCL_TAKE_EFFECT (R469): A committed gate list takes effect at the first cycle start at or after its base time. -/
  | gclTakeEffect
  /-- LIGHTHOUSE_VERDICT (R481): A Lighthouse run ends with PASS, FAIL or UNLIT, which reaches the Harbourmaster and the decision
  unit. Operands and effect: A run of a LIGHTHOUSE entry ends with a status, and its diverted lines (offset in the capture image,
  byte mask, data) have been compared. Runs on one instance end in entry order. -/
  | lighthouseVerdict (entry : Nat) (status : Status) (lines : List (Nat × Nat × List Byte))
  /-- AGE_TICK (R485): Every 10 us each age counter advances and raises AGE when it exceeds its limit. Operands and effect: Every
  counter in use advances; one that exceeds its limit raises AGE for its entry. -/
  | ageTick
  /-- DESCRIPTOR_CHECK (R487): Coastguard checks each quay-0 descriptor from its mirror and then sends RESULT messages. Operands and
  effect: The oldest publish point in the mirror is checked and its RESULT messages are sent; a clean one releases SAFE_N. RESULT
  messages that could not start before it are dropped. -/
  | descriptorCheck
  /-- DECISION (R488): The decision unit acts on a fault signal, adding a cause and entering the safe state. Operands and effect: The
  oldest fault signal. -/
  | decision
  /-- NOTICE_TIMER (R489): A NOTICE is sent every CG_NOTICE_PERIOD while in the safe state. Operands and effect: Every
  CG_NOTICE_PERIOD while in the safe state. -/
  | noticeTimer
  /-- CG_RELEASE (R491): Coastguard software requests the release of latched causes. Operands and effect: The latched causes are
  cleared, or the request is rejected with BAD_STATE. -/
  | cgRelease (ini : Initiator) (val : Word)
  /-- CG_SW_REQUEST (R486): Coastguard software raises the SW_REQUEST cause. -/
  | cgSwRequest (ini : Initiator) (val : Word)
  /-- CG_WDT_KICK (R473): A write restarts the Coastguard watchdog. -/
  | cgWdtKick (ini : Initiator)
  /-- WATCHDOG_EXPIRY (R473): CG_WDT_KICK not written within CG_WDT_PERIOD is a self-fault. Operands and effect: CG_WDT_KICK has not
  been written within CG_WDT_PERIOD, once a pair has booted. -/
  | watchdogExpiry
  /-- SELF_FAULT (R473): A Coastguard self-fault asserts SAFE_N until cold reset. -/
  | selfFault (k : SelfFault)
  /-- DETECTOR_SAMPLE (R499): Every 4 us the wait-for detector samples all wait records and declares a quay with a cycle hung.
  Operands and effect: A quay with a cycle among its blocked records is hung. `space` lists, by quay, the producers held for berth
  space in a fused ring, each with the consumer that holds it. -/
  | detectorSample (space : List (Fin 4 × Nat × Nat))
  /-- NO_PROGRESS (R500): A quay's no-progress timer expires and the quay is declared hung. Operands and effect: The timer runs while
  a unit of the quay waits and the wait is not external. -/
  | noProgress (q : Fin 4) (space : List (Nat × Nat))
  /-- SALVAGE_DECLARE (R498): Coastguard software or the MC orders a hang declaration through SALVAGE_QUAY_CMD. -/
  | salvageDeclare (q : Fin 4) (ini : Initiator)
  /-- SNAPSHOT (R504): Coastguard software or the MC requests a dump without a declaration. -/
  | snapshot (q : Fin 4) (ini : Initiator)
  /-- SHADOW_MIRROR (R501): Every 256 cycles a unit mirrors its key state into its shadow entry. Operands and effect: A unit of the
  quay mirrors its key state. -/
  | shadowMirror (q : Fin 4) (cls inst : Nat)
  /-- DUMP_UNIT_ANSWER (R502): A unit answers the dump read, and its record is written and the next unit read. -/
  | dumpUnitAnswer (q : Fin 4)
  /-- DUMP_UNIT_TIMEOUT (R502): A unit that does not answer within 2 us is recorded UNREADABLE from its shadow. -/
  | dumpUnitTimeout (q : Fin 4)
  /-- DUMP_RELEASE (R503): Firmware clears the dump buffer's held bit. -/
  | dumpRelease (q : Fin 4)
  /-- REPLAY_DISPATCH (R511): A suspect voyage is replayed within 20 us of its window opening or of the previous replay's end.
  Operands and effect: The first suspect, once its stage's window is open. -/
  | replayDispatch (q : Fin 4)
  /-- REPLAY_TIMEOUT (R511): A replay still running 1 ms after dispatch is stopped as the culprit with HANG. Operands and effect: The
  replay is still running 1 ms after its dispatch; it is the culprit. -/
  | replayTimeout (q : Fin 4)
  /-- COLD_RESET (R557): PORST_N held low for 10 us or more resets the whole device. -/
  | coldReset (ns : Nat)
  /-- COLD_RESET_RELEASE (R527): PORST_N rises, the straps latch, and the boot ROM starts. Operands and effect: The straps latch and
  the ROM runs from step 1. `sound`: the fuses' redundancy check passes. -/
  | coldResetRelease (src recovery : Bool) (node : Nat) (medium : List Byte) (sound : Bool)
  /-- WARM_RST_N (R557): WARM_RST_N sampled low for 25 consecutive AON_CLK cycles requests a device warm reset. -/
  | warmRstN (samples : Nat)
  /-- TOP_RESET_WARM (R536): A write of 1 to TOP_RESET_CTRL.warm requests a device warm reset. -/
  | topResetWarm
  /-- HBM_TRAINING_DONE (R398): HBM training of a stack completes or fails, and boot continues with the APU image. -/
  | hbmTrainingDone (stack : Fin 2) (ok : Bool)
  /-- CORE_RELEASE (R537): Firmware writes TOP_CORE_RELEASE to start application cores. -/
  | coreRelease (v : Word)
  /-- ANNOUNCE (R528): On the recovery path, the ROM sends ANNOUNCE once a second. Operands and effect: , once a second, in both ways:
  part code, port MAC and failure code. -/
  | announce
  /-- DATA (R528): A recovery DATA message is stored if in order and answered with ACK. -/
  | data (uart : Bool) (off : Nat) (bytes : List Byte)
  /-- DONE (R528): A recovery DONE makes the ROM check the received image and boot it or report failure. -/
  | done (uart : Bool)
  /-- VERIFY (R532): The Customs mailbox verifies a boot image in memory. -/
  | verify
  /-- DIGEST (R532): The Customs mailbox computes the SHA-512 of a buffer. -/
  | digest
  /-- ATTEST (R533): The Customs mailbox writes a signed attestation report. -/
  | attest
  /-- ROLLBACK_ADVANCE (R531): The Customs mailbox blows rollback fuse bits up to a version. -/
  | rollbackAdvance
  /-- FUSE_PROGRAM (R531): The Customs mailbox programs a key slot or sig_required once. -/
  | fuseProgram
  /-- DEBUG_OPEN (R534): The Customs mailbox checks a debug token and opens debug. -/
  | debugOpen
  /-- MAILBOX_COMPLETE (R532): A Customs command finishes, its status is set and MSI source 79 is raised. -/
  | mailboxComplete
  /-- UNLOCK (R534): A debug token is delivered through the TAP's UNLOCK data register. -/
  | unlock (token : List Byte)
  /-- TOP_MSI_WRITE (R519): A write to TOP_MSI enabling a vector with a pending bit sends one MSI and clears the bit. Operands and
  effect: A vector enabled while its pending bit is set sends one MSI. -/
  | topMsiWrite (v : Fin 256) (val : Word)
  /-- PCIE_INBOUND (R517): An inbound PCIe request reaches a system group, or completes with Unsupported Request, or delivers an
  endpoint MSI. Operands and effect: An endpoint's request reaches system groups only; an MSI reaches an interrupt file. -/
  | pcieInbound (r : PcieReq)
  /-- EPOCH_BOUNDARY (R548): At each 1 ms epoch boundary, settings take effect and the MC measures and decides the next epoch.
  Operands and effect: The settings of the epoch that ends take effect; the MC measures it and decides the next. -/
  | epochBoundary (m : EpochSample) (o : McOrders)
  /-- CLOCK_CHANGE_DONE (R542): A core-clock change completes 2 us after its epoch boundary. Operands and effect: 2 µs after the
  boundary the change is complete, and so is a START that waited for it. -/
  | clockChangeDone
  /-- SENSOR_SAMPLE (R546): Every 100 us each die sensor is sampled, which may start or end a critical-trip hold. Operands and effect:
  The 32 die sensors are sampled. -/
  | sensorSample (temps : List Int)
  /-- VOUT_COMMAND (R560): A PMBus VOUT_COMMAND to a regulator is acknowledged or fails after two attempts, raising code 0x09.
  Operands and effect: The MC sets the supply of rail r for the higher of its clock now and next; two attempts without
  acknowledgement leave the rail and the clock unchanged. -/
  | voutCommand (r : Fin 6) (ack : Bool)
  /-- PMB_ALERT (R560): A fall of PMB_ALERT_N raises service code 0x09. Operands and effect: Rails and clocks stay as they are, and
  code 0x09 is raised. -/
  | pmbAlert
  /-- RAIL_FAULT (R562): A rail out of range for 10 us causes a warm reset, a cold reset or a Coastguard self-fault. Operands and
  effect: Rails out of range for 10 µs; losses of several kinds may coincide. -/
  | railFault (rails : List Nat)
  /-- WARM_RST_N_RELEASE (R557): WARM_RST_N returns high after being held low, ending the hold so that the device warm reset completes
  and boot resumes from step 4. -/
  | warmRstNRelease
  /-- LOSS_OF_LOCK (R462): Harbour time loses its 802.1AS lock, clearing HM_TIME_STATUS.locked and setting ONNAK_EVENT.unlocked while
  bindings stay as they are. Operands and effect: A binding that is BOUND sets ONNAK_EVENT.unlocked; bindings stay as they are. -/
  | lossOfLock
  /-- GCL_ENTRY_EXPIRY (R469): The interval of the current 802.1Qbv gate entry runs out, and the next entry's open gates take effect
  on ETH_MGMT. Operands and effect: The next entry's gates take effect. -/
  | gclEntryExpiry
  /-- ETH_MGMT_TX_SENT (R525): A transmit descriptor's frame leaves ETH_MGMT, its start-of-frame harbour time and status are written
  back, and the transmit consumer index advances, raising MSI source 81. Operands and effect: The head descriptor's frame leaves,
  if its class's gate is open; its status and the harbour time of its start are written back. -/
  | ethMgmtTxSent
  deriving DecidableEq, Repr

end Sys2Proof
end

