-- ==== Sys2Proof/Decode.lean ====
section
/-! DEFINITION. The command that a word of the opcode table spells. The SK7460 is modelled as a block: spec/opcode_table.json gives its
rows no bits, so no word spells a command. -/
namespace Sys2Proof

/-- The command that the low `nbits` bits of `w` spell: the table gives no row any bits. -/
def decodeTableWord (_nbits _w : Nat) : Option Instr := none

end Sys2Proof
end

