-- ==== Sys2Proof/Machine/Float.lean ====
section
/-! DEFINITION. Floating-point formats and IEEE 754 arithmetic over exact dyadic values (R324-R327, R332-R334): decode,
round to nearest even, the four operations, conversions, and exact fixed-point evaluation of the exponential. -/
namespace Sys2Proof.Machine

/-- A floating-point datum: NaN, an infinity, or ±m × 2^e exactly. -/
inductive Fv where
  | nan
  | inf (neg : Bool)
  | fin (neg : Bool) (m : Nat) (e : Int)
  deriving DecidableEq, Repr

/-- How a format shows values beyond its finite ones (R325). -/
inductive Special where
  /-- Exponent all ones: infinity and NaN. -/
  | ieee
  /-- Only the code with every exponent and fraction bit set is NaN (FP8 E4M3). -/
  | oneNan
  /-- Neither. -/
  | none
  deriving DecidableEq, Repr

/-- A binary format: exponent bits, fraction bits, bias. -/
structure FloatFmt where
  eb : Nat
  fb : Nat
  bias : Nat
  special : Special
  deriving DecidableEq, Repr

def fp4e2m1 : FloatFmt := ⟨2, 1, 1, .none⟩
def fp6e2m3 : FloatFmt := ⟨2, 3, 1, .none⟩
def fp6e3m2 : FloatFmt := ⟨3, 2, 3, .none⟩
def fp8e4m3 : FloatFmt := ⟨4, 3, 7, .oneNan⟩
def fp8e5m2 : FloatFmt := ⟨5, 2, 15, .ieee⟩
def fp16 : FloatFmt := ⟨5, 10, 15, .ieee⟩
def bf16 : FloatFmt := ⟨8, 7, 127, .ieee⟩
def fp32 : FloatFmt := ⟨8, 23, 127, .ieee⟩
def fp64 : FloatFmt := ⟨11, 52, 1023, .ieee⟩

/-- Decode a code of a format (R325). -/
def FloatFmt.decode (f : FloatFmt) (v : Nat) : Fv :=
  let s := bitOf v (f.eb + f.fb)
  let e := bitsOf v (f.eb + f.fb - 1) f.fb
  let m := v % 2 ^ f.fb
  let top := 2 ^ f.eb - 1
  if f.special = .ieee ∧ e = top then (if m = 0 then .inf s else .nan)
  else if f.special = .oneNan ∧ e = top ∧ m = 2 ^ f.fb - 1 then .nan
  else if e = 0 then .fin s m (1 - (f.bias : Int) - f.fb)
  else .fin s (2 ^ f.fb + m) ((e : Int) - f.bias - f.fb)

/-- ⌊log2 m⌋ for m > 0. -/
def log2 (m : Nat) : Nat := Nat.log2 m

/-- m × 2^s rounded to the nearest natural number, ties to even. -/
def roundShift (m : Nat) (s : Int) : Nat :=
  match s with
  | .ofNat k => m <<< k
  | .negSucc k' =>
    let k := k' + 1
    let q := m >>> k
    let r := m % 2 ^ k
    let h := 2 ^ (k - 1)
    if r > h then q + 1 else if r = h then q + q % 2 else q

/-- The largest finite code of a format, without its sign. -/
def FloatFmt.maxCode (f : FloatFmt) : Nat :=
  match f.special with
  | .ieee => (2 ^ f.eb - 1) * 2 ^ f.fb - 1
  | .oneNan => 2 ^ (f.eb + f.fb) - 2
  | .none => 2 ^ (f.eb + f.fb) - 1

/-- The canonical NaN (R326); +0 where the format has none (R332). -/
def FloatFmt.nanCode (f : FloatFmt) : Nat :=
  match f.special with
  | .ieee => if f.fb = 2 then 0x7F else (2 ^ f.eb - 1) * 2 ^ f.fb + 2 ^ (f.fb - 1)
  | .oneNan => 2 ^ (f.eb + f.fb) - 1
  | .none => 0

/-- The infinity code; the largest finite one where the format has none (R332). -/
def FloatFmt.infCode (f : FloatFmt) : Nat :=
  if f.special = .ieee then (2 ^ f.eb - 1) * 2 ^ f.fb else f.maxCode

/-- Round to a format, ties to even. Above the largest finite value: saturate (R332) where `sat`, else infinity. -/
def FloatFmt.encode (f : FloatFmt) (sat : Bool) (v : Fv) : Nat :=
  let sgn := fun (n : Bool) => bitAt n (f.eb + f.fb)
  match v with
  | .nan => f.nanCode
  | .inf n => sgn n + f.infCode
  | .fin n m e =>
    if m = 0 then sgn n
    else
      let top : Int := (log2 m : Int) + e
      let emin : Int := 1 - (f.bias : Int)
      let ex := max top emin
      let q := roundShift m (e - (ex - f.fb))
      -- q lies in [0, 2^(fb+1)]; the code of exponent ex adds q to the exponent field
      let code := (ex - emin).toNat * 2 ^ f.fb + q
      if code > f.maxCode then sgn n + (if sat then f.maxCode else f.infCode) else sgn n + code

/-- Exact addition. -/
def Fv.add : Fv → Fv → Fv
  | .nan, _ => .nan
  | _, .nan => .nan
  | .inf a, .inf b => if a = b then .inf a else .nan
  | .inf a, _ => .inf a
  | _, .inf b => .inf b
  | .fin na ma ea, .fin nb mb eb =>
    let e := min ea eb
    let x : Int := (ma <<< (ea - e).toNat : Nat)
    let y : Int := (mb <<< (eb - e).toNat : Nat)
    let s := (if na then -x else x) + (if nb then -y else y)
    if s = 0 then .fin (na && nb) 0 e else .fin (decide (s < 0)) s.natAbs e

/-- Negation. -/
def Fv.neg : Fv → Fv
  | .nan => .nan
  | .inf a => .inf (!a)
  | .fin n m e => .fin (!n) m e

/-- Exact multiplication. -/
def Fv.mul : Fv → Fv → Fv
  | .nan, _ => .nan
  | _, .nan => .nan
  | .inf a, .inf b => .inf (a != b)
  | .inf a, .fin nb mb _ => if mb = 0 then .nan else .inf (a != nb)
  | .fin na ma _, .inf b => if ma = 0 then .nan else .inf (na != b)
  | .fin na ma ea, .fin nb mb eb => .fin (na != nb) (ma * mb) (ea + eb)

/-- Division, exact to far more bits than any format holds, with a sticky last bit. -/
def Fv.div : Fv → Fv → Fv
  | .nan, _ => .nan
  | _, .nan => .nan
  | .inf _, .inf _ => .nan
  | .inf a, .fin nb _ _ => .inf (a != nb)
  | .fin na _ _, .inf b => .fin (na != b) 0 0
  | .fin na ma ea, .fin nb mb eb =>
    if mb = 0 then (if ma = 0 then .nan else .inf (na != nb))
    else if ma = 0 then .fin (na != nb) 0 0
    else
      let k := 140 + log2 mb
      let q := (ma <<< k) / mb
      let r := (ma <<< k) % mb
      .fin (na != nb) (2 * q + (if r = 0 then 0 else 1)) (ea - eb - k - 1)

/-- Integer square root by bisection (fuel: bits). -/
def isqrtAux (n : Nat) : Nat → Nat → Nat
  | 0, acc => acc
  | b + 1, acc =>
    let c := acc + 2 ^ b
    isqrtAux n b (if c * c ≤ n then c else acc)

/-- ⌊√n⌋. -/
def isqrt (n : Nat) : Nat := isqrtAux n (log2 n / 2 + 1) 0

/-- Square root with a sticky last bit. -/
def Fv.sqrt : Fv → Fv
  | .nan => .nan
  | .inf n => if n then .nan else .inf false
  | .fin n m e =>
    if m = 0 then .fin n 0 0
    else if n then .nan
    else
      let (m, e) := if e % 2 = 0 then (m, e) else (2 * m, e - 1)
      let k := 140
      let x := m <<< (2 * k)
      let q := isqrt x
      .fin false (2 * q + (if q * q = x then 0 else 1)) (e / 2 - k - 1)

/-- The comparison of two numbers: none when unordered. -/
def Fv.lt (a b : Fv) : Bool :=
  match a, b with
  | .nan, _ => false
  | _, .nan => false
  | .inf na, .inf nb => na && !nb
  | .inf na, .fin _ _ _ => na
  | .fin _ _ _, .inf nb => !nb
  | .fin na ma ea, .fin nb mb eb =>
    let e := min ea eb
    let x : Int := (ma <<< (ea - e).toNat : Nat)
    let y : Int := (mb <<< (eb - e).toNat : Nat)
    decide ((if na then -x else x) < (if nb then -y else y))

/-- Numerically equal. -/
def Fv.eqv (a b : Fv) : Bool := !(a.lt b) && !(b.lt a) && a ≠ .nan && b ≠ .nan

/-- a ≤ b. -/
def Fv.le (a b : Fv) : Bool := a.lt b || a.eqv b

/-- An integer as a value. -/
def Fv.ofInt (i : Int) : Fv := .fin (decide (i < 0)) i.natAbs 0

/-- The value is zero. -/
def Fv.isZero : Fv → Bool
  | .fin _ m _ => decide (m = 0)
  | _ => false

/-- The value is negative (sign set). -/
def Fv.isNeg : Fv → Bool
  | .nan => false
  | .inf n => n
  | .fin n _ _ => n

/-- The value is finite. -/
def Fv.isFin : Fv → Bool
  | .fin _ _ _ => true
  | _ => false

/-- Round to the nearest integer, ties to even; none for NaN. Infinities give a huge magnitude. -/
def Fv.toIntRne : Fv → Option Int
  | .nan => none
  | .inf n => some (if n then -(2 ^ 200 : Nat) else (2 ^ 200 : Nat))
  | .fin n m e =>
    let q : Int := roundShift m e
    some (if n then -q else q)

/-- ⌊v⌋ of a finite value. -/
def Fv.floor : Fv → Int
  | .nan => 0
  | .inf n => if n then -(2 ^ 200 : Nat) else (2 ^ 200 : Nat)
  | .fin n m e =>
    let x : Int := m
    let s := if n then -x else x
    match e with
    | .ofNat k => s * (2 ^ k : Nat)
    | .negSucc k => s / ((2 ^ (k + 1) : Nat) : Int)

/-- ⌊log2 |v|⌋ of a non-zero finite value. -/
def Fv.exp2 : Fv → Int
  | .fin _ m e => (log2 m : Int) + e
  | _ => 0

/-! FP32 and FP64 arithmetic on codes: each operation rounded to nearest even (IEEE 754). -/

/-- The value of an FP32 code. -/
def f32 (v : Nat) : Fv := fp32.decode v
/-- The FP32 code of a value. -/
def to32 (v : Fv) : Nat := fp32.encode false v
def f32Add (a b : Nat) : Nat := to32 ((f32 a).add (f32 b))
def f32Sub (a b : Nat) : Nat := to32 ((f32 a).add (f32 b).neg)
def f32Mul (a b : Nat) : Nat := to32 ((f32 a).mul (f32 b))
def f32Div (a b : Nat) : Nat := to32 ((f32 a).div (f32 b))
def f32Sqrt (a : Nat) : Nat := to32 (f32 a).sqrt
def f32OfInt (i : Int) : Nat := to32 (Fv.ofInt i)
def f32Lt (a b : Nat) : Bool := (f32 a).lt (f32 b)
def f32Le (a b : Nat) : Bool := (f32 a).le (f32 b)

def f64 (v : Nat) : Fv := fp64.decode v
def to64 (v : Fv) : Nat := fp64.encode false v
def f64Add (a b : Nat) : Nat := to64 ((f64 a).add (f64 b))
def f64Sub (a b : Nat) : Nat := to64 ((f64 a).add (f64 b).neg)
def f64Mul (a b : Nat) : Nat := to64 ((f64 a).mul (f64 b))
def f64Div (a b : Nat) : Nat := to64 ((f64 a).div (f64 b))
def f64Sqrt (a : Nat) : Nat := to64 (f64 a).sqrt
def f64OfInt (i : Int) : Nat := to64 (Fv.ofInt i)
def f64Lt (a b : Nat) : Bool := (f64 a).lt (f64 b)
def f64Le (a b : Nat) : Bool := (f64 a).le (f64 b)

/-- FP32 code negated. -/
def f32Neg (a : Nat) : Nat := a ^^^ 0x80000000

/-! Exact fixed-point evaluation: integers in units of 2^-320. -/

/-- Fraction bits of the fixed-point evaluation. -/
def fxBits : Nat := 320
/-- One. -/
def fxOne : Int := (2 ^ fxBits : Nat)

/-- A finite value in fixed point, rounded down. -/
def Fv.toFx : Fv → Int
  | .fin n m e =>
    let s : Int := match e + fxBits with
      | .ofNat k => (m <<< k : Nat)
      | .negSucc k => (m >>> (k + 1) : Nat)
    if n then -s else s
  | _ => 0

/-- A fixed-point number as a value. -/
def ofFx (x : Int) : Fv := .fin (decide (x < 0)) x.natAbs (-(fxBits : Int))

/-- Product and quotient in fixed point. -/
def fxMul (a b : Int) : Int := a * b / fxOne
def fxDiv (a b : Int) : Int := a * fxOne / b

/-- ln 2 = Σ 1 / (n 2^n). -/
def fxLn2 : Int := sumInt ((List.range 320).map (fun i => fxOne / (((i + 1) * 2 ^ (i + 1) : Nat) : Int)))

/-- Taylor series of exp (fuel: terms left), from term `t` of index `n`. -/
def fxExpSeries (r : Int) : Nat → Nat → Int → Int
  | 0, _, _ => 0
  | f + 1, n, t => t + fxExpSeries r f (n + 1) (fxMul t r / ((n + 1 : Nat) : Int))

/-- exp of a fixed-point number of magnitude below 256. -/
def fxExp (x : Int) : Int :=
  let k := (2 * x + fxLn2) / (2 * fxLn2)
  let r := x - k * fxLn2
  let y := fxExpSeries r 70 0 fxOne
  match k with
  | .ofNat n => y * ((2 ^ n : Nat) : Int)
  | .negSucc n => y / ((2 ^ (n + 1) : Nat) : Int)

end Sys2Proof.Machine
end

