-- ==== Sys2Proof/Machine/Tensor.lean ====
section
/-! DEFINITION. Number formats as elements of tensors and their conversion (R324-R334, R346), and tensor descriptors: layout,
checks, addresses, bounds, padding, aliasing and blocks (R344-R358, R200). -/
namespace Sys2Proof.Machine

/-! Formats (R324). -/

/-- Bits of a format code; 0 for an undefined one. -/
def fmtBits (f : Nat) : Nat :=
  match f with
  | 0x00 => 4 | 0x01 => 4 | 0x02 => 8 | 0x03 => 8 | 0x04 => 16 | 0x05 => 16 | 0x06 => 32 | 0x07 => 4 | 0x08 => 6
  | 0x09 => 6 | 0x0A => 8 | 0x0B => 8 | 0x0C => 16 | 0x0D => 16 | 0x0E => 32 | 0x0F => 8 | 0x10 => 10 | 0x11 => 12
  | 0x12 => 14 | 0x13 => 16 | _ => 0

/-- Elements and bytes of a packing group (R346); (1, element bytes) for formats stored in whole bytes. -/
def fmtGroup (f : Nat) : Nat × Nat :=
  match f with
  | 0x00 => (2, 1) | 0x01 => (2, 1) | 0x07 => (2, 1) | 0x08 => (4, 3) | 0x09 => (4, 3)
  | 0x10 => (4, 5) | 0x11 => (2, 3) | 0x12 => (4, 7) | _ => (1, fmtBits f / 8)

/-- The format is stored packed. -/
def fmtPacked (f : Nat) : Bool := decide ((fmtGroup f).1 ≠ 1)

/-- Is it one of RAW10, RAW12, RAW14? -/
def fmtRaw (f : Nat) : Bool := decide (0x10 ≤ f ∧ f ≤ 0x12)

/-- Is it a floating-point format other than E8M0? -/
def floatOf (f : Nat) : Option FloatFmt :=
  match f with
  | 0x07 => some fp4e2m1 | 0x08 => some fp6e2m3 | 0x09 => some fp6e3m2 | 0x0A => some fp8e4m3 | 0x0B => some fp8e5m2
  | 0x0C => some fp16 | 0x0D => some bf16 | 0x0E => some fp32 | _ => none

/-- The element at position `pos` of a packing group's bytes (R328, R329). -/
def elemIn (f : Nat) (g : List Byte) (pos : Nat) : Nat :=
  match f with
  | 0x10 => leAt g pos 1 * 4 + bitsOf (leAt g 4 1) (2 * pos + 1) (2 * pos)
  | 0x11 => leAt g pos 1 * 16 + bitsOf (leAt g 2 1) (4 * pos + 3) (4 * pos)
  | 0x12 => leAt g pos 1 * 64 + bitsOf (leAt g 4 3) (6 * pos + 5) (6 * pos)
  | _ => bitsOf (leNat g) ((pos + 1) * fmtBits f - 1) (pos * fmtBits f)

/-- The packing group's bytes with element `pos` replaced (R328, R350). -/
def elemPut (f : Nat) (g : List Byte) (pos code : Nat) : List Byte :=
  let b := fmtBits f
  let v := leNat g
  let old := bitsOf v ((pos + 1) * b - 1) (pos * b)
  natLE g.length (v - old * 2 ^ (pos * b) + (code % 2 ^ b) * 2 ^ (pos * b))

/-- An element's value: a number or NaN, or FX16's invalid code (R331). -/
inductive Num where
  | v (x : Fv)
  | invalid
  deriving DecidableEq, Repr

/-- The value of an element's code, with binary point `bp` for FX16 (R325, R327, R330, R331). -/
def decodeNum (f bp code : Nat) : Num :=
  match floatOf f with
  | some ff => .v (ff.decode code)
  | none =>
    match f with
    | 0x01 => .v (Fv.ofInt (toSigned 4 code))
    | 0x03 => .v (Fv.ofInt (toSigned 8 code))
    | 0x05 => .v (Fv.ofInt (toSigned 16 code))
    | 0x06 => .v (Fv.ofInt (toSigned 32 code))
    | 0x0F => if code = 0xFF then .v .nan else .v (.fin false 1 ((code : Int) - 127))
    | 0x13 => if code = 0x8000 then .invalid
        else
          let n := toSigned 16 code
          .v (.fin (decide (n < 0)) n.natAbs (-(bp : Int)))
    | _ => .v (Fv.ofInt code)

/-- The range of an integer format. -/
def intRange (f : Nat) : Int × Int :=
  match f with
  | 0x00 => (0, 15) | 0x01 => (-8, 7) | 0x02 => (0, 255) | 0x03 => (-128, 127) | 0x04 => (0, 65535)
  | 0x05 => (-32768, 32767) | 0x06 => (-2147483648, 2147483647) | _ => (0, 0)

/-- A value's code in a format, FX16 with binary point `bp` (R332-R334). -/
def encodeNum (f bp : Nat) (x : Num) : Nat :=
  match floatOf f with
  | some ff =>
    (match x with
    | .v y => ff.encode true y
    | .invalid => if ff.special = .none then ff.maxCode + 2 ^ (ff.eb + ff.fb) else ff.nanCode)
  | none =>
    if f = 0x13 then
      (match x with
      | .invalid => 0x8000
      | .v .nan => 0x8000
      | .v y => match (y.mul (.fin false 1 bp)).toIntRne with
        | some i => fromSigned 16 (clampInt (-32767) 32767 i)
        | none => 0x8000)
    else
      let r := intRange f
      match x with
      | .invalid => fromSigned (fmtBits f) r.1
      | .v y => match y.toIntRne with
        | some i => fromSigned (fmtBits f) (clampInt r.1 r.2 i)
        | none => 0

/-- Conversion of a code from one format to another; exact, code for code, where format and binary point agree. -/
def convertElem (fa bpa fd bpd code : Nat) : Nat :=
  if fa = fd ∧ bpa = bpd then code else encodeNum fd bpd (decodeNum fa bpa code)

/-! Descriptors (R344). -/

/-- A tensor descriptor. -/
structure Desc where
  rank : Nat
  format : Nat
  bpoint : Nat
  flags : Nat
  quay : Nat
  tide : Tide
  padMode : Nat
  base : Nat
  sizes : List Nat
  strides : List Int
  blk : List Nat
  fill : Nat
  padLo : List Nat
  padHi : List Nat
  owner : Nat
  deriving DecidableEq, Repr

/-- A descriptor from its 128 bytes. -/
def Desc.ofBytes (b : List Byte) : Desc where
  rank := leAt b 0 1
  format := leAt b 1 1
  bpoint := leAt b 2 1
  flags := leAt b 3 1
  quay := leAt b 4 1
  tide := BitVec.ofNat 8 (leAt b 5 1)
  padMode := leAt b 6 1
  base := leAt b 8 8
  sizes := (List.range 6).map (fun d => leAt b (0x10 + 4 * d) 4)
  strides := (List.range 6).map (fun d => toSigned 40 (leAt b (0x28 + 5 * d) 5))
  blk := (List.range 6).map (fun d => if d < 4 then leAt b (0x48 + d) 1 else 0)
  fill := leAt b 0x4C 4
  padLo := (List.range 6).map (fun d => leAt b (0x50 + 2 * d) 2)
  padHi := (List.range 6).map (fun d => leAt b (0x5C + 2 * d) 2)
  owner := leAt b 0x68 8

/-- The 128 bytes of a descriptor. -/
def Desc.bytes (x : Desc) : List Byte :=
  natLE 1 x.rank ++ natLE 1 x.format ++ natLE 1 x.bpoint ++ natLE 1 x.flags ++ natLE 1 x.quay ++ natLE 1 x.tide.toNat
    ++ natLE 1 x.padMode ++ natLE 1 0 ++ natLE 8 x.base ++ (x.sizes.map (natLE 4)).flatten
    ++ (x.strides.map (fun s => natLE 5 (fromSigned 40 s))).flatten ++ natLE 2 0 ++ ((x.blk.take 4).map (natLE 1)).flatten
    ++ natLE 4 x.fill ++ (x.padLo.map (natLE 2)).flatten ++ (x.padHi.map (natLE 2)).flatten ++ natLE 8 x.owner
    ++ List.replicate 16 0#8

/-- Size, stride, block and pad in dimension `d`. -/
def Desc.size (x : Desc) (d : Nat) : Nat := x.sizes.getD d 1
def Desc.stride (x : Desc) (d : Nat) : Int := x.strides.getD d 0
def Desc.lo (x : Desc) (d : Nat) : Nat := x.padLo.getD d 0
def Desc.hi (x : Desc) (d : Nat) : Nat := x.padHi.getD d 0
def Desc.dims (x : Desc) : List Nat := List.range x.rank
/-- The base is a tile-store address (R307). -/
def Desc.isTile (x : Desc) : Bool := bitOf x.base 47
/-- Owner table present, strict bounds. -/
def Desc.owned (x : Desc) : Bool := bitOf x.flags 0
def Desc.strict (x : Desc) : Bool := bitOf x.flags 1
/-- Empty: size 0 in a dimension below the rank (R348). -/
def Desc.isEmpty (x : Desc) : Bool := x.dims.any (fun d => x.size d = 0)
/-- How many elements are in bounds. -/
def Desc.count (x : Desc) : Nat := x.dims.foldl (fun a d => a * x.size d) 1

/-- Bytes that R344 reserves or fixes are as it says. -/
def descReserved (b : List Byte) : Bool :=
  let x := Desc.ofBytes b
  leAt b 7 1 = 0 && leAt b 0x46 2 = 0 && leNat (slice b 0x70 16) = 0 && x.base < 2 ^ 48 &&
    (List.range 6).all (fun d => d < x.rank || (x.size d = 1 && x.stride d = 0 && x.blk.getD d 0 = 0 && x.lo d = 0 && x.hi d = 0))

/-- The check of R345 but for quay and tide, on a descriptor's 128 bytes. `tile`: a tile-store base is allowed; `scale`: E8M0
is. -/
def descOk (b : List Byte) (tile scale : Bool) : Bool :=
  let x := Desc.ofBytes b
  let e := (fmtGroup x.format).2
  b.length = 128 && descReserved b && 1 ≤ x.rank && x.rank ≤ 6 && fmtBits x.format ≠ 0 &&
    (if x.format = 0x13 then x.bpoint ≤ 15 else x.bpoint = 0) &&
    x.flags < 4 && x.quay ≤ 3 && x.padMode ≤ 3 &&
    (x.padMode ≠ 0 || ((List.range 6).all (fun d => x.lo d = 0 && x.hi d = 0))) &&
    x.blk.all (fun v => v ≤ 15) && x.fill < 2 ^ fmtBits x.format &&
    (if x.owned then x.owner < 2 ^ 48 && x.owner % 8 = 0 else x.owner = 0) &&
    (x.format ≠ 0x0F || scale) &&
    (fmtPacked x.format || (x.base % e = 0 && x.dims.all (fun d => x.stride d % (e : Int) = 0))) &&
    (x.padMode ≠ 3 || x.dims.all (fun d => x.size d = 0 || (x.lo d ≤ x.size d - 1 && x.hi d ≤ x.size d - 1))) &&
    (!x.isTile || (tile && !x.owned && bitsOf x.base 46 21 = 0))

/-! Addresses (R346, R347). -/

/-- The offset of an index tuple. -/
def Desc.offset (x : Desc) (i : List Int) : Int :=
  sumInt ((enum i).map (fun p => p.2 * x.stride p.1))

/-- Byte address of an element's packing group, relative to nothing, and its position in the group. -/
def Desc.addr (x : Desc) (i : List Int) : Int × Nat :=
  let o := x.offset i
  let (g, n) := fmtGroup x.format
  if fmtPacked x.format then ((x.base : Int) + n * (o / (g : Int)), (o % (g : Int)).toNat)
  else ((x.base : Int) + o, 0)

/-- In bounds (R347). -/
def Desc.inBounds (x : Desc) (i : List Int) : Bool :=
  !x.isEmpty && (enum i).all (fun p => p.1 ≥ x.rank || (0 ≤ p.2 && p.2 < (x.size p.1 : Int)))

/-- In the padded extent. -/
def Desc.inExtent (x : Desc) (i : List Int) : Bool :=
  (enum i).all (fun p => p.1 ≥ x.rank || (-(x.lo p.1 : Int) ≤ p.2 && p.2 < (x.size p.1 + x.hi p.1 : Int)))

/-- reflect-101 of an index into [0, n) (R200). -/
def reflect101 (n : Nat) (i : Int) : Nat :=
  if n ≤ 1 then 0
  else
    let p : Int := 2 * ((n : Int) - 1)
    let r := i % p
    (if r < (n : Int) then r else p - r).toNat

/-- What a read of an index yields (R348, R349). -/
inductive ReadAt where
  /-- The element stored at an in-bounds index; `padded` when the index itself is a pad index. -/
  | elem (i : List Int) (padded : Bool)
  /-- fill, at a pad index. -/
  | fill
  /-- fill, outside the padded extent: counts as out of bounds. -/
  | oob
  deriving DecidableEq, Repr

/-- Classify a read. -/
def Desc.readAt (x : Desc) (i : List Int) : ReadAt :=
  if x.inBounds i then .elem i false
  else if !x.inExtent i then .oob
  else if x.isEmpty then .fill
  else match x.padMode with
    | 2 => .elem ((enum i).map (fun p => if p.1 < x.rank then clampInt 0 ((x.size p.1 : Int) - 1) p.2 else p.2)) true
    | 3 => .elem ((enum i).map (fun p => if p.1 < x.rank then (reflect101 (x.size p.1) p.2 : Int) else p.2)) true
    | _ => .fill

/-- Every index tuple of the given sizes, dimension 0 fastest. -/
def indexTuples : List Nat → List (List Int)
  | [] => [[]]
  | n :: ns => (indexTuples ns).flatMap (fun t => (List.range n).map (fun (i : Nat) => (i : Int) :: t))

/-- Every in-bounds index of a descriptor. -/
def Desc.indices (x : Desc) : List (List Int) := indexTuples (x.dims.map x.size)

/-- Lowest and highest offset of any in-bounds element. -/
def Desc.offsetSpan (x : Desc) : Int × Int :=
  x.dims.foldl (fun a d =>
    let e := ((x.size d : Int) - 1) * x.stride d
    (a.1 + min 0 e, a.2 + max 0 e)) (0, 0)

/-- First byte address and byte count of the run from the lowest to the highest byte of any in-bounds element (R90). -/
def Desc.byteSpan (x : Desc) : Int × Nat :=
  if x.isEmpty then ((x.base : Int), 0)
  else
    let (lo, hi) := x.offsetSpan
    let (g, n) := fmtGroup x.format
    let a := if fmtPacked x.format then (x.base : Int) + n * (lo / (g : Int)) else (x.base : Int) + lo
    let b := if fmtPacked x.format then (x.base : Int) + n * (hi / (g : Int)) + n else (x.base : Int) + hi + n
    (a, (b - a).toNat)

/-! Aliasing (R353). -/

/-- Insert a dimension by |stride|, ties after lower numbers. -/
def insertDim (x : Desc) (d : Nat) : List Nat → List Nat
  | [] => [d]
  | e :: es => if (x.stride d).natAbs < (x.stride e).natAbs then d :: e :: es else e :: insertDim x d es

/-- Dimensions of size over 1, by rising |stride|. -/
def Desc.byStride (x : Desc) : List Nat :=
  (x.dims.filter (fun d => x.size d > 1)).foldl (fun a d => insertDim x d a) []

/-- The pairwise test of R353 along an ordered list of dimensions. -/
def aliasPairs (x : Desc) (e : Nat) : List Nat → Bool
  | a :: b :: t => decide ((x.stride b).natAbs < (x.stride a).natAbs * (x.size a - 1) + e) || aliasPairs x e (b :: t)
  | _ => false

/-- The descriptor, used as a destination, is flagged ALIAS. -/
def Desc.aliased (x : Desc) : Bool :=
  let ds := x.byStride
  let e := if fmtPacked x.format then 1 else (fmtGroup x.format).2
  ds.any (fun d => x.stride d = 0) || (match ds.head? with | some d => decide ((x.stride d).natAbs < e) | none => false)
    || aliasPairs x e ds

/-- Two descriptors' spans from lowest to highest in-bounds element overlap (R353). -/
def spansOverlap (a b : Desc) : Bool :=
  let (la, na) := a.byteSpan
  let (lb, nb) := b.byteSpan
  na ≠ 0 && nb ≠ 0 && decide (la < lb + nb ∧ lb < la + na)

/-! Blocks (R357). -/

/-- Block extent and block count in dimension `d`. -/
def Desc.blockLen (x : Desc) (d : Nat) : Nat := 2 ^ x.blk.getD d 0
def Desc.blockCount (x : Desc) (d : Nat) : Nat := ceilDiv (x.size d) (x.blockLen d)

/-- The block grid's total. -/
def Desc.blocks (x : Desc) : Nat := x.dims.foldl (fun a d => a * x.blockCount d) 1

/-- Block coordinates of a block number. -/
def Desc.blockCoords (x : Desc) (n : Nat) : List Nat :=
  (x.dims.foldl (fun (a : Nat × List Nat) d =>
    let c := max 1 (x.blockCount d)
    (a.1 / c, a.2 ++ [a.1 % c])) (n, [])).2

/-- Block number of an in-bounds index. -/
def Desc.blockOf (x : Desc) (i : List Int) : Nat :=
  (x.dims.foldl (fun (a : Nat × Nat) d =>
    (a.1 + a.2 * ((i.getD d 0).toNat / x.blockLen d), a.2 * x.blockCount d)) (0, 1)).1

/-- The index tuples of a block given by coordinates; those beyond a size are out of bounds. -/
def Desc.blockIndices (x : Desc) (c : List Nat) : List (List Int) :=
  (indexTuples (x.dims.map x.blockLen)).map (fun t =>
    (enum t).map (fun p => p.2 + ((c.getD p.1 0 * x.blockLen p.1 : Nat) : Int)))

/-- The descriptor of an image plane set laid out per R175: `ch` channels of element size `e` at `w` by `h`. -/
def imageDesc (quay : Nat) (tide : Tide) (format bpoint base w h ch e layout : Nat) : Desc where
  rank := 3
  format := format
  bpoint := bpoint
  flags := 0
  quay := quay
  tide := tide
  padMode := 0
  base := base
  sizes := [ch, w, h, 1, 1, 1]
  strides :=
    let pitch := if layout = 0 then ceilDiv (w * ch * e) 64 * 64 else ceilDiv (w * e) 64 * 64
    if layout = 0 then [(e : Int), ((ch * e : Nat) : Int), (pitch : Int), 0, 0, 0]
    else [((pitch * h : Nat) : Int), (e : Int), (pitch : Int), 0, 0, 0]
  blk := [0, 0, 0, 0, 0, 0]
  fill := 0
  padLo := [0, 0, 0, 0, 0, 0]
  padHi := [0, 0, 0, 0, 0, 0]
  owner := 0

end Sys2Proof.Machine
end

