-- ==== Sys2Proof/Machine/Img.lean ====
section
/-! DEFINITION. Images as the vision engines read and write them (R175, R195, R197): a grid of element codes with poison
marks, read through a descriptor and laid out as rows of bytes. -/
namespace Sys2Proof.Machine

/-- One element: its code and whether it is poisoned (R215). -/
structure El where
  code : Nat
  bad : Bool
  deriving DecidableEq, Repr

/-- An image: channel planes of rows of elements. -/
structure Img where
  w : Nat
  h : Nat
  ch : Nat
  fmt : Nat
  px : Array El
  deriving DecidableEq, Repr

/-- Element at channel, column and row. -/
def Img.at (m : Img) (c x y : Nat) : El := m.px.getD ((c * m.h + y) * m.w + x) ⟨0, false⟩

/-- Build an image from a function of channel, column and row. -/
def Img.build (w h ch fmt : Nat) (f : Nat → Nat → Nat → El) : Img where
  w := w
  h := h
  ch := ch
  fmt := fmt
  px := Array.ofFn (n := ch * h * w) (fun i => f (i.val / w / h) (i.val % w) (i.val / w % h))

/-- What a byte of a slot reads as: its value and its line's poison mark. -/
abbrev SrcBytes := Nat → Byte × Bool

/-- A little-endian element of `n` bytes at byte offset `o`. -/
def srcEl (s : SrcBytes) (o n : Nat) : El :=
  let b := (List.range n).map (fun i => s (o + i))
  ⟨leNat (b.map (·.1)), b.any (·.2)⟩

/-- The image a descriptor names, read at slot offsets: `off` is the offset of the descriptor's base in the slot. -/
def Img.ofDesc (d : Desc) (off : Nat) (s : SrcBytes) : Img :=
  let n := (fmtGroup d.format).2
  Img.build (d.size 1) (d.size 2) (d.size 0) d.format (fun c x y =>
    srcEl s ((off : Int) + d.offset [c, x, y]).toNat n)

/-- The check of R195 of a head descriptor against channels, sizes, format and layout: rank 3 and the layout's strides with a
row pitch that is a multiple of 64 and at least the row's bytes. -/
def Desc.matchesImage (d : Desc) (ch w h fmt layout : Nat) : Bool :=
  let e := (fmtGroup fmt).2
  let pitch := (d.stride 2).toNat
  let row := if layout = 0 then w * ch * e else w * e
  d.rank = 3 && d.size 0 = ch && d.size 1 = w && d.size 2 = h && d.format = fmt &&
    decide (d.stride 2 = (pitch : Int)) && pitch % 64 = 0 && row ≤ pitch &&
    (if layout = 0 then decide (d.stride 0 = (e : Int) ∧ d.stride 1 = ((ch * e : Nat) : Int))
     else decide (d.stride 1 = (e : Int) ∧ d.stride 0 = ((pitch * h : Nat) : Int)))

/-- Row pitch of R175. -/
def rowPitch (w ch e layout : Nat) : Nat := ceilDiv (if layout = 0 then w * ch * e else w * e) 64 * 64

/-- Data bytes of an image laid out per R175. -/
def imageBytes (w h ch e layout : Nat) : Nat := h * rowPitch w ch e layout * (if layout = 0 then 1 else ch)

/-- A run of bytes to be written at a slot offset, and whether it is poisoned. -/
structure Chunk where
  off : Nat
  bytes : List Byte
  bad : Bool
  deriving DecidableEq, Repr

/-- Pad the row's bytes with zeros to the pitch. -/
def padTo (n : Nat) (bs : List Byte) : List Byte := bs ++ List.replicate (n - bs.length) 0#8

/-- One row of elements as chunks of one 64-byte line each, at slot offset `o`: a line is poisoned if any of its elements
is. -/
def rowChunks (o pitch e : Nat) (els : List El) : List Chunk :=
  let bs := padTo pitch (els.flatMap (fun x => natLE e x.code))
  (List.range (pitch / 64)).map (fun i =>
    let per := 64 / e
    ⟨o + 64 * i, (bs.drop (64 * i)).take 64, ((els.drop (per * i)).take (per + 1)).any (·.bad)⟩)

/-- Row `y` of an image whose data begin at slot offset `o`, per R175. -/
def Img.rowOut (m : Img) (o layout y : Nat) : List Chunk :=
  let e := (fmtGroup m.fmt).2
  let pitch := rowPitch m.w m.ch e layout
  if layout = 0 then
    rowChunks (o + y * pitch) pitch e ((List.range m.w).flatMap (fun x => (List.range m.ch).map (fun c => m.at c x y)))
  else (List.range m.ch).flatMap (fun c =>
    rowChunks (o + (c * m.h + y) * pitch) pitch e ((List.range m.w).map (fun x => m.at c x y)))

/-- The whole image as chunks. -/
def Img.out (m : Img) (o layout : Nat) : List Chunk := (List.range m.h).flatMap (fun y => m.rowOut o layout y)

/-- An image has a poisoned element. -/
def Img.anyBad (m : Img) : Bool := m.px.any (·.bad)

end Sys2Proof.Machine
end

