-- ==== Sys2Proof/Machine/PyrWarp.lean ====
section
/-! DEFINITION. What the pyramid and warp engines compute (R198-R213): Gaussian and Laplacian levels, source
coordinates, interpolation, borders and the tile footprint. -/
namespace Sys2Proof.Machine

/-! Pyramids (R198-R203). -/

/-- Level sizes from level 0 (R198). -/
def pyrSizes : Nat → Nat → Nat → List (Nat × Nat)
  | 0, _, _ => []
  | n + 1, w, h => (w, h) :: pyrSizes n (ceilDiv w 2) (ceilDiv h 2)

/-- Index after the border rule; none where the sample is border_value (R200). -/
def borderIdx (mode n : Nat) (i : Int) : Option Nat :=
  if 0 ≤ i ∧ i < n then some i.toNat
  else match mode with
    | 0 => some (clampInt 0 ((n : Int) - 1) i).toNat
    | 1 => some (if i < 0 then (-i).toNat else (2 * ((n : Int) - 1) - i).toNat)
    | _ => none

/-- A level's sample after the border rule (R200). -/
def Img.bordered (m : Img) (mode bv c : Nat) (x y : Int) : El :=
  match borderIdx mode m.w x, borderIdx mode m.h y with
  | some i, some j => m.at c i j
  | _, _ => ⟨bv, false⟩

/-- A pyramid job record (R217). -/
structure PyrJob where
  bytes : List Byte
  deriving DecidableEq, Repr

def PyrJob.u (j : PyrJob) (o n : Nat) : Nat := leAt j.bytes o n
def PyrJob.stage (j : PyrJob) : Nat := j.u 0 2
def PyrJob.levels (j : PyrJob) : Nat := j.u 2 1
def PyrJob.flags (j : PyrJob) : Nat := j.u 3 1
def PyrJob.border (j : PyrJob) : Nat := j.u 4 1
def PyrJob.lapFormat (j : PyrJob) : Nat := j.u 5 1
/-- Kernel weight of tap offset `m` in -2..2 (R199). -/
def PyrJob.k (j : PyrJob) (m : Int) : Nat := j.u (6 + 2 * m.natAbs) 2
def PyrJob.bv (j : PyrJob) : Nat := j.u 0x0C 2
def PyrJob.inW (j : PyrJob) : Nat := j.u 0x10 2
def PyrJob.inH (j : PyrJob) : Nat := j.u 0x12 2
def PyrJob.fmt (j : PyrJob) : Nat := j.u 0x14 1
def PyrJob.ch (j : PyrJob) : Nat := j.u 0x15 1
def PyrJob.layout (j : PyrJob) : Nat := j.u 0x16 1

/-- FP32 code of an element of an FP16 image. -/
def el32 (e : El) : Nat := to32 (fp16.decode e.code)

/-- FP16 code of an FP32 code, saturating (R332). -/
def fp16Of32 (v : Nat) : Nat := fp16.encode true (f32 v)

/-- FP32 weight k ÷ 256. -/
def weight32 (k : Nat) : Nat := to32 (.fin false k (-8))

/-- Left-to-right FP32 sum of products (R199). -/
def sum32 (xs : List (Nat × Nat)) : Nat :=
  match xs with
  | [] => 0
  | (a, b) :: t => t.foldl (fun acc p => f32Add acc (f32Mul p.1 p.2)) (f32Mul a b)

/-- Tap offsets -2 to 2. -/
def taps5 : List Int := [-2, -1, 0, 1, 2]

/-- The next Gaussian level (R199). -/
def PyrJob.down (j : PyrJob) (g : Img) : Img :=
  Img.build (ceilDiv g.w 2) (ceilDiv g.h 2) g.ch g.fmt (fun c x y =>
    let v := fun (m n : Int) => g.bordered j.border j.bv c (2 * (x : Int) + m) (2 * (y : Int) + n)
    let bad := taps5.any (fun n => taps5.any (fun m => (v m n).bad))
    if g.fmt = 0x0C then
      let h := fun n => sum32 (taps5.map (fun m => (weight32 (j.k m), el32 (v m n))))
      ⟨fp16Of32 (sum32 (taps5.map (fun n => (weight32 (j.k n), h n)))), bad⟩
    else
      let h := fun n => sumNat (taps5.map (fun m => j.k m * (v m n).code))
      ⟨(sumNat (taps5.map (fun n => j.k n * h n)) + 32768) >>> 16, bad⟩)

/-- Gaussian levels from level 0 (R198, R199). -/
def PyrJob.gaussians (j : PyrJob) : Nat → Img → List Img
  | 0, _ => []
  | n + 1, g => g :: j.gaussians n (j.down g)

/-- Tap offsets with x - m even. -/
def evenTaps (x : Nat) : List Int := taps5.filter (fun m => ((x : Int) - m) % 2 = 0)

/-- The stored code of an integer Laplacian value (R202). -/
def lapCode (lapFormat : Nat) (v : Int) : Nat :=
  if lapFormat = 0x05 then fromSigned 16 (clampInt (-32768) 32767 v) else fromSigned 32 v

/-- A Laplacian level from a level and the next one (R201, R202). -/
def PyrJob.laplacian (j : PyrJob) (g next : Img) : Img :=
  Img.build g.w g.h g.ch j.lapFormat (fun c x y =>
    let ms := evenTaps x
    let ns := evenTaps y
    let v := fun (m n : Int) => next.bordered j.border j.bv c (((x : Int) - m) / 2) (((y : Int) - n) / 2)
    let own := g.at c x y
    let bad := own.bad || ns.any (fun n => ms.any (fun m => (v m n).bad))
    if g.fmt = 0x0C then
      let h := fun n => sum32 (ms.map (fun m => (weight32 (j.k m), el32 (v m n))))
      let s := sum32 (ns.map (fun n => (weight32 (j.k n), h n)))
      ⟨fp16Of32 (f32Sub (el32 own) (f32Mul (f32OfInt 4) s)), bad⟩
    else
      let s := sumNat (ns.map (fun n => sumNat (ms.map (fun m => j.k m * j.k n * (v m n).code))))
      ⟨lapCode j.lapFormat ((own.code : Int) - (((4 * s + 32768) >>> 16 : Nat) : Int)), bad⟩)

/-- The top Laplacian level: the Gaussian itself in lap_format (R201). -/
def PyrJob.lapTop (j : PyrJob) (g : Img) : Img :=
  Img.build g.w g.h g.ch j.lapFormat (fun c x y =>
    let own := g.at c x y
    if g.fmt = 0x0C then own else ⟨lapCode j.lapFormat own.code, own.bad⟩)

/-- Laplacian levels of a list of Gaussian levels. -/
def PyrJob.laplacians (j : PyrJob) : List Img → List Img
  | [] => []
  | [g] => [j.lapTop g]
  | g :: n :: t => j.laplacian g n :: j.laplacians (n :: t)

/-- The stored levels of each output, in out[] order (R203). -/
def PyrJob.outputs (j : PyrJob) (input : Img) : List (List Img) :=
  let gs := j.gaussians j.levels input
  (if bitOf j.flags 0 then [if bitOf j.flags 2 then gs else gs.drop 1] else [])
    ++ (if bitOf j.flags 1 then [j.laplacians gs] else [])

/-- Data bytes of an image. -/
def Img.dataBytes (m : Img) (layout : Nat) : Nat := imageBytes m.w m.h m.ch (fmtGroup m.fmt).2 layout

/-- Slot offsets of the data of each stored level (R203). -/
def levelOffsets (layout : Nat) : Nat → List Img → List Nat
  | _, [] => []
  | o, m :: t => o :: levelOffsets layout (o + ceilDiv (m.dataBytes layout) 4096 * 4096) t

/-- A pyramid output slot: the head with a descriptor per level, unused places zero, and the data (R203). -/
def pyrSlot (quay : Nat) (tide : Tide) (slotAddr layout : Nat) (ls : List Img) : List Chunk :=
  let offs := levelOffsets layout 4096 ls
  let head := (ls.zip offs).flatMap (fun p =>
    (imageDesc quay tide p.1.fmt 0 (slotAddr + p.2) p.1.w p.1.h p.1.ch (fmtGroup p.1.fmt).2 layout).bytes)
  ⟨0, padTo 1024 head, false⟩ :: (ls.zip offs).flatMap (fun p => p.1.out p.2 layout)

/-! Warping (R206-R213). -/

/-- A warp job record (R218). -/
structure WarpJob where
  bytes : List Byte
  deriving DecidableEq, Repr

def WarpJob.u (j : WarpJob) (o n : Nat) : Nat := leAt j.bytes o n
def WarpJob.stage (j : WarpJob) : Nat := j.u 0 2
def WarpJob.mode (j : WarpJob) : Nat := j.u 2 1
def WarpJob.interp (j : WarpJob) : Nat := j.u 3 1
def WarpJob.border (j : WarpJob) : Nat := j.u 4 1
def WarpJob.cellLog2 (j : WarpJob) : Nat := j.u 5 1
def WarpJob.mask (j : WarpJob) : Bool := bitOf (j.u 6 1) 0
def WarpJob.inW (j : WarpJob) : Nat := j.u 8 2
def WarpJob.inH (j : WarpJob) : Nat := j.u 0x0A 2
def WarpJob.fmt (j : WarpJob) : Nat := j.u 0x0C 1
def WarpJob.ch (j : WarpJob) : Nat := j.u 0x0D 1
def WarpJob.layout (j : WarpJob) : Nat := j.u 0x0E 1
def WarpJob.outW (j : WarpJob) : Nat := j.u 0x10 2
def WarpJob.outH (j : WarpJob) : Nat := j.u 0x12 2
def WarpJob.fill (j : WarpJob) (c : Nat) : Nat := j.u (0x14 + 2 * c) 2
def WarpJob.h (j : WarpJob) (i : Nat) : Nat := j.u (0x20 + 4 * i) 4
/-- Distortion coefficients in the record's order k1, k2, p1, p2, k3. -/
def WarpJob.k1 (j : WarpJob) : Nat := j.u 0x44 4
def WarpJob.k2 (j : WarpJob) : Nat := j.u 0x48 4
def WarpJob.p1 (j : WarpJob) : Nat := j.u 0x4C 4
def WarpJob.p2 (j : WarpJob) : Nat := j.u 0x50 4
def WarpJob.k3 (j : WarpJob) : Nat := j.u 0x54 4
def WarpJob.fx (j : WarpJob) : Nat := j.u 0x58 4
def WarpJob.fy (j : WarpJob) : Nat := j.u 0x5C 4
def WarpJob.cx (j : WarpJob) : Nat := j.u 0x60 4
def WarpJob.cy (j : WarpJob) : Nat := j.u 0x64 4

/-- Mesh columns and rows (R207). -/
def WarpJob.gridW (j : WarpJob) : Nat := ceilDiv j.outW (2 ^ j.cellLog2) + 1
def WarpJob.gridH (j : WarpJob) : Nat := ceilDiv j.outH (2 ^ j.cellLog2) + 1

/-- A source coordinate in 1/256 pixel, or outside; with the poison of what it was computed from. -/
structure SrcCoord where
  xy : Option (Int × Int)
  /-- Outside because a mesh entry is marked (R207, R220). -/
  meshMarked : Bool
  bad : Bool
  deriving DecidableEq, Repr

/-- ⌊256 v + 0.5⌋, or none when v is not finite or too large (R209). -/
def quant256 (v : Nat) : Option Int :=
  let x := f32 v
  if !x.isFin || (Fv.le (.fin false 32768 0) (match x with | .fin _ m e => .fin false m e | y => y)) then none
  else some ((x.mul (.fin false 256 0)).add (.fin false 1 (-1))).floor

/-- Both coordinates quantised (R209). -/
def quantXY (xs ys : Nat) : Option (Int × Int) :=
  match quant256 xs, quant256 ys with
  | some x, some y => some (x, y)
  | _, _ => none

/-- h[i]*x + h[i+1]*y + h[i+2] (R206). -/
def WarpJob.homog (j : WarpJob) (i x y : Nat) : Nat :=
  f32Add (f32Add (f32Mul (j.h i) x) (f32Mul (j.h (i + 1)) y)) (j.h (i + 2))

/-- The mesh coordinate of one axis (R207). -/
def meshCoord (c u v s : Nat) (a b d e : Int) : Int :=
  asrInt ((((c - u) * (c - v) : Nat) : Int) * a + ((u * (c - v) : Nat) : Int) * b + (((c - u) * v : Nat) : Int) * d
    + ((u * v : Nat) : Int) * e + ((c * c / 2 : Nat) : Int)) (2 * s)
where
  /-- Arithmetic shift right. -/
  asrInt (i : Int) (n : Nat) : Int := i / ((2 ^ n : Nat) : Int)

/-- The source coordinate of output pixel (x, y) (R206-R209). -/
def WarpJob.coord (j : WarpJob) (mesh : SrcBytes) (x y : Nat) : SrcCoord :=
  let fx := f32OfInt x
  let fy := f32OfInt y
  match j.mode with
  | 1 =>
    let s := j.cellLog2
    let c := 2 ^ s
    let i := x / c
    let k := y / c
    let ent := fun (i k : Nat) => (srcEl mesh ((k * j.gridW + i) * 8) 4, srcEl mesh ((k * j.gridW + i) * 8 + 4) 4)
    let es := [ent i k, ent (i + 1) k, ent i (k + 1), ent (i + 1) (k + 1)]
    let bad := es.any (fun e => e.1.bad || e.2.bad)
    if es.any (fun e => e.1.code = 0x80000000) then ⟨none, true, bad⟩
    else
      let sg := fun (e : El) => toSigned 32 e.code
      match es with
      | [a, b, d, e] =>
        let xq := meshCoord c (x % c) (y % c) s (sg a.1) (sg b.1) (sg d.1) (sg e.1)
        let yq := meshCoord c (x % c) (y % c) s (sg a.2) (sg b.2) (sg d.2) (sg e.2)
        if xq.natAbs ≥ 8388608 ∨ yq.natAbs ≥ 8388608 then ⟨none, false, bad⟩ else ⟨some (xq, yq), false, bad⟩
      | _ => ⟨none, false, bad⟩
  | m =>
    let X := j.homog 0 fx fy
    let Y := j.homog 3 fx fy
    let Z := j.homog 6 fx fy
    if f32Le Z (to32 (.fin false 1 (-20))) then ⟨none, false, false⟩
    else
      let a := f32Div X Z
      let b := f32Div Y Z
      if m = 0 then ⟨quantXY a b, false, false⟩
      else
        let r2 := f32Add (f32Mul a a) (f32Mul b b)
        let two := f32OfInt 2
        let rad := f32Add (f32OfInt 1) (f32Mul r2 (f32Add j.k1 (f32Mul r2 (f32Add j.k2 (f32Mul r2 j.k3)))))
        let ad := f32Add (f32Add (f32Mul a rad) (f32Mul (f32Mul (f32Mul two j.p1) a) b))
          (f32Mul j.p2 (f32Add r2 (f32Mul (f32Mul two a) a)))
        let bd := f32Add (f32Add (f32Mul b rad) (f32Mul j.p1 (f32Add r2 (f32Mul (f32Mul two b) b))))
          (f32Mul (f32Mul (f32Mul two j.p2) a) b)
        ⟨quantXY (f32Add (f32Mul j.fx ad) j.cx) (f32Add (f32Mul j.fy bd) j.cy), false, false⟩

/-- n ÷ d rounded half away from zero, d > 0. -/
def roundAway (n : Int) (d : Nat) : Int :=
  let q := (2 * n.natAbs + d) / (2 * d)
  if n < 0 then -(q : Int) else q

/-- Keys cubic with a = -0.5 at distance n ÷ 256, in units of 1/4,096 (R210). -/
def keys (n : Nat) : Int :=
  let t : Int := n
  if n ≤ 256 then roundAway (3 * t ^ 3 - 1280 * t ^ 2 + 2 * 2 ^ 24) 8192
  else roundAway (-(t ^ 3) + 1280 * t ^ 2 - 8 * 65536 * t + 4 * 2 ^ 24) 8192

/-- The four bicubic weights at phase f, adjusted to sum to 4,096 (R210). -/
def bicubic (f : Nat) : List Int :=
  let w := [keys (256 + f), keys f, keys (256 - f), keys (512 - f)]
  let d := 4096 - sumInt w
  modAt w (if f < 128 then 1 else 2) (· + d)

/-- Taps and weights along one axis: position and weight (R210). -/
def warpTaps (interp : Nat) (q : Int) : List (Int × Int) :=
  let i := q / 256
  let f := (q % 256).toNat
  match interp with
  | 0 => [(if f ≥ 128 then i + 1 else i, 1)]
  | 1 => [(i, 256 - (f : Int)), (i + 1, (f : Int))]
  | _ => (enum (bicubic f)).map (fun p => (i - 1 + (p.1 : Int), p.2))

/-- One output pixel: its channels, whether it is in range and whether a marked mesh entry put it outside. -/
structure WarpPix where
  els : List El
  inRange : Bool
  meshMarked : Bool
  /-- Source elements touched: column and row, for the footprint (R213). -/
  taps : List (Nat × Nat)
  deriving DecidableEq, Repr

/-- Signed weight as an FP32 code in units of 1 ÷ 2^s. -/
def signedWeight32 (w : Int) (s : Nat) : Nat := to32 (.fin (decide (w < 0)) w.natAbs (-(s : Int)))

/-- Apply the kernel in one channel (R210). -/
def WarpJob.interpolate (j : WarpJob) (src : Img) (c : Nat) (tx ty : List (Int × Int)) : El :=
  let v := fun (x y : Int) => src.at c (clampInt 0 ((src.w : Int) - 1) x).toNat (clampInt 0 ((src.h : Int) - 1) y).toNat
  let bad := ty.any (fun b => tx.any (fun a => (v a.1 b.1).bad))
  if j.interp = 0 then
    (match tx, ty with | a :: _, b :: _ => v a.1 b.1 | _, _ => ⟨0, false⟩)
  else
    let sh := if j.interp = 1 then 8 else 12
    if j.fmt = 0x0C then
      let row := fun (b : Int) => sum32 (tx.map (fun a => (signedWeight32 a.2 sh, el32 (v a.1 b))))
      ⟨fp16Of32 (sum32 (ty.map (fun b => (signedWeight32 b.2 sh, row b.1)))), bad⟩
    else
      let s := sumInt (ty.map (fun b => b.2 * sumInt (tx.map (fun a => a.2 * ((v a.1 b.1).code : Int)))))
      let r := (s + (2 ^ (2 * sh - 1) : Nat)) / ((2 ^ (2 * sh) : Nat) : Int)
      ⟨(clampInt 0 (if j.fmt = 0x02 then 255 else 65535) r).toNat, bad⟩

/-- Output pixel (x, y) (R206-R211). -/
def WarpJob.pixel (j : WarpJob) (src : Img) (mesh : SrcBytes) (x y : Nat) : WarpPix :=
  let co := j.coord mesh x y
  let filled := (List.range j.ch).map (fun c => (⟨j.fill c, co.bad⟩ : El))
  match co.xy with
  | none => ⟨filled, false, co.meshMarked, []⟩
  | some (xq, yq) =>
    let tx := warpTaps j.interp xq
    let ty := warpTaps j.interp yq
    let ok := tx.all (fun a => 0 ≤ a.1 && a.1 < (src.w : Int)) && ty.all (fun b => 0 ≤ b.1 && b.1 < (src.h : Int))
    if !ok && j.border = 0 then ⟨filled, false, false, []⟩
    else
      ⟨(List.range j.ch).map (fun c => let e := j.interpolate src c tx ty; ⟨e.code, e.bad || co.bad⟩), ok, false,
        ty.flatMap (fun b => tx.map (fun a =>
          ((clampInt 0 ((src.w : Int) - 1) a.1).toNat, (clampInt 0 ((src.h : Int) - 1) b.1).toNat)))⟩

/-- The rows of band b (R212). -/
def WarpJob.bandRows (j : WarpJob) (b : Nat) : List Nat :=
  (List.range (min 16 (j.outH - 16 * b))).map (· + 16 * b)

/-- Bands of the job. -/
def WarpJob.bands (j : WarpJob) : Nat := ceilDiv j.outH 16

/-- The tiles that a pixel touches: plane, row group and 64-byte column group (R213). -/
def WarpJob.tilesOf (j : WarpJob) (p : WarpPix) : List (Nat × Nat × Nat) :=
  let e := (fmtGroup j.fmt).2
  p.taps.flatMap (fun t => (List.range j.ch).map (fun c =>
    if j.layout = 0 then (0, t.2 / 8, (t.1 * j.ch + c) * e / 64) else (c, t.2 / 8, t.1 * e / 64)))

/-- The list without repeats. -/
def dedup {α : Type} [DecidableEq α] (xs : List α) : List α := xs.foldl (fun a x => addNew x a) []

/-- The most tiles a band fetches: its footprint when it fits the cache, else the sum over its 16-column blocks (R213). -/
def WarpJob.maxFetch (j : WarpJob) (rows : List (List WarpPix)) : Nat :=
  let f := (dedup (rows.flatMap (fun r => r.flatMap j.tilesOf))).length
  if f ≤ 256 then f
  else sumNat ((List.range (ceilDiv j.outW 16)).map (fun b =>
    (dedup (rows.flatMap (fun r => ((r.drop (16 * b)).take 16).flatMap j.tilesOf))).length))

/-- The chunks of an output row whose data begin at slot offset 4,096 (R175). -/
def WarpJob.rowOut (j : WarpJob) (y : Nat) (row : List WarpPix) : List Chunk :=
  let e := (fmtGroup j.fmt).2
  let pitch := rowPitch j.outW j.ch e j.layout
  if j.layout = 0 then rowChunks (4096 + y * pitch) pitch e (row.flatMap (·.els))
  else (List.range j.ch).flatMap (fun c =>
    rowChunks (4096 + (c * j.outH + y) * pitch) pitch e (row.map (fun p => p.els.getD c ⟨0, false⟩)))

/-- The chunks of a mask row (R211). -/
def WarpJob.maskOut (j : WarpJob) (y : Nat) (row : List WarpPix) : List Chunk :=
  let pitch := rowPitch j.outW 1 1 0
  rowChunks (4096 + y * pitch) pitch 1 (row.map (fun p => ⟨if p.inRange then 255 else 0, p.els.any (·.bad)⟩))

end Sys2Proof.Machine
end

