-- ==== Sys2Proof/Machine/StereoFlow.lean ====
section
/-! DEFINITION. What the stereo and optical-flow engines compute (R223-R242): census signatures, semi-global matching and
dense pyramidal flow. -/
namespace Sys2Proof.Machine

/-- Why a pixel is invalid: the confidence codes of R223. -/
inductive Why where
  | consistency | ambiguous | border | noHistory
  deriving DecidableEq, Repr

def Why.code : Why → Nat
  | .consistency => 0 | .ambiguous => 1 | .border => 2 | .noHistory => 3

/-- Census window half-sizes in columns and rows (R224). -/
def censusHalf (c : Nat) : Nat × Nat :=
  match c with | 0 => (2, 2) | 1 => (3, 3) | _ => (4, 3)

/-- Bits of a signature (R224). -/
def censusBits (c : Nat) : Nat :=
  match c with | 0 => 24 | 1 => 48 | _ => 62

/-- A sample of channel 0, moved to the nearest in-range pixel. -/
def Img.near (m : Img) (x y : Int) : El :=
  m.at 0 (clampInt 0 ((m.w : Int) - 1) x).toNat (clampInt 0 ((m.h : Int) - 1) y).toNat

/-- Window offsets in raster order, the centre excluded. -/
def censusOffsets (c : Nat) : List (Int × Int) :=
  let (hx, hy) := censusHalf c
  ((List.range (2 * hy + 1)).flatMap (fun j => (List.range (2 * hx + 1)).map (fun i =>
    ((i : Int) - hx, (j : Int) - hy)))).filter (fun p => p ≠ (0, 0))

/-- The census signature of a pixel (R224). -/
def Img.census (m : Img) (c : Nat) (x y : Nat) : El :=
  let o := m.at 0 x y
  let ns := (censusOffsets c).map (fun p => m.near ((x : Int) + p.1) ((y : Int) + p.2))
  ⟨sumNat ((enum ns).map (fun e => bitAt (decide (e.2.code < o.code)) e.1)), o.bad || ns.any (·.bad)⟩

/-- Every signature of an image. -/
def Img.censusAll (m : Img) (c : Nat) : Img := Img.build m.w m.h 1 0 (fun _ x y => m.census c x y)

/-- Ones in a number of up to 64 bits. -/
def popcount (n : Nat) : Nat := ((List.range 64).filter (fun i => n.testBit i)).length

/-- Hamming distance H (R224). -/
def hamming (a b : Nat) : Nat := popcount (a ^^^ b)

/-- The least of a list, 0 when empty. -/
def minNat (xs : List Nat) : Nat :=
  match xs with
  | [] => 0
  | x :: t => t.foldl min x

/-- Index of the least element, ties to the lower (R228). -/
def argMin (xs : List Nat) : Nat :=
  ((enum xs).foldl (fun (a : Nat × Nat) e => if e.2 < a.2 then (e.1, e.2) else a) (0, xs.headD 0)).1

/-- n ÷ d rounded half away from zero and clamped to ±16, 0 where d is 0 (R228). -/
def subOffset (n d : Int) : Int :=
  if d = 0 then 0
  else clampInt (-16) 16 (if d < 0 then roundAway (-n) d.natAbs else roundAway n d.natAbs)

/-- One pixel of a value plane: the channel codes, the confidence or reason, poison. -/
structure ValuePix where
  vals : List Nat
  conf : Nat
  why : Option Why
  bad : Bool
  deriving DecidableEq, Repr

/-- An invalid pixel of `n` channels (R223). -/
def ValuePix.invalid (n : Nat) (y : Why) (bad : Bool) : ValuePix := ⟨List.replicate n 0x8000, y.code, some y, bad⟩

/-! Semi-global matching (R226-R230). -/

/-- A STEREO job record (R234). -/
structure StereoJob where
  bytes : List Byte
  deriving DecidableEq, Repr

def StereoJob.u (j : StereoJob) (o n : Nat) : Nat := leAt j.bytes o n
def StereoJob.stage (j : StereoJob) : Nat := j.u 0 2
def StereoJob.paths (j : StereoJob) : Nat := j.u 2 1
def StereoJob.census (j : StereoJob) : Nat := j.u 3 1
def StereoJob.dCount (j : StereoJob) : Nat := j.u 4 2
def StereoJob.dMin (j : StereoJob) : Int := toSigned 16 (j.u 6 2)
def StereoJob.p1 (j : StereoJob) : Nat := j.u 8 2
def StereoJob.p2 (j : StereoJob) : Nat := j.u 0x0A 2
def StereoJob.p2Shift (j : StereoJob) : Nat := j.u 0x0C 1
def StereoJob.subpixel (j : StereoJob) : Nat := j.u 0x0D 1
def StereoJob.uniq (j : StereoJob) : Nat := j.u 0x0E 1
def StereoJob.lrTol (j : StereoJob) : Nat := j.u 0x0F 1
def StereoJob.confOut (j : StereoJob) : Bool := bitOf (j.u 0x10 1) 0
def StereoJob.adaptive (j : StereoJob) : Bool := bitOf (j.u 0x10 1) 1
def StereoJob.fmt (j : StereoJob) : Nat := j.u 0x11 1
def StereoJob.layout (j : StereoJob) : Nat := j.u 0x12 1
def StereoJob.w (j : StereoJob) : Nat := j.u 0x14 2
def StereoJob.h (j : StereoJob) : Nat := j.u 0x16 2

/-- Path directions (R227). -/
def StereoJob.dirs (j : StereoJob) : List (Int × Nat) :=
  [(1, 0), (0, 1), (1, 1), (-1, 1)] ++ (if j.paths = 8 then [(2, 1), (-2, 1), (1, 2), (-1, 2)] else [])

/-- The costs of a pixel over its disparities, and poison. -/
structure CostVec where
  c : List Nat
  bad : Bool
  deriving DecidableEq, Repr

/-- C(x, y, i) of a pixel (R226). -/
def StereoJob.cost (j : StereoJob) (cl cr : Img) (x y : Nat) : CostVec :=
  let a := cl.at 0 x y
  let bs := (List.range j.dCount).map (fun (i : Nat) =>
    let xr := (x : Int) - (j.dMin + i)
    if 0 ≤ xr ∧ xr < (j.w : Int) then
      let b := cr.at 0 xr.toNat y
      (hamming a.code b.code, b.bad)
    else (censusBits j.census, false))
  ⟨bs.map (·.1), a.bad || bs.any (·.2)⟩

/-- One aggregation step (R227). -/
def sgmStep (p1 p2e : Nat) (c : CostVec) : Option CostVec → CostVec
  | none => c
  | some pr =>
    let m := minNat pr.c
    let n := pr.c.length
    ⟨(enum c.c).map (fun e =>
      let i := e.1
      let base := min (pr.c.getD i 0) (m + p2e)
      let lo := if i = 0 then base else min base (pr.c.getD (i - 1) 0 + p1)
      let hi := if i + 1 < n then min lo (pr.c.getD (i + 1) 0 + p1) else lo
      e.2 + hi - m), c.bad || pr.bad⟩

/-- P2e for predecessor sample difference (R227). -/
def StereoJob.p2e (j : StereoJob) (a b : Nat) : Nat :=
  if j.adaptive then max j.p1 (j.p2 / (1 + ((if a ≤ b then b - a else a - b) >>> j.p2Shift))) else j.p2

/-- The left sample I (R227). -/
def StereoJob.sample (j : StereoJob) (l : Img) (x y : Nat) : Nat :=
  let v := (l.at 0 x y).code
  if j.fmt = 0x04 then v >>> 8 else v

/-- One path's row of L_r given the row at the predecessor's row (R227). -/
def StereoJob.pathRow (j : StereoJob) (l : Img) (y : Nat) (costs : List CostVec) (dx : Int) (dy : Nat)
    (above : Option (List CostVec)) : List CostVec :=
  (enum costs).foldl (fun acc e =>
    let xp := (e.1 : Int) - dx
    let prev : Option CostVec :=
      if xp < 0 ∨ xp ≥ (j.w : Int) then none
      else if dy = 0 then acc[xp.toNat]?
      else match above with
        | some r => r[xp.toNat]?
        | none => none
    let p2e := if prev.isSome then j.p2e (j.sample l e.1 y) (j.sample l xp.toNat (y - dy)) else j.p2
    acc ++ [sgmStep j.p1 p2e e.2 prev]) []

/-- Every row's S values: `hist` holds each path's rows so far, latest first (R227). -/
def StereoJob.rows (j : StereoJob) (l cl cr : Img) : List (List CostVec) :=
  ((List.range j.h).foldl (fun (a : List (List (List CostVec)) × List (List CostVec)) y =>
    let costs := (List.range j.w).map (fun x => j.cost cl cr x y)
    let ls := (j.dirs.zip a.1).map (fun p => j.pathRow l y costs p.1.1 p.1.2 (p.2[p.1.2 - 1]?))
    let sums := (List.range j.w).map (fun x =>
      let vs := ls.filterMap (fun r => r[x]?)
      (⟨(List.range j.dCount).map (fun i => sumNat (vs.map (fun v => v.c.getD i 0))), vs.any (·.bad)⟩ : CostVec))
    ((a.1.zip ls).map (fun p => (p.2 :: p.1).take 2), a.2 ++ [sums]))
    (j.dirs.map (fun _ => []), [])).2

/-- dR(q) of a row's S values, and poison of what it read (R230). -/
def StereoJob.rightDisp (j : StereoJob) (row : List CostVec) (q : Nat) : Option Int × Bool :=
  let cands := (List.range j.dCount).filterMap (fun (i : Nat) =>
    let d := j.dMin + i
    let x := (q : Int) + d
    if 0 ≤ x ∧ x < (j.w : Int) then (row[x.toNat]?).map (fun v => (d, v.c.getD i 0, v.bad)) else none)
  match cands with
  | [] => (none, false)
  | a :: t => (some (t.foldl (fun b e => if e.2.1 < b.2.1 then e else b) a).1, cands.any (fun e => e.2.2))

/-- The subpixel offset of S-, S0, S+ under a method (R228). -/
def subpix (method : Nat) (sm s0 sp : Int) : Int :=
  match method with
  | 1 => subOffset (32 * (sm - sp)) (2 * (sm + sp - 2 * s0))
  | 2 => subOffset (32 * (sm - sp)) (2 * (max sm sp - s0))
  | _ => 0

/-- One output pixel of a row (R228-R230). -/
def StereoJob.pixel (j : StereoJob) (row : List CostVec) (x : Nat) : ValuePix :=
  match row[x]? with
  | none => .invalid 1 .border false
  | some v =>
    let i1 := argMin v.c
    let s := fun i => v.c.getD i 0
    let s0 := s i1
    let d1 := j.dMin + i1
    let s2 := minNat ((enum v.c).filterMap (fun e => if e.1 + 2 ≤ i1 ∨ i1 + 2 ≤ e.1 then some e.2 else none))
    let q := (x : Int) - d1
    let delta := if i1 = 0 ∨ i1 + 1 = j.dCount then 0 else subpix j.subpixel (s (i1 - 1)) s0 (s (i1 + 1))
    if q < 0 ∨ q ≥ (j.w : Int) then .invalid 1 .border v.bad
    else if j.uniq ≠ 0 ∧ 100 * s0 > (100 - j.uniq) * s2 then .invalid 1 .ambiguous v.bad
    else
      let lr := if j.lrTol = 0xFF then (some d1, false) else j.rightDisp row q.toNat
      let ok := match lr.1 with
        | some dr => decide ((d1 - dr).natAbs ≤ j.lrTol)
        | none => false
      if !ok then .invalid 1 .consistency (v.bad || lr.2)
      else ⟨[fromSigned 16 (32 * d1 + delta)], if s2 = 0 then 4 else 4 + 251 * (s2 - s0) / s2, none, v.bad || lr.2⟩

/-- The job's output rows (R226-R230). -/
def StereoJob.run (j : StereoJob) (l r : Img) : List (List ValuePix) :=
  (j.rows l (l.censusAll j.census) (r.censusAll j.census)).map (fun row => (List.range j.w).map (fun x => j.pixel row x))

/-! Dense pyramidal flow (R236-R239). -/

/-- A FLOW job record (R242). -/
structure FlowJob where
  bytes : List Byte
  deriving DecidableEq, Repr

def FlowJob.u (j : FlowJob) (o n : Nat) : Nat := leAt j.bytes o n
def FlowJob.stage (j : FlowJob) : Nat := j.u 0 2
def FlowJob.levels (j : FlowJob) : Nat := j.u 2 1
def FlowJob.outLevel (j : FlowJob) : Nat := j.u 3 1
def FlowJob.sx (j : FlowJob) : Nat := j.u 4 1
def FlowJob.sy (j : FlowJob) : Nat := j.u 5 1
def FlowJob.refine (j : FlowJob) : Nat := j.u 6 1
def FlowJob.subpixel (j : FlowJob) : Nat := j.u 7 1
def FlowJob.maxCost (j : FlowJob) : Nat := j.u 8 2
def FlowJob.confOut (j : FlowJob) : Bool := bitOf (j.u 0x0A 1) 0
def FlowJob.medianOut (j : FlowJob) : Bool := bitOf (j.u 0x0A 1) 1
def FlowJob.fmt (j : FlowJob) : Nat := j.u 0x0B 1
def FlowJob.w (j : FlowJob) : Nat := j.u 0x0C 2
def FlowJob.h (j : FlowJob) : Nat := j.u 0x0E 2
def FlowJob.layout (j : FlowJob) : Nat := j.u 0x10 1

/-- A pixel of a level's vector field. -/
structure FlowPix where
  /-- The vector, after the median where it applies. -/
  v : Option (Int × Int)
  /-- Best cost and the subpixel offsets at the chosen vector. -/
  cost : Nat
  sub : Int × Int
  why : Why
  bad : Bool
  deriving DecidableEq, Repr

/-- c(p, v), none when the candidate is excluded; with poison (R236). -/
def flowCost (cur prev : Img) (x y : Nat) (u w : Int) : Option (Nat × Bool) :=
  let qs : List (Int × Int) := [-1, 0, 1].flatMap (fun dy => [-1, 0, 1].map (fun dx => (dx, dy)))
  let ts := qs.map (fun q =>
    let px := (x : Int) + q.1 - u
    let py := (y : Int) + q.2 - w
    if 0 ≤ px ∧ px < (prev.w : Int) ∧ 0 ≤ py ∧ py < (prev.h : Int) then
      let a := cur.near ((x : Int) + q.1) ((y : Int) + q.2)
      let b := prev.at 0 px.toNat py.toNat
      some (hamming a.code b.code, a.bad || b.bad)
    else none)
  if ts.any (fun t => t.isNone) then none
  else some (sumNat (ts.filterMap (fun t => t.map (·.1))), ts.any (fun t => match t with | some p => p.2 | none => false))

/-- Integers from a - n to a + n. -/
def around (a : Int) (n : Nat) : List Int := (List.range (2 * n + 1)).map (fun (i : Nat) => a - n + i)

/-- Candidate (c, u, w) precedes another: cost, |u| + |w|, w, u (R237). -/
def flowBefore (a b : Nat × Int × Int) : Bool :=
  if a.1 ≠ b.1 then decide (a.1 < b.1)
  else if a.2.1.natAbs + a.2.2.natAbs ≠ b.2.1.natAbs + b.2.2.natAbs then
    decide (a.2.1.natAbs + a.2.2.natAbs < b.2.1.natAbs + b.2.2.natAbs)
  else if a.2.2 ≠ b.2.2 then decide (a.2.2 < b.2.2)
  else decide (a.2.1 < b.2.1)

/-- The chosen vector among the candidates around a centre (R237, R238). -/
def FlowJob.choose (j : FlowJob) (cur prev : Img) (x y : Nat) (cu cw : Int) (nu nw : Nat) (bad0 : Bool) : FlowPix :=
  let cs := (around cw nw).flatMap (fun w => (around cu nu).filterMap (fun u =>
    (flowCost cur prev x y u w).map (fun c => (c.1, u, w, c.2))))
  let bad := bad0 || cs.any (fun c => c.2.2.2)
  match cs with
  | [] => ⟨none, 0, (0, 0), .border, bad⟩
  | a :: t =>
    let b := t.foldl (fun b e => if flowBefore (e.1, e.2.1, e.2.2.1) (b.1, b.2.1, b.2.2.1) then e else b) a
    if b.1 > j.maxCost then ⟨none, b.1, (0, 0), .ambiguous, bad⟩
    else
      let at' := fun (u w : Int) => (cs.find? (fun c => c.2.1 = u && c.2.2.1 = w)).map (fun c => (c.1 : Int))
      let off := fun (m p : Option Int) =>
        match m, p with
        | some m, some p => if j.subpixel = 0 then 0 else subpix 1 m b.1 p
        | _, _ => 0
      let u := b.2.1
      let w := b.2.2.1
      ⟨some (u, w), b.1, (off (at' (u - 1) w) (at' (u + 1) w), off (at' u (w - 1)) (at' u (w + 1))), .border, bad⟩

/-- A level's field as rows flattened in raster order. -/
structure FlowField where
  w : Nat
  h : Nat
  px : Array FlowPix
  deriving DecidableEq, Repr

/-- Pixel of a field; outside it, none. -/
def FlowField.at? (f : FlowField) (x y : Int) : Option FlowPix :=
  if 0 ≤ x ∧ x < (f.w : Int) ∧ 0 ≤ y ∧ y < (f.h : Int) then f.px[(y.toNat * f.w + x.toNat)]? else none

/-- Build a field. -/
def FlowField.build (w h : Nat) (g : Nat → Nat → FlowPix) : FlowField :=
  ⟨w, h, Array.ofFn (n := h * w) (fun i => g (i.val % w) (i.val / w))⟩

/-- Insert an integer in rising order. -/
def insertInt (v : Int) : List Int → List Int
  | [] => [v]
  | x :: t => if v ≤ x then v :: x :: t else x :: insertInt v t

/-- The median of integers, the mean of the two middle values rounded towards zero for an even count (R238). -/
def medianInt (xs : List Int) : Int :=
  let s := xs.foldl (fun a v => insertInt v a) []
  let n := s.length
  if n % 2 = 1 then s.getD (n / 2) 0 else (s.getD (n / 2 - 1) 0 + s.getD (n / 2) 0).tdiv 2

/-- The 3 × 3 median of the valid vectors (R238). -/
def FlowField.median (f : FlowField) : FlowField :=
  FlowField.build f.w f.h (fun x y =>
    match f.at? x y with
    | none => ⟨none, 0, (0, 0), .border, false⟩
    | some p =>
      match p.v with
      | none => p
      | some _ =>
        let ns := [-1, 0, 1].flatMap (fun (dy : Int) => [-1, 0, 1].filterMap (fun (dx : Int) => f.at? (x + dx) (y + dy)))
        let vs := ns.filterMap (·.v)
        { p with v := some (medianInt (vs.map (·.1)), medianInt (vs.map (·.2))), bad := p.bad || ns.any (·.bad) })

/-- One level's field from the coarser one, if any (R237). -/
def FlowJob.level (j : FlowJob) (cur prev : Img) (coarse : Option FlowField) : FlowField :=
  FlowField.build cur.w cur.h (fun x y =>
    match coarse with
    | none => j.choose cur prev x y 0 0 j.sx j.sy false
    | some f =>
      match f.at? ((x / 2 : Nat) : Int) ((y / 2 : Nat) : Int) with
      | some p =>
        let c := match p.v with | some v => (2 * v.1, 2 * v.2) | none => (0, 0)
        j.choose cur prev x y c.1 c.2 j.refine j.refine p.bad
      | none => j.choose cur prev x y 0 0 j.refine j.refine false)

/-- Levels from Lc down to o: current and previous images of each, coarsest first; the field at level o (R236-R238). -/
def FlowJob.descend (j : FlowJob) : List (Img × Img) → Option FlowField → Option FlowField
  | [], f => f
  | (c, p) :: t, f =>
    let g := j.level (c.censusAll 0) (p.censusAll 0) f
    let g := if t.isEmpty && !j.medianOut then g else g.median
    j.descend t (some g)

/-- A field's output pixel (R238). -/
def flowOut (p : FlowPix) : ValuePix :=
  match p.v with
  | none => .invalid 2 p.why p.bad
  | some (u, w) =>
    let a := 32 * u + p.sub.1
    let b := 32 * w + p.sub.2
    if a.natAbs > 32767 ∨ b.natAbs > 32767 then .invalid 2 .border p.bad
    else ⟨[fromSigned 16 a, fromSigned 16 b], 4 + 251 * (216 - p.cost) / 216, none, p.bad⟩

/-- The job's output rows from the level images, coarsest first (R236-R238). -/
def FlowJob.run (j : FlowJob) (ls : List (Img × Img)) : List (List ValuePix) :=
  match j.descend ls none with
  | none => []
  | some f => (List.range f.h).map (fun y => (List.range f.w).map (fun x =>
      match f.at? x y with
      | some p => flowOut p
      | none => .invalid 2 .border false))

/-- The output of a job without history (R239). -/
def flowNoHistory (w h : Nat) : List (List ValuePix) :=
  List.replicate h (List.replicate w (.invalid 2 .noHistory false))

/-- Rows of a value plane of `n` channels, HWC, FX16 (R222). -/
def valueChunks (n w : Nat) (rows : List (List ValuePix)) : List Chunk :=
  let pitch := rowPitch w n 2 0
  (enum rows).flatMap (fun r => rowChunks (4096 + r.1 * pitch) pitch 2
    (r.2.flatMap (fun p => p.vals.map (fun v => (⟨v, p.bad⟩ : El)))))

/-- Rows of a confidence plane (R222, R223). -/
def confChunks (w : Nat) (rows : List (List ValuePix)) : List Chunk :=
  let pitch := rowPitch w 1 1 0
  (enum rows).flatMap (fun r => rowChunks (4096 + r.1 * pitch) pitch 1 (r.2.map (fun p => (⟨p.conf, p.bad⟩ : El))))

/-- How many pixels are invalid for a reason. -/
def countWhy (rows : List (List ValuePix)) (y : Why) : Nat :=
  sumNat (rows.map (fun r => (r.filter (fun p => p.why = some y)).length))

end Sys2Proof.Machine
end

