-- ==== Sys2Proof/Machine/Feature.lean ====
section
/-! DEFINITION. What the feature engines detect and describe (R247-R252): corner scores, suppression, tiles, orientation, the
256-bit descriptor and the feature list. -/
namespace Sys2Proof.Machine

/-- A FEAT job record (R266). -/
structure FeatJob where
  bytes : List Byte
  deriving DecidableEq, Repr

def FeatJob.u (j : FeatJob) (o n : Nat) : Nat := leAt j.bytes o n
def FeatJob.stage (j : FeatJob) : Nat := j.u 0 2
def FeatJob.level (j : FeatJob) : Nat := j.u 2 1
def FeatJob.assoc (j : FeatJob) : Bool := bitOf (j.u 3 1) 0
def FeatJob.births (j : FeatJob) : Bool := bitOf (j.u 3 1) 1
def FeatJob.wide (j : FeatJob) : Bool := bitOf (j.u 3 1) 2
def FeatJob.arcLen (j : FeatJob) : Nat := j.u 4 1
def FeatJob.fmt (j : FeatJob) : Nat := j.u 5 1
def FeatJob.layout (j : FeatJob) : Nat := j.u 6 1
def FeatJob.ctx (j : FeatJob) : Nat := j.u 7 1
def FeatJob.threshold (j : FeatJob) : Nat := j.u 8 2
def FeatJob.birthScore (j : FeatJob) : Nat := j.u 0x0A 2
def FeatJob.tilesX (j : FeatJob) : Nat := j.u 0x0C 1
def FeatJob.tilesY (j : FeatJob) : Nat := j.u 0x0D 1
def FeatJob.quota (j : FeatJob) : Nat := j.u 0x0E 1
def FeatJob.maxDist (j : FeatJob) : Nat := j.u 0x0F 1
def FeatJob.maxFeatures (j : FeatJob) : Nat := j.u 0x10 2
def FeatJob.birthsMax (j : FeatJob) : Nat := j.u 0x12 2
def FeatJob.blockMask (j : FeatJob) : Nat := j.u 0x14 2
def FeatJob.ratio (j : FeatJob) : Nat := j.u 0x16 1
def FeatJob.candDiv (j : FeatJob) : Nat := j.u 0x17 1
def FeatJob.maxGate (j : FeatJob) : Nat := j.u 0x18 2
def FeatJob.fallbackGate (j : FeatJob) : Nat := j.u 0x1A 2
def FeatJob.confirmHits (j : FeatJob) : Nat := j.u 0x1C 1
def FeatJob.tentativeMisses (j : FeatJob) : Nat := j.u 0x1D 1
def FeatJob.maxMisses (j : FeatJob) : Nat := j.u 0x1E 1
def FeatJob.w (j : FeatJob) : Nat := j.u 0x20 2
def FeatJob.h (j : FeatJob) : Nat := j.u 0x22 2
/-- Blocks of the pool (R255). -/
def FeatJob.pool (j : FeatJob) : List Nat := (List.range 16).filter (fun b => j.blockMask.testBit b)

/-- The radius-3 circle (R247). -/
def circle16 : List (Int × Int) :=
  [(0, -3), (1, -3), (2, -2), (3, -1), (3, 0), (3, 1), (2, 2), (1, 3),
   (0, 3), (-1, 3), (-2, 2), (-3, 1), (-3, 0), (-3, -1), (-2, -2), (-1, -3)]

/-- The least and greatest of integers. -/
def minInt (xs : List Int) : Int := match xs with | [] => 0 | x :: t => t.foldl min x
def maxInt (xs : List Int) : Int := match xs with | [] => 0 | x :: t => t.foldl max x

/-- The corner score of differences I_k - c (R247). -/
def cornerScore (arcLen : Nat) (ds : List Int) : Int :=
  maxInt ((List.range 16).flatMap (fun a =>
    let arc := (List.range arcLen).map (fun i => ds.getD ((a + i) % 16) 0)
    [minInt arc, minInt (arc.map (fun v => -v))]))

/-- Only these pixels are scored (R248). -/
def scored (w h x y : Nat) : Bool := decide (18 ≤ x ∧ x + 19 ≤ w ∧ 18 ≤ y ∧ y + 19 ≤ h)

/-- A sample at an offset. -/
def Img.off (m : Img) (x y : Nat) (d : Int × Int) : El := m.near ((x : Int) + d.1) ((y : Int) + d.2)

/-- A corner: its position and score. -/
structure Corner where
  x : Nat
  y : Nat
  score : Nat
  deriving DecidableEq, Repr

/-- Every pixel's corner score, none where it is no corner; raster order (R247, R248). -/
def FeatJob.scores (j : FeatJob) (m : Img) : Array (Option Nat) :=
  Array.ofFn (n := m.h * m.w) (fun i =>
    let x := i.val % m.w
    let y := i.val / m.w
    if !scored m.w m.h x y then none
    else
      let c := (m.at 0 x y).code
      let s := cornerScore j.arcLen (circle16.map (fun d => ((m.off x y d).code : Int) - c))
      if (j.threshold : Int) ≤ s then some s.toNat else none)

/-- Corners left by non-maximum suppression, raster order (R248). -/
def FeatJob.survivors (j : FeatJob) (m : Img) : List Corner :=
  let sc := j.scores m
  let r : Int := if j.wide then 2 else 1
  let ns := ((List.range (2 * r.toNat + 1)).flatMap (fun b => (List.range (2 * r.toNat + 1)).map (fun a =>
    ((a : Int) - r, (b : Int) - r)))).filter (fun d => d ≠ (0, 0))
  let at' := fun (x y : Int) =>
    if 0 ≤ x ∧ x < (m.w : Int) ∧ 0 ≤ y ∧ y < (m.h : Int) then sc.getD (y.toNat * m.w + x.toNat) none else none
  (List.range m.h).flatMap (fun (y : Nat) => (List.range m.w).filterMap (fun (x : Nat) =>
    match at' x y with
    | none => none
    | some s =>
      if ns.any (fun d => match at' ((x : Int) + d.1) ((y : Int) + d.2) with
        | some t => decide (t > s ∨ (t = s ∧ (d.2 < 0 ∨ (d.2 = 0 ∧ d.1 < 0))))
        | none => false) then none
      else some ⟨x, y, s⟩))

/-- Insert by falling score after every corner not lower. -/
def insertCorner (c : Corner) : List Corner → List Corner
  | [] => [c]
  | d :: t => if d.score < c.score then c :: d :: t else d :: insertCorner c t

/-- The `n` corners of the highest scores, ties to the earlier in the list (R249). -/
def bestCorners (n : Nat) (cs : List Corner) : List Corner := (cs.foldl (fun a c => insertCorner c a) []).take n

/-- Precedes in raster order. -/
def Corner.before (a b : Corner) : Bool := decide (a.y < b.y ∨ (a.y = b.y ∧ a.x < b.x))

/-- Insert in raster order. -/
def insertRaster (c : Corner) : List Corner → List Corner
  | [] => [c]
  | d :: t => if c.before d then c :: d :: t else d :: insertRaster c t

/-- In raster order. -/
def rasterSort (cs : List Corner) : List Corner := cs.foldl (fun a c => insertRaster c a) []

/-- The tile of a coordinate among `tiles` over `n` (R249, R178 with period 1). -/
def tileOf (n tiles v : Nat) : Nat := ((List.range tiles).filter (fun k => k * n / tiles ≤ v)).length - 1

/-- The features of an image, raster order, and whether they were truncated (R249). -/
def FeatJob.features (j : FeatJob) (m : Img) : List Corner × Bool :=
  let cs := j.survivors m
  let kept := (List.range (j.tilesX * j.tilesY)).flatMap (fun t =>
    bestCorners j.quota (cs.filter (fun c => tileOf m.w j.tilesX c.x + j.tilesX * tileOf m.h j.tilesY c.y = t)))
  let kept := rasterSort kept
  if kept.length > j.maxFeatures then (rasterSort (bestCorners j.maxFeatures kept), true) else (kept, false)

/-! Exact directions (R250, R251): multiples of 5.625 degrees in fixed point with 320 fraction bits. -/

/-- √ of a fixed-point number. -/
def fxSqrt (v : Int) : Int := (isqrt (v.toNat <<< fxBits) : Int)

/-- cos and sin of 5.625 degrees by half angles from cos 90 = 0. -/
def dirUnit : Int × Int :=
  let half := fun (c : Int) => fxSqrt ((fxOne + c) / 2)
  let c := half (half (half (half 0)))
  (c, fxSqrt (fxOne - fxMul c c))

/-- cos and sin of k × 5.625 degrees. -/
def dir64 : Nat → Int × Int
  | 0 => (fxOne, 0)
  | k + 1 =>
    let (c, s) := dir64 k
    let (a, b) := dirUnit
    ((c * a - s * b) / fxOne, (s * a + c * b) / fxOne)

/-- The orientation bin of moments (R250). -/
def orientBin (m10 m01 : Int) : Nat :=
  if m10 = 0 ∧ m01 = 0 then 0
  else
    let side := fun (k : Nat) => let (c, s) := dir64 k; decide (0 ≤ c * m01 - s * m10)
    ((List.range 32).find? (fun b => side ((2 * b + 63) % 64) && !side (2 * b + 1))).getD 0

/-- Offsets of the disc of radius 15 (R250). -/
def disc15 : List (Int × Int) :=
  ((List.range 31).flatMap (fun j => (List.range 31).map (fun i => ((i : Int) - 15, (j : Int) - 15)))).filter
    (fun d => d.1 * d.1 + d.2 * d.2 ≤ 225)

/-- The orientation of a feature, and poison (R250). -/
def Img.orient (m : Img) (x y : Nat) : Nat × Bool :=
  let vs := disc15.map (fun d => (d, m.off x y d))
  (orientBin (sumInt (vs.map (fun v => v.1.1 * (v.2.code : Int)))) (sumInt (vs.map (fun v => v.1.2 * (v.2.code : Int)))),
    vs.any (fun v => v.2.bad))

/-- One coordinate of the generator: value and next state (R251). -/
def pairDraw (st : Word) : Int × Word :=
  let a := st ^^^ (st <<< 13)
  let b := a ^^^ (a >>> 17)
  let c := b ^^^ (b <<< 5)
  (((c >>> 27).toNat : Int) - 15, c)

/-- A point inside the disc (R251); the fuel bounds the retries. -/
def pairPoint : Nat → Word → (Int × Int) × Word
  | 0, st => ((0, 0), st)
  | n + 1, st =>
    let (x, st) := pairDraw st
    let (y, st) := pairDraw st
    if x * x + y * y > 225 then pairPoint n st else ((x, y), st)

/-- A second point that differs from the first (R251). -/
def pairOther (a : Int × Int) : Nat → Word → (Int × Int) × Word
  | 0, st => ((0, 0), st)
  | n + 1, st =>
    let (p, st) := pairPoint 64 st
    if p = a then pairOther a n st else (p, st)

/-- `n` offset pairs from a generator state (R251). -/
def pairsFrom : Nat → Word → List ((Int × Int) × (Int × Int))
  | 0, _ => []
  | n + 1, st =>
    let (a, st) := pairPoint 64 st
    let (b, st) := pairOther a 64 st
    (a, b) :: pairsFrom n st

/-- The 256 offset pairs of every SK7460 (R251). -/
def featPairs : List ((Int × Int) × (Int × Int)) := pairsFrom 256 0x2F6B91C3#32

/-- A fixed-point number rounded to an integer half away from zero. -/
def fxRound (v : Int) : Int := roundAway v (2 ^ fxBits)

/-- rot_b of an offset, with cos and sin of the bin (R251). -/
def rotOff (cs : Int × Int) (d : Int × Int) : Int × Int :=
  (fxRound (d.1 * cs.1 - d.2 * cs.2), fxRound (d.1 * cs.2 + d.2 * cs.1))

/-- Q: the 5 × 5 box sum, and poison (R251). -/
def Img.box5 (m : Img) (x y : Nat) (d : Int × Int) : El :=
  let vs := taps5.flatMap (fun b => taps5.map (fun a => m.off x y (d.1 + a, d.2 + b)))
  ⟨sumNat (vs.map (·.code)), vs.any (·.bad)⟩

/-- Bits as bytes, bit k of byte k ÷ 8. -/
def packBits : Nat → List Bool → List Byte
  | 0, _ => []
  | n + 1, bs => BitVec.ofNat 8 (sumNat ((enum (bs.take 8)).map (fun e => bitAt e.2 e.1))) :: packBits n (bs.drop 8)

/-- The descriptor of a feature at orientation bin b, and poison (R251). -/
def Img.descriptor (m : Img) (x y b : Nat) : List Byte × Bool :=
  let cs := dir64 (2 * b)
  let ts := featPairs.map (fun p => (m.box5 x y (rotOff cs p.1), m.box5 x y (rotOff cs p.2)))
  (packBits 32 (ts.map (fun t => decide (t.1.code < t.2.code))), ts.any (fun t => t.1.bad || t.2.bad))

/-- A described feature. -/
structure Feature where
  c : Corner
  orient : Nat
  desc : List Byte
  deriving DecidableEq, Repr

/-- Detection reads a poisoned element (R246). -/
def Img.detectBad (m : Img) : Bool :=
  (List.range m.h).any (fun y => (List.range m.w).any (fun x =>
    scored m.w m.h x y && ((m.at 0 x y).bad || circle16.any (fun d => (m.off x y d).bad))))

/-- A job's features with orientation and descriptor, truncated flag, and poison (R246-R251). -/
def FeatJob.detect (j : FeatJob) (m : Img) : List Feature × Bool × Bool :=
  let (cs, tr) := j.features m
  let fs := cs.map (fun c =>
    let o := m.orient c.x c.y
    let d := m.descriptor c.x c.y o.1
    ((⟨c, o.1, d.1⟩ : Feature), o.2 || d.2))
  (fs.map (·.1), tr, m.detectBad || fs.any (·.2))

/-- The association result of a feature (R252). -/
structure FeatRes where
  flags : Nat
  track : Option Nat
  distance : Option Nat
  deriving DecidableEq, Repr

/-- A feature of a job that does not associate, or that nothing claimed. -/
def FeatRes.plain : FeatRes := ⟨0, none, none⟩

/-- The 64-byte feature record (R252). -/
def featRecord (f : Feature) (r : FeatRes) : List Byte :=
  natLE 2 f.c.x ++ natLE 2 f.c.y ++ natLE 2 f.c.score ++ natLE 1 f.orient ++ natLE 1 r.flags
    ++ natLE 4 (match r.track with | some t => t | none => 0xFFFFFFFF)
    ++ natLE 2 (match r.distance with | some d => d | none => 0xFFFF) ++ List.replicate 18 0#8 ++ f.desc

/-- The list header's counts (R252). -/
structure FeatHead where
  baseFrame : Nat
  matched : Nat
  misses : Nat
  born : Nat
  dropped : Nat
  unpredicted : Bool
  truncated : Bool
  gate : Nat
  deriving DecidableEq, Repr

/-- The list header (R252). -/
def featHeader (count frame : Nat) (h : FeatHead) : List Byte :=
  natLE 4 count ++ natLE 4 frame ++ natLE 4 h.baseFrame ++ natLE 4 h.matched ++ natLE 4 h.misses ++ natLE 4 h.born
    ++ natLE 4 h.dropped ++ natLE 1 (bitAt h.unpredicted 0 + bitAt h.truncated 1) ++ List.replicate 3 0#8
    ++ natLE 4 h.gate ++ List.replicate 28 0#8

/-- The list's tensor descriptor (R252). -/
def featDesc (quay : Nat) (tide : Tide) (slotAddr count : Nat) : Desc where
  rank := 2
  format := 0x02
  bpoint := 0
  flags := 0
  quay := quay
  tide := tide
  padMode := 0
  base := slotAddr + 4096
  sizes := [64, count, 1, 1, 1, 1]
  strides := [1, 64, 0, 0, 0, 0]
  blk := [0, 0, 0, 0, 0, 0]
  fill := 0
  padLo := [0, 0, 0, 0, 0, 0]
  padHi := [0, 0, 0, 0, 0, 0]
  owner := 0

/-- The chunks of a feature list slot (R252). -/
def featSlot (quay : Nat) (tide : Tide) (slotAddr frame : Nat) (h : FeatHead) (fs : List (Feature × FeatRes)) (bad : Bool) :
    List Chunk :=
  ⟨0, (featDesc quay tide slotAddr fs.length).bytes ++ featHeader fs.length frame h, bad⟩
    :: (enum fs).map (fun f => ⟨4096 + 64 * f.1, featRecord f.2.1 f.2.2, bad⟩)

end Sys2Proof.Machine
end

