-- ==== Sys2Proof/Machine/Ledger.lean ====
section
/-! DEFINITION. The Track Ledger (R253-R264): contexts, pending entries, frame tags, folding, effective state, gated
association and births. -/
namespace Sys2Proof.Machine

/-- A pending entry (R261). -/
structure Pend where
  x : Nat
  y : Nat
  dist : Nat
  ctl : Nat
  deriving DecidableEq, Repr

/-- No entry. -/
def Pend.none : Pend := ⟨0, 0, 0, 0⟩
def Pend.kind (p : Pend) : Nat := p.ctl % 4
def Pend.tag (p : Pend) : Nat := bitsOf p.ctl 5 2
/-- An entry of a kind for frame m. -/
def Pend.mk' (kind x y dist m : Nat) : Pend := ⟨x, y, dist, kind + (m % 16) * 4⟩
/-- Its 6 bytes. -/
def Pend.bytes (p : Pend) : List Byte := natLE 2 p.x ++ natLE 2 p.y ++ natLE 1 p.dist ++ natLE 1 p.ctl

/-- A track context (R253). -/
structure Track where
  desc : List Byte
  x : Nat
  y : Nat
  last : Nat
  age : Nat
  hits : Nat
  misses : Nat
  cam : Nat
  /-- 0 FREE, 1 TENTATIVE, 2 CONFIRMED, 3 LOST. -/
  st : Nat
  orient : Nat
  pend : List Pend
  deriving DecidableEq, Repr

/-- A cleared context (R264). -/
def Track.zero : Track := ⟨List.replicate 32 0#8, 0, 0, 0, 0, 0, 0, 0, 0, 0, [Pend.none, Pend.none, Pend.none]⟩
/-- An unlisted context is cleared. -/
def track0 : Nat → Track := fun _ => Track.zero

/-- The 64 bytes of a context (R253). -/
def Track.bytes (t : Track) : List Byte :=
  t.desc ++ natLE 2 t.x ++ natLE 2 t.y ++ natLE 4 t.last ++ natLE 2 t.age ++ natLE 1 t.hits ++ natLE 1 t.misses
    ++ natLE 1 (t.cam % 32 + t.st * 32) ++ natLE 1 t.orient ++ t.pend.flatMap Pend.bytes

/-- The states of a frame tag in a block (R263). -/
inductive TagSt where
  | void | live | committed
  deriving DecidableEq, Repr

/-- A frame tag in a block: its state, the frame that bears it, the fold parameters of the pool's job (R262) and the births
its job dropped, counted at commit (R268). -/
structure TagRec where
  st : TagSt
  frame : Nat
  confirm : Nat
  tentative : Nat
  maxMisses : Nat
  dropped : Nat
  deriving DecidableEq, Repr

/-- A tag no frame bears. -/
def tagRec0 : Nat → TagRec := fun _ => ⟨.void, 0, 0, 0, 0, 0⟩

/-- A queued prediction (R256). -/
structure Pred where
  ctx : Nat
  quay : Nat
  target : Nat
  h : List Nat
  gate : Nat
  deriving DecidableEq, Repr

/-- The Ledger's state. -/
structure LedgerState where
  tracks : Tab Track
  /-- By block × 16 + frame tag. -/
  tags : Tab TagRec
  /-- Newest committed frame of each block, plus one; 0 where there is none. -/
  newest : Tab Nat
  preds : List Pred
  /-- The prediction each FEAT instance latched for the frame of its job (R257). -/
  latched : List (Nat × Nat × Option Pred)
  /-- Sweeps that are running: base die and quay (R264). -/
  sweeps : List (Nat × Nat)
  /-- Quays whose clear for quay reset runs (R264, R268). -/
  clears : List Nat
  deriving DecidableEq, Repr

/-- The Ledger after reset. -/
def LedgerState.reset : LedgerState := ⟨[], [], [], [], [], [], []⟩

/-- Contexts in a block. -/
def blockTracks : Nat := 16384
/-- The block of a track. -/
def blockOfTrack (t : Nat) : Nat := t / blockTracks

def LedgerState.track (l : LedgerState) (t : Nat) : Track := Tab.get track0 l.tracks t
def LedgerState.setTrack (l : LedgerState) (t : Nat) (x : Track) : LedgerState :=
  { l with tracks := Tab.set track0 l.tracks t x }
def LedgerState.tagAt (l : LedgerState) (b g : Nat) : TagRec := Tab.get tagRec0 l.tags (16 * b + g)
def LedgerState.setTagAt (l : LedgerState) (b g : Nat) (r : TagRec) : LedgerState :=
  { l with tags := Tab.set tagRec0 l.tags (16 * b + g) r }

/-- Frame a (as a number) is older than b (R9). -/
def olderFrame (a b : Nat) : Bool := frameLater (w32 b) (w32 a)

/-- Fold one entry into a state (R262). -/
def foldEntry (r : TagRec) (e : Pend) (t : Track) : Track :=
  match e.kind with
  | 1 =>
    let hits := min 255 (t.hits + 1)
    let st := if t.st = 1 ∧ hits ≥ r.confirm then 2 else if t.st = 3 then 2 else t.st
    { t with x := e.x, y := e.y, last := r.frame, hits := hits, misses := 0, age := min 65535 (t.age + 1), st := st }
  | 2 => { t with x := e.x, y := e.y, last := r.frame, hits := 1, misses := 0, age := 0, st := 1 }
  | 3 =>
    if e.x = 0xFFFF ∧ e.y = 0xFFFF then { t with st := 0 }
    else
      let misses := min 255 (t.misses + 1)
      let st := match t.st with
        | 1 => if misses ≥ r.tentative then 0 else 1
        | 2 => 3
        | 3 => if misses ≥ r.maxMisses then 0 else 3
        | n => n
      { t with x := e.x, y := e.y, misses := misses, age := min 65535 (t.age + 1), st := st }
  | _ => t

/-- Insert an entry by its frame, older first. -/
def insertByFrame (p : TagRec × Pend) : List (TagRec × Pend) → List (TagRec × Pend)
  | [] => [p]
  | q :: t => if olderFrame p.1.frame q.1.frame then p :: q :: t else q :: insertByFrame p t

/-- A context's entries whose tag is in a state, in frame order. -/
def LedgerState.entries (l : LedgerState) (b : Nat) (t : Track) (st : TagSt) : List (TagRec × Pend) :=
  (t.pend.filterMap (fun e =>
    if e.kind = 0 then none
    else
      let r := l.tagAt b e.tag
      if r.st = st then some (r, e) else none)).foldl (fun a p => insertByFrame p a) []

/-- A context with its committed entries folded and its void ones cleared, and the births and retirements committed
(R262, R263). -/
def LedgerState.settle (l : LedgerState) (b : Nat) (t : Track) : Track × Nat × Nat :=
  let (t1, births, retires) := (l.entries b t .committed).foldl (fun (a : Track × Nat × Nat) p =>
    let t' := foldEntry p.1 p.2 a.1
    (t', a.2.1 + b2n (decide (p.2.kind = 2)), a.2.2 + b2n (decide (a.1.st ≠ 0 ∧ t'.st = 0)))) (t, 0, 0)
  ({ t1 with pend := t.pend.map (fun e => if e.kind ≠ 0 ∧ (l.tagAt b e.tag).st = .live then e else Pend.none) }, births, retires)

/-- The effective state for frame m of a settled context (R262). -/
def LedgerState.effective (l : LedgerState) (b m : Nat) (t : Track) : Track :=
  ((l.entries b t .live).filter (fun p => olderFrame p.1.frame m)).foldl (fun a p => foldEntry p.1 p.2 a) t

/-- Access a context: settle it (R263). Births and retirements go to the block's counters. -/
def LedgerState.touch (l : LedgerState) (t : Nat) : LedgerState × Nat × Nat :=
  let (x, b, r) := l.settle (blockOfTrack t) (l.track t)
  (l.setTrack t x, b, r)

/-- Listed tracks of a block. -/
def LedgerState.listed (l : LedgerState) (b : Nat) : List Nat :=
  (l.tracks.map (·.1)).filter (fun t => blockOfTrack t = b)

/-- Settle every context of a block: the sweep (R264). -/
def LedgerState.sweepBlock (l : LedgerState) (b : Nat) : LedgerState × Nat × Nat :=
  (l.listed b).foldl (fun (a : LedgerState × Nat × Nat) t =>
    let (l', bi, re) := a.1.touch t
    (l', a.2.1 + bi, a.2.2 + re)) (l, 0, 0)

/-- Committed contexts of a block that are not FREE (R268). -/
def LedgerState.population (l : LedgerState) (b : Nat) : Nat :=
  ((l.listed b).filter (fun t => (l.track t).st ≠ 0)).length

/-- Clear a block to zero (R264). -/
def LedgerState.clearBlock (l : LedgerState) (b : Nat) : LedgerState :=
  { l with
    tracks := l.tracks.filter (fun e => blockOfTrack e.1 ≠ b)
    tags := l.tags.filter (fun e => e.1 / 16 ≠ b)
    newest := Tab.set nat0' l.newest b 0 }
where
  /-- An unlisted counter is zero. -/
  nat0' : Nat → Nat := fun _ => 0

/-- A job sets its frame's tag to live in the blocks of its pool (R263). -/
def LedgerState.begin (l : LedgerState) (j : FeatJob) (m : Nat) : LedgerState :=
  j.pool.foldl (fun l b =>
    l.setTagAt b (m % 16) ⟨.live, m, j.confirmHits, j.tentativeMisses, j.maxMisses, 0⟩) l

/-- Make a frame's tag void in a block, if it is live (R263). -/
def LedgerState.voidTag (l : LedgerState) (b m : Nat) : LedgerState :=
  let r := l.tagAt b (m % 16)
  if r.st = .live ∧ r.frame = m then l.setTagAt b (m % 16) { r with st := .void } else l

/-- Commit a frame's tag in a block, if it is live; the births its job dropped (R263). -/
def LedgerState.commitTag (l : LedgerState) (b m : Nat) : LedgerState × Nat :=
  let r := l.tagAt b (m % 16)
  if r.st = .live ∧ r.frame = m then
    let l := l.setTagAt b (m % 16) { r with st := .committed }
    ({ l with newest := Tab.set (fun _ => 0) l.newest b (m + 1) }, r.dropped)
  else (l, 0)

/-! Association (R257-R260). -/

/-- p' of a position in 1/8 pixel, none when it is out of image (R258). -/
def mapTrack (h : List Nat) (w ht x8 y8 : Nat) : Option (Fv × Fv) :=
  let x := to32 (.fin false x8 (-3))
  let y := to32 (.fin false y8 (-3))
  let g := fun i => f32Add (f32Add (f32Mul (h.getD i 0) x) (f32Mul (h.getD (i + 1) 0) y)) (h.getD (i + 2) 0)
  let Z := g 6
  if f32Le Z (to32 (.fin false 1 (-20))) then none
  else
    let xs := f32Div (g 0) Z
    let ys := f32Div (g 3) Z
    match quantXY xs ys with
    | none => none
    | some _ =>
      let inside := fun (v : Fv) (n : Nat) => Fv.le (.fin false 0 0) v && Fv.le v (Fv.ofInt ((n : Int) - 1))
      if inside (f32 xs) w && inside (f32 ys) ht then some (f32 xs, f32 ys) else none

/-- The identity mapping (R257). -/
def identityH : List Nat :=
  let one := f32OfInt 1
  [one, 0, 0, 0, one, 0, 0, 0, one]

/-- Squared distance of a feature from p', exact. -/
def dist2 (f : Feature) (p : Fv × Fv) : Fv :=
  let dx := (Fv.ofInt f.c.x).add p.1.neg
  let dy := (Fv.ofInt f.c.y).add p.2.neg
  (dx.mul dx).add (dy.mul dy)

/-- Insert a candidate by rising distance, after equals. -/
def insertCand (c : Nat × Fv) : List (Nat × Fv) → List (Nat × Fv)
  | [] => [c]
  | d :: t => if c.2.lt d.2 then c :: d :: t else d :: insertCand c t

/-- Candidate feature indices of p' in raster order (R258 item 2). -/
def candidates (fs : List Feature) (p : Fv × Fv) (gate limit : Nat) : List Nat :=
  let g2 : Fv := .fin false (gate * gate) (-6)
  let cs := (enum fs).filterMap (fun e => let d := dist2 e.2 p; if d.le g2 then some (e.1, d) else none)
  if cs.length ≤ limit then cs.map (·.1)
  else
    let kept := ((cs.foldl (fun a c => insertCand c a) []).take limit).map (·.1)
    (cs.map (·.1)).filter (fun i => kept.elem i)

/-- Hamming distance of two descriptors. -/
def descDist (a b : List Byte) : Nat := sumNat ((a.zip b).map (fun p => popcount (p.1 ^^^ p.2).toNat))

/-- The candidate a track claims, with d1 (R258 items 3 and 4). -/
def FeatJob.claim (j : FeatJob) (fs : List Feature) (t : Track) (cs : List Nat) : Option (Nat × Nat) :=
  let ds := cs.filterMap (fun i => (fs[i]?).map (fun f => (i, descDist f.desc t.desc)))
  match ds with
  | [] => none
  | a :: r =>
    let b := r.foldl (fun b e => if e.2 < b.2 then e else b) a
    let others := (ds.filter (fun e => e.1 ≠ b.1)).map (·.2)
    let okRatio := j.ratio = 0 || others.isEmpty || decide (100 * b.2 ≤ j.ratio * minNat others)
    if b.2 ≤ j.maxDist && okRatio then some b else none

/-- A context the job evaluated. -/
structure Eval where
  track : Nat
  st : Nat
  /-- p', none when out of image. -/
  at' : Option (Fv × Fv)
  claim : Option (Nat × Nat)
  deriving DecidableEq, Repr

/-- CONFIRMED, then LOST, then TENTATIVE (R259). -/
def stRank (st : Nat) : Nat := if st = 2 then 0 else if st = 3 then 1 else 2

/-- Claim a precedes claim b for one feature (R259). -/
def Eval.beats (a b : Eval) : Bool :=
  let da := match a.claim with | some c => c.2 | none => 0
  let db := match b.claim with | some c => c.2 | none => 0
  if stRank a.st ≠ stRank b.st then decide (stRank a.st < stRank b.st)
  else if da ≠ db then decide (da < db)
  else decide (a.track < b.track)

/-- The claimants of feature i. -/
def claimants (es : List Eval) (i : Nat) : List Eval :=
  es.filter (fun e => match e.claim with | some c => c.1 = i | none => false)

/-- The winner of feature i. -/
def winner (es : List Eval) (i : Nat) : Option Eval :=
  match claimants es i with
  | [] => none
  | a :: t => some (t.foldl (fun b e => if e.beats b then e else b) a)

/-- The entry an evaluated context receives for frame m (R258, R259). -/
def Eval.entry (e : Eval) (es : List Eval) (fs : List Feature) (m : Nat) : Pend :=
  let miss := match e.at' with
    | none => Pend.mk' 3 0xFFFF 0xFFFF 0 m
    | some p =>
      let r := fun (v : Fv) => (((v.mul (.fin false 8 0)).add (.fin false 1 (-1))).floor).toNat
      Pend.mk' 3 (r p.1) (r p.2) 0 m
  match e.claim with
  | some (i, d) =>
    (match winner es i, fs[i]? with
    | some w, some f => if w.track = e.track then Pend.mk' 1 (8 * f.c.x) (8 * f.c.y) d m else miss
    | _, _ => miss)
  | none => miss

/-- Store the entry of frame m. -/
def Track.setPend (t : Track) (fif m : Nat) (e : Pend) : Track := { t with pend := setAt t.pend (m % fif) e }

/-- The lowest FREE context of a block from `t` on, for frame m: free in the effective state, no live entry (R260). -/
def LedgerState.freeFrom (l : LedgerState) (b m : Nat) : Nat → Nat → Option Nat
  | 0, _ => none
  | n + 1, t =>
    let x := (l.settle b (l.track t)).1
    if (l.effective b m x).st = 0 ∧ x.pend.all (fun e => e.kind = 0) then some t else l.freeFrom b m n (t + 1)

/-- The lowest FREE context of a pool. -/
def LedgerState.freeIn (l : LedgerState) (m : Nat) : List Nat → Option Nat
  | [] => none
  | b :: bs =>
    match l.freeFrom b m blockTracks (b * blockTracks) with
    | some t => some t
    | none => l.freeIn m bs

/-- What a job's association did. -/
structure Assoc where
  ledger : LedgerState
  results : List FeatRes
  head : FeatHead
  /-- Births and retirements committed by folding on access: block, births, retirements. -/
  folded : List (Nat × Nat × Nat)
  deriving DecidableEq, Repr

/-- Give births to the unmatched features in order (R260): ledger, results and the number dropped. -/
def FeatJob.bear (j : FeatJob) (fif m : Nat) (fs : List Feature) :
    List (Nat × Feature) → LedgerState × List FeatRes × Nat × Nat → LedgerState × List FeatRes × Nat × Nat
  | [], a => a
  | (i, f) :: t, (l, rs, born, dropped) =>
    match l.freeIn m j.pool with
    | none => j.bear fif m fs t (l, modAt rs i (fun r => { r with flags := r.flags + 4 }), born, dropped + 1)
    | some id =>
      let x := (l.settle (blockOfTrack id) (l.track id)).1
      let x := { x with desc := f.desc, cam := j.ctx, orient := f.orient, st := 0 }
      let l := l.setTrack id (x.setPend fif m (Pend.mk' 2 (8 * f.c.x) (8 * f.c.y) 0 m))
      j.bear fif m fs t (l, modAt rs i (fun r => { r with flags := r.flags + 2, track := some id }), born + 1, dropped)

/-- Insert a feature by falling score after every feature not lower. -/
def insertFeat (f : Nat × Feature) : List (Nat × Feature) → List (Nat × Feature)
  | [] => [f]
  | g :: t => if g.2.c.score < f.2.c.score then f :: g :: t else g :: insertFeat f t

/-- The newest frame whose updates the effective state of a pool includes (R252). -/
def LedgerState.baseFrame (l : LedgerState) (pool : List Nat) (m : Nat) : Nat :=
  let ns := pool.flatMap (fun b =>
    let n := Tab.get (fun _ => 0) l.newest b
    (if n = 0 then [] else [n - 1]) ++ ((List.range 16).filterMap (fun g =>
      let r := l.tagAt b g
      if r.st = .live ∧ olderFrame r.frame m then some r.frame else none)))
  match ns with
  | [] => 0xFFFFFFFF
  | a :: t => t.foldl (fun b n => if olderFrame b n then n else b) a

/-- Association and births of a job for frame m (R257-R261). -/
def FeatJob.associate (j : FeatJob) (l : LedgerState) (fif m : Nat) (pred : Option Pred) (fs : List Feature)
    (truncated : Bool) : Assoc :=
  let h := match pred with | some p => p.h | none => identityH
  let gate := match pred with | some p => min p.gate j.maxGate | none => j.fallbackGate
  let ids := j.pool.flatMap l.listed
  let (l1, folded) := ids.foldl (fun (a : LedgerState × List (Nat × Nat × Nat)) t =>
    let (l', b, r) := a.1.touch t
    (l', a.2 ++ [(blockOfTrack t, b, r)])) (l, [])
  let live := ids.filterMap (fun t =>
    let e := l1.effective (blockOfTrack t) m (l1.track t)
    if e.st = 0 then none else some (t, e))
  let es := live.map (fun p =>
    match mapTrack h j.w j.h p.2.x p.2.y with
    | none => (⟨p.1, p.2.st, none, none⟩ : Eval)
    | some q => ⟨p.1, p.2.st, some q, j.claim fs p.2 (candidates fs q gate (64 * j.candDiv))⟩)
  let l2 := es.foldl (fun l e => l.setTrack e.track ((l.track e.track).setPend fif m (e.entry es fs m))) l1
  let rs := (enum fs).map (fun f =>
    match winner es f.1 with
    | none => FeatRes.plain
    | some w => ⟨1 + bitAt (decide ((claimants es f.1).length > 1)) 3, some w.track, w.claim.map (·.2)⟩)
  let matched := (rs.filter (fun r => r.track.isSome)).length
  let newborn := if j.births then
      (((enum fs).filter (fun f => (winner es f.1).isNone && decide (j.birthScore ≤ f.2.c.score))).foldl
        (fun a f => insertFeat f a) []).take j.birthsMax
    else []
  let (l3, rs, born, dropped) := j.bear fif m fs newborn (l2, rs, 0, 0)
  let l4 := match j.pool.head? with
    | some b => let r := l3.tagAt b (m % 16); l3.setTagAt b (m % 16) { r with dropped := dropped }
    | none => l3
  { ledger := l4
    results := rs
    head := ⟨if live.isEmpty then 0xFFFFFFFF else l1.baseFrame j.pool m, matched, es.length - matched, born, dropped,
      pred.isNone, truncated, gate⟩
    folded := folded }

end Sys2Proof.Machine
end

