-- ==== Sys2Proof/Machine/ChartBase.lean ====
section
/-! DEFINITION. How a chart field is judged and reported: Refuse, Clamp, Round and Credit (R60-R64), report entries
(R69, R569), and reserved bytes (R60). -/
namespace Sys2Proof.Machine

/-- Report reasons (R69). -/
def Why.HIGH : Nat := 1
def Why.LOW : Nat := 2
def Why.ROUNDED : Nat := 3
def Why.SKIPPED : Nat := 4
def Why.FIELD : Nat := 5
def Why.SHORTFALL : Nat := 6
def Why.CONFLICT : Nat := 7
def Why.SCHEDULE : Nat := 8
def Why.DEPENDENCY : Nat := 9
def Why.HEADER : Nat := 10
def Why.SECTION : Nat := 11
def Why.UNSUPPORTED : Nat := 12
def Why.DIGEST : Nat := 13

/-- The judgement on one field. -/
inductive Judged where
  | ok
  | refuse
  /-- Replaced by a value, with the reason reported. -/
  | fix (v reason : Nat)
  deriving DecidableEq, Repr

/-- One field of an entry: its byte offset and size, the number that identifies it in a report, and how its value is
judged given the entry's bytes as corrected so far. -/
structure FieldSpec where
  off : Nat
  size : Nat
  num : Nat
  judge : List Byte → Nat → Judged

/-- Refuse outside [lo, hi]. -/
def inRange (lo hi : Nat) : List Byte → Nat → Judged := fun _ v => if lo ≤ v ∧ v ≤ hi then .ok else .refuse

/-- Refuse unless `p`. -/
def onlyIf (p : Nat → Bool) : List Byte → Nat → Judged := fun _ v => if p v then .ok else .refuse

/-- Refuse unless `p` of the entry's bytes and the value. -/
def onlyWith (p : List Byte → Nat → Bool) : List Byte → Nat → Judged := fun bs v => if p bs v then .ok else .refuse

/-- Clamp to [lo, hi] (R61), or refuse where `strict` (R63, R64, R190). -/
def clampTo (strict : Bool) (lo hi : Nat) : List Byte → Nat → Judged := fun _ v =>
  if lo ≤ v ∧ v ≤ hi then .ok
  else if strict then .refuse
  else if v < lo then .fix lo Why.LOW
  else .fix hi Why.HIGH

/-- Any value. -/
def anyVal : List Byte → Nat → Judged := fun _ _ => .ok

/-- A plain field whose report number is its offset. -/
def fieldAt (off size : Nat) (j : List Byte → Nat → Judged) : FieldSpec := ⟨off, size, off, j⟩

/-- Judge one field of an entry of section `sec`: its bytes as corrected, and the report entries. `idx` is the entry
index. For a parameter-block section the index travels in bits [47:36] of requested and applied (R69). -/
def judgeField (sec idx : Nat) (st : List Byte × List RepEntry) (f : FieldSpec) : List Byte × List RepEntry :=
  let bs := st.1
  let v := leAt bs f.off f.size
  let par := decide (10 ≤ sec ∧ sec ≤ 13)
  let fid := if par then f.num else idx * 64 + f.num
  let tag := fun (x : Nat) => if par then x % 2 ^ 36 + idx * 2 ^ 36 else x % 2 ^ 48
  match f.judge bs v with
  | .ok => st
  | .refuse => (bs, st.2 ++ [⟨sec, Why.FIELD, fid % 65536, tag v, tag 0⟩])
  | .fix w r => (overlay bs f.off (natLE f.size w), st.2 ++ [⟨sec, r, fid % 65536, tag v, tag w⟩])

/-- The bytes of an entry that no field covers, as reserved one-byte fields (R60). -/
def reservedSpecs (len : Nat) (numOf : Nat → Nat) (fs : List FieldSpec) : List FieldSpec :=
  ((List.range len).filter (fun o => !fs.any (fun f => f.off ≤ o && o < f.off + f.size))).map
    (fun o => ⟨o, 1, numOf o, inRange 0 0⟩)

/-- Judge an entry's fields in order, then its reserved bytes. -/
def judgeEntry (sec idx : Nat) (bs : List Byte) (fs : List FieldSpec) (numOf : Nat → Nat := id) :
    List Byte × List RepEntry :=
  (fs ++ reservedSpecs bs.length numOf fs).foldl (judgeField sec idx) (bs, [])

/-- A reported entry refuses the field. -/
def RepEntry.refuses (e : RepEntry) : Bool := decide (e.reason = Why.FIELD)

/-- The 16 bytes of a report entry (R69). -/
def RepEntry.bytes (e : RepEntry) : List Byte :=
  natLE 1 e.sec ++ natLE 1 e.reason ++ natLE 2 e.field ++ natLE 6 e.requested ++ natLE 6 e.applied

/-- The bytes of a report for a buffer of `size` bytes (R69): header and as many entries as fit, at most 255. -/
def reportBytes (size : Nat) (st : Status) (tide : Tide) (es : List RepEntry) : List Byte :=
  let size := min size 4096
  if size < 16 then []
  else
    let room := min 255 ((size - 16) / 16)
    let w := es.take room
    natLE 1 st.toNat ++ natLE 1 (b2n (decide (room < es.length))) ++ natLE 2 w.length ++ natLE 4 es.length
      ++ natLE 1 tide.toNat ++ List.replicate 7 0#8 ++ (w.map RepEntry.bytes).flatten

/-- FP32 bits are finite. -/
def fp32Finite (v : Nat) : Bool := decide (bitsOf v 30 23 ≠ 255)
/-- FP32 bits are finite and positive. -/
def fp32Pos (v : Nat) : Bool := fp32Finite v && !bitOf v 31 && decide (v ≠ 0)
/-- FP16 bits are finite. -/
def fp16Finite (v : Nat) : Bool := decide (bitsOf v 14 10 ≠ 31)

/-- What the checks of a parameter block may refer to: the quay, whether its chart is quay 0's, the QUAY section, and
the engines, stages, handles and windows as read. -/
structure ParamCtx where
  quay : Nat
  cfg : QuayCfg
  engines : List EngineE
  stages : List StageE
  handles : List HandleE
  berths : List BerthE
  /-- CAMRX entries: ENGINES index and bytes. -/
  cameras : List (Nat × List Byte)
  /-- VISION entries: ENGINES index and bytes. -/
  vision : List (Nat × List Byte)

/-- The stage entry of a stage id. -/
def ParamCtx.stage? (c : ParamCtx) (id : Nat) : Option StageE := c.stages.find? (fun s => s.stage = id)

/-- The handle entry of a handle number. -/
def ParamCtx.handle? (c : ParamCtx) (h : Nat) : Option HandleE := c.handles.find? (fun e => e.handle = h)

/-- Some stage names handle `h` in out[]. -/
def ParamCtx.written (c : ParamCtx) (h : Nat) : Bool := c.stages.any (fun s => s.outs.elem h)

/-- Stage `id` is bound to ENGINES index `e`. -/
def ParamCtx.bound (c : ParamCtx) (id e : Nat) : Bool :=
  match c.stage? id with
  | some s => decide (s.engine = e)
  | none => false

/-- ENGINES holds an instance. -/
def ParamCtx.claims (c : ParamCtx) (cls inst : Nat) : Bool := c.engines.any (fun e => e.cls = cls && e.inst = inst)

/-- The stream record of context `ctx` (R129): its 48 bytes, when its port is claimed and its slot enabled. -/
def ParamCtx.stream? (c : ParamCtx) (ctx : Nat) : Option (List Byte) :=
  match c.cameras.find? (fun e => match c.engines[e.1]? with
      | some g => decide (g.cls = Cls.CAMRX ∧ g.inst = ctx / 3)
      | none => false) with
  | some (_, bs) => if bitOf (leAt bs 0x0C 1) (ctx % 3) then some (slice bs (0x10 + (ctx % 3) * 48) 48) else none
  | none => none

end Sys2Proof.Machine
end

