-- ==== Sys2Proof/Machine/ChartParams.lean ====
section
/-! DEFINITION. The parameter blocks of CAMERAS, VISION and EDGE and how LOAD judges their fields: R129, R130, R132,
R140 (cameras), R153, R154, R172-R177, R184-R190 (camera pipes), R194-R203, R207, R216-R218 (pyramid, warp), R231,
R233-R235, R240, R242 (stereo, flow), R255, R266 (features), R270, R271, R282, R285, R287, R288 (soundings), R289,
R290, R294, R298, R299 (edge guard), R438 (Tender). -/
namespace Sys2Proof.Machine

/-- The three head fields of an entry (R59): its length must be the block's, its version 1. The engine field is judged
with the ENGINES cross-references. -/
def headSpecs (len : Nat) : List FieldSpec :=
  [fieldAt 0x00 4 (inRange len len), fieldAt 0x04 2 anyVal, fieldAt 0x06 2 (inRange 1 1)]

/-- What a block's checks amount to: its fields, the numbering of its bytes, and whether unlisted bytes are reserved
(not so where the block's own count is out of range, since its records cannot then be found). -/
structure BlockSpec where
  fields : List FieldSpec
  numOf : Nat → Nat
  whole : Bool

/-- Bytes of one frame slot of handle `h` (R99): a group or region some stage writes is divided by frames_in_flight. -/
def ParamCtx.slotBytes (c : ParamCtx) (h : Nat) : Nat :=
  match c.handle? h with
  | some e =>
    let total := if e.kind = 0 then
        (match c.berths.find? (fun b => b.group = e.base) with | some b => b.count * 4096 | none => 0)
      else e.length
    if c.written h then total / 4096 / max 1 c.cfg.fif * 4096 else total
  | none => 0

/-- The ENGINES entry of a stage id carries the safety-relevant flag. -/
def ParamCtx.stageSafety (c : ParamCtx) (id : Nat) : Bool :=
  match c.stage? id with
  | some s => (match c.engines[s.engine]? with | some e => e.safety | none => false)
  | none => false

/-- A job's stage field (R194, R217): bound to ENGINES index `e`, unique among the block's records, and with the
number of inputs and outputs the job needs. -/
def jobStage (c : ParamCtx) (e : Nat) (others : List Nat) (nin nout : Nat) : List Byte → Nat → Judged :=
  onlyIf (fun v => c.bound v e && !others.elem v &&
    (match c.stage? v with | some s => s.ins.length = nin && s.outs.length = nout | none => false))

/-- Row pitch of an image row (R175): rounded up to a multiple of 64. -/
def pitchOf (rowBytes : Nat) : Nat := ceilDiv rowBytes 64 * 64

/-- Bytes of an image's data after the head (R175): layout 0 HWC, 1 CHW. -/
def pitchedBytes (w h ch e layout : Nat) : Nat :=
  if layout = 0 then h * pitchOf (w * ch * e) else h * pitchOf (w * e) * ch

/-! CAMERAS. -/

/-- The report number of a byte of a CAMRX entry (R129). -/
def camrxNum (o : Nat) : Nat := if o < 0x10 then o else 0x40 * ((o - 0x10) / 48 + 1) + (o - 0x10) % 48

/-- The CAMP instance's VISION entry holds a stream record for a context (R153). -/
def ParamCtx.campHolds (c : ParamCtx) (camp ctx : Nat) : Bool :=
  c.vision.any (fun v => match c.engines[v.1]? with
    | some g => g.cls = Cls.CAMP && g.inst = camp &&
        (List.range (leAt v.2 8 1)).any (fun k => leAt v.2 (0x10 + k * 3728) 1 = ctx)
    | none => false)

/-- The fields of one stream record at `b` (R129, R130, R153). -/
def camrxStream (c : ParamCtx) (port s : Nat) (bs0 : List Byte) : List FieldSpec :=
  let b := 0x10 + s * 48
  let f := fun (o n : Nat) (j : List Byte → Nat → Judged) => (⟨b + o, n, camrxNum (b + o), j⟩ : FieldSpec)
  let g := fun (bs : List Byte) (o n : Nat) => leAt bs (b + o) n
  let mask := leAt bs0 0x0C 1
  let others := ((List.range 3).filter (fun t => t < s && bitOf mask t)).map (fun t => leAt bs0 (0x10 + t * 48) 1)
  let limit := c.cfg.fif * c.cfg.periodUs
  let isQ0Safe := fun (v : Nat) => decide (c.quay = 0) && bitOf v 1
  [ f 0x00 1 (onlyIf (fun v => v ≤ 15 && !others.elem v)),
    f 0x01 1 (onlyIf (fun v => [0x1E, 0x2B, 0x2C, 0x2D, 0x2E].elem v)),
    f 0x02 1 (onlyWith (fun bs v => v < 32 &&
      (!isQ0Safe v || (bitOf v 2 && bitOf v 0 && g bs 0x0B 1 ≠ 0 && g bs 0x24 2 ≠ 0xFFFF)))),
    f 0x03 1 (onlyIf (fun v => c.claims Cls.CAMP v && c.campHolds v (3 * port + s))),
    f 0x04 2 (onlyIf (fun v => 16 ≤ v && v ≤ 8192 && v % 2 = 0)),
    f 0x06 2 (inRange 2 8192),
    f 0x08 1 (onlyWith (fun bs v => if v = 0xFF then !bitOf (g bs 2 1) 4 else c.claims Cls.FSYNC v)),
    f 0x09 1 (onlyIf (fun v => v = 0xFF || c.claims Cls.I3C v)),
    f 0x0A 1 (inRange 1 4),
    f 0x0B 1 anyVal,
    f 0x0C 4 (inRange 0 10000000),
    f 0x10 4 (onlyWith (fun bs v => if bitOf (g bs 2 1) 3 then 100 ≤ v && v ≤ 1000000 else v = 0)),
    f 0x14 4 (inRange 1 limit),
    f 0x18 4 (onlyWith (fun bs v => g bs 0x14 4 + 1 ≤ v && v ≤ limit)),
    f 0x1C 4 (onlyWith (fun bs v => if g bs 9 1 = 0xFF then v = 0 else v < c.cfg.periodUs)),
    f 0x20 4 (onlyWith (fun bs v => if g bs 9 1 = 0xFF then v = 0 else g bs 0x1C 4 + 1 ≤ v && v ≤ c.cfg.periodUs)),
    f 0x24 2 (onlyWith (fun bs v => if bitOf (g bs 2 1) 0 then v ≤ 1023 || v = 0xFFFF else v = 0xFFFF)),
    f 0x26 1 (onlyWith (fun bs v => if g bs 0x24 2 = 0xFFFF then v = 0 else v = 8 || v = 16 || v = 32)),
    f 0x28 4 (inRange 1 1000000000),
    f 0x2C 4 (inRange 0 0) ]

/-- CAMRX (R129): 160 bytes. -/
def camrxBlock (c : ParamCtx) (port : Nat) (bs : List Byte) : BlockSpec where
  fields := headSpecs 160 ++
    [ fieldAt 0x08 1 (inRange 0 1),
      fieldAt 0x09 1 (onlyWith (fun bs v => if leAt bs 8 1 = 1 then 1 ≤ v && v ≤ 3 else 1 ≤ v && v ≤ 4)),
      fieldAt 0x0A 2 (onlyWith (fun bs v => 80 ≤ v && v ≤ (if leAt bs 8 1 = 1 then 6000 else 4500))),
      fieldAt 0x0C 1 (inRange 1 7),
      fieldAt 0x0D 1 (onlyWith (fun bs v => if leAt bs 8 1 = 1 then v = 0 else v ≤ 1)),
      fieldAt 0x0E 2 (inRange 0 0) ]
    ++ ((List.range 3).filter (fun s => bitOf (leAt bs 0x0C 1) s)).flatMap (fun s => camrxStream c port s bs)
  numOf := camrxNum
  whole := true

/-- FSYNC (R132). -/
def fsyncBlock (c : ParamCtx) : BlockSpec where
  fields := headSpecs 16 ++
    [ fieldAt 0x08 4 (onlyIf (fun v => v < c.cfg.periodUs)),
      fieldAt 0x0C 2 (onlyIf (fun v => 1 ≤ v && v ≤ 1000 && v < c.cfg.periodUs)),
      fieldAt 0x0E 1 (inRange 0 1) ]
  numOf := id
  whole := true

/-- I3C controller (R140). -/
def i3cBlock : BlockSpec where
  fields := headSpecs 16 ++
    [ fieldAt 0x08 1 (inRange 0 1),
      fieldAt 0x0A 2 (onlyWith (fun bs v => if leAt bs 8 1 = 1 then 100 ≤ v && v ≤ 1000 else 1000 ≤ v && v ≤ 12500)),
      fieldAt 0x0C 4 (inRange 0 0) ]
  numOf := id
  whole := true

/-! Camera pipes. -/

/-- CFA period of a cfa code (R158). -/
def cfaPeriod (cfa : Nat) : Nat := match cfa with | 1 => 2 | 2 => 4 | _ => 1

/-- δ of R183 for a cfa code. -/
def cfaDelta (cfa : Nat) : Nat := match cfa with | 0 => 4 | 3 => 2 | _ => 6

/-- The cfa_map of a record is legal (section "The CFA"). -/
def cfaMapOk (cfa m : Nat) : Bool :=
  let code := fun k => m / 4 ^ k % 4
  match cfa with
  | 1 =>
    let us := [code 0, code 1, code 4, code 5]
    decide (us.count 0 = 1 ∧ us.count 2 = 1 ∧ us.count 1 = 2) &&
      (List.range 16).all (fun k => [0, 1, 4, 5].elem k || code k = 0)
  | 2 => (List.range 4).all (fun x => (List.range 16).any (fun k => code k = x))
  | _ => decide (m = 0)

/-- Channels of an output content (R172). -/
def contentChannels (content : Nat) : Nat := match content with | 1 => 3 | 2 => 3 | 3 => 3 | _ => 1

/-- A content may be tapped from this input (R172). -/
def contentOk (content cfa conv : Nat) : Bool :=
  let colour := decide (cfa = 1 ∨ cfa = 2)
  match content with
  | 0 => (colour && decide (1 ≤ conv)) || decide (cfa = 0 ∨ cfa = 3)
  | 1 => colour && decide (conv = 0)
  | 2 => colour && decide (conv = 0)
  | 3 => (colour && decide (1 ≤ conv)) || decide (cfa = 3)
  | 4 => decide (cfa = 2)
  | 5 => decide (cfa ≠ 3)
  | _ => false

/-- Element size of a camera-pipe or vision output format (R175). -/
def elemBytes (format : Nat) : Nat := match format with | 0x02 => 1 | 0x03 => 1 | 0x0A => 1 | 0x06 => 4 | _ => 2

/-- An output record at `b` (R172, R174, R175, R189). -/
def campOutput (_c : ParamCtx) (cfa conv w h slot b : Nat) : List FieldSpec :=
  let f := fun (o n : Nat) (j : List Byte → Nat → Judged) => fieldAt (b + o) n j
  let g := fun (bs : List Byte) (o n : Nat) => leAt bs (b + o) n
  let p := cfaPeriod cfa
  let one := fun (bs : List Byte) => decide (contentChannels (g bs 0 1) = 1)
  [ f 0x00 1 (onlyIf (fun v => contentOk v cfa conv)),
    f 0x01 1 (inRange 0 1),
    f 0x02 1 (onlyIf (fun v => [0x02, 0x03, 0x04, 0x0A, 0x0C, 0x0D].elem v)),
    f 0x03 1 (onlyWith (fun bs v => v ≤ 1 && !(g bs 2 1 = 0x03 && v = 0))),
    f 0x04 2 (onlyWith (fun bs v => v < w && (g bs 0 1 ≠ 5 || v % p = 0))),
    f 0x06 2 (onlyWith (fun bs v => v < h && (g bs 0 1 ≠ 5 || v % p = 0))),
    f 0x08 2 (onlyWith (fun bs v => g bs 4 2 + v ≤ w && g bs 0x0C 2 ≤ v && v ≤ 16 * g bs 0x0C 2)),
    f 0x0A 2 (onlyWith (fun bs v => g bs 6 2 + v ≤ h && g bs 0x0E 2 ≤ v && v ≤ 16 * g bs 0x0E 2)),
    f 0x0C 2 (onlyWith (fun bs v => 1 ≤ v && v ≤ 8192 && (g bs 0 1 ≠ 5 || v = g bs 8 2) &&
      4096 + pitchedBytes v (g bs 0x0E 2) (contentChannels (g bs 0 1)) (elemBytes (g bs 2 1)) (g bs 1 1) ≤ slot)),
    f 0x0E 2 (onlyWith (fun bs v => 1 ≤ v && v ≤ 8192 && (g bs 0 1 ≠ 5 || v = g bs 0xA 2))),
    f 0x10 2 (onlyIf fp16Finite),
    f 0x12 2 (onlyWith (fun bs v => fp16Finite v && (!one bs || v = 0))),
    f 0x14 2 (onlyWith (fun bs v => fp16Finite v && (!one bs || v = 0))),
    f 0x18 2 (onlyIf fp16Finite),
    f 0x1A 2 (onlyWith (fun bs v => fp16Finite v && (!one bs || v = 0))),
    f 0x1C 2 (onlyWith (fun bs v => fp16Finite v && (!one bs || v = 0))) ]

/-- An adjustment record at `b` (R188). -/
def adjSpecs (strict : Bool) (b : Nat) : List FieldSpec :=
  [ fieldAt b 2 (clampTo strict 0 0x8000), fieldAt (b + 2) 2 (clampTo strict 0 0x8000),
    fieldAt (b + 4) 2 (clampTo strict 0 0x8000), fieldAt (b + 6) 1 (inRange 0 2),
    fieldAt (b + 8) 18 anyVal, fieldAt (b + 0x1A) 6 anyVal ]

/-- L of R181 for a width. -/
def passClocks (w : Nat) : Nat := ceilDiv w 2 + 16

/-- The condition of R184 over a pipe's streams (L, δ, in_line_ns), in twelfths. -/
def pipeKeepsUp (xs : List (Nat × Nat × Nat)) : Bool :=
  let tmin := xs.foldl (fun m x => min m x.2.2) 1000000000
  decide (10 * sumNat (xs.map (fun x => x.1)) ≤ 12 * tmin ∧
    10 * sumNat (xs.map (fun x => (x.2.1 + 1) * x.1)) ≤ 12 * 7 * tmin)

/-- One stream record of a CAMP entry (R187). `k` is the pipe slot, `e` the ENGINES index, `inst` the pipe. -/
def campStream (c : ParamCtx) (e inst k : Nat) (bs0 : List Byte) : List FieldSpec :=
  let b := 0x10 + k * 3728
  let f := fun (o n : Nat) (j : List Byte → Nat → Judged) => fieldAt (b + o) n j
  let g := fun (bs : List Byte) (o n : Nat) => leAt bs (b + o) n
  let count := leAt bs0 8 1
  let rec0 := fun j => 0x10 + j * 3728
  let ctx := leAt bs0 b 1
  let strm := (c.stream? ctx).getD []
  let w := leAt strm 4 2
  let h := leAt strm 6 2
  let dt := leAt strm 1 1
  let strict := decide (c.quay = 0) && bitOf (leAt strm 2 1) 1
  let cfa := leAt bs0 (b + 2) 1
  let conv := leAt bs0 (b + 0x1F) 1
  let stage := leAt bs0 (b + 8) 2
  let nout := match c.stage? stage with | some s => s.outs.length | none => 0
  let outs := match c.stage? stage with | some s => s.outs | none => []
  let before := (List.range count).filter (fun j => j < k)
  let all := (List.range count).map (fun j =>
    let s := (c.stream? (leAt bs0 (rec0 j) 1)).getD []
    (passClocks (leAt s 4 2), cfaDelta (leAt bs0 (rec0 j + 2) 1), leAt bs0 (rec0 j + 0xC) 4))
  let anySafe := (List.range count).any (fun j =>
    bitOf (leAt ((c.stream? (leAt bs0 (rec0 j) 1)).getD []) 2 1) 1)
  let mine := leAt bs0 (b + 0xC) 4
  let isMin := all.all (fun x => mine ≤ x.2.2) &&
    before.all (fun j => mine < leAt bs0 (rec0 j + 0xC) 4)
  [ f 0x000 1 (onlyIf (fun v => v ≤ 23 && (c.stream? v).isSome && leAt ((c.stream? v).getD []) 3 1 = inst
      && !before.any (fun j => leAt bs0 (rec0 j) 1 = v))),
    f 0x001 1 (inRange 0 7),
    f 0x002 1 (onlyIf (fun v => v ≤ 3 && (decide (v = 3) = decide (dt = 0x1E)))),
    f 0x003 1 (inRange 0 3),
    f 0x004 4 (onlyWith (fun bs v => cfaMapOk (g bs 2 1) v)),
    f 0x008 2 (onlyIf (fun v => c.bound v e &&
      (match c.stage? v with
        | some s => s.ins.length = 0 && !before.any (fun j =>
            let t := leAt bs0 (rec0 j + 8) 2
            t = v || (match c.stage? t with | some s' => s'.window = s.window | none => false))
        | none => false))),
    f 0x00A 2 (onlyWith (fun bs v => if !bitOf (g bs 3 1) 1 then v = 0xFFFF
      else match c.handle? v with
        | some x => x.kind = 1 && bitOf x.access 1 && !c.written v && 2 ≤ x.length / 20544
        | none => false)),
    f 0x00C 4 (onlyIf (fun v => 100 ≤ v && v ≤ 1000000 && 10 * passClocks w ≤ 12 * v &&
      !(c.quay = 0 && anySafe && isMin && !pipeKeepsUp all))),
    f 0x010 2 (clampTo strict 0 49151), f 0x012 2 (clampTo strict 0 49151),
    f 0x014 2 (clampTo strict 0 49151), f 0x016 2 (clampTo strict 0 49151),
    f 0x018 2 anyVal,
    f 0x01A 1 (clampTo strict 0 16),
    f 0x01B 1 (clampTo strict 0 12),
    f 0x01C 1 (onlyWith (fun bs v => g bs 2 1 = 2 || v = 0)),
    f 0x01D 1 (onlyWith (fun bs v => g bs 2 1 = 2 || v = 0)),
    f 0x01E 1 (onlyWith (fun bs v => g bs 2 1 = 2 || v = 0)),
    f 0x01F 1 (onlyWith (fun bs v => v ≤ 3 && (g bs 2 1 = 1 || g bs 2 1 = 2 || v = 0))),
    f 0x020 16 anyVal,
    f 0x030 1 (onlyWith (fun bs v => v ≤ 2 && (g bs 2 1 ≠ 3 || v = 2))),
    f 0x031 1 (inRange 1 32),
    f 0x032 1 (inRange 1 32),
    f 0x034 2 anyVal ]
    ++ adjSpecs strict (b + 0x40)
    ++ (List.range (min 4 nout)).flatMap (fun i => campOutput c cfa conv w h (c.slotBytes (outs.getD i 0)) (b + 0x80 + 64 * i))
    ++ [f 0x180 1028 anyVal, f 0x584 4 (inRange 0 0), f 0x588 2312 anyVal]

/-- CAMP (R186). -/
def campBlock (c : ParamCtx) (e inst : Nat) (bs : List Byte) : BlockSpec :=
  let count := leAt bs 8 1
  if 1 ≤ count ∧ count ≤ 8 then
    { fields := headSpecs (16 + 3728 * count) ++ [fieldAt 8 1 (inRange 1 8)]
        ++ (List.range count).flatMap (fun k => campStream c e inst k bs)
      numOf := id, whole := true }
  else { fields := headSpecs bs.length ++ [fieldAt 8 1 (inRange 1 8)], numOf := id, whole := false }

/-- A block of `count` (1 to 8) records of `size` bytes from 0x10 (R216). -/
def jobsBlock (size : Nat) (bs : List Byte) (job : Nat → Nat → List FieldSpec) : BlockSpec :=
  let count := leAt bs 8 1
  if 1 ≤ count ∧ count ≤ 8 then
    { fields := headSpecs (16 + size * count) ++ [fieldAt 8 1 (inRange 1 8)]
        ++ (List.range count).flatMap (fun k => job k (0x10 + k * size))
      numOf := id, whole := true }
  else { fields := headSpecs bs.length ++ [fieldAt 8 1 (inRange 1 8)], numOf := id, whole := false }

/-- The stage ids of the records before record k. -/
def earlierStages (bs : List Byte) (first size k : Nat) : List Nat :=
  (List.range k).map (fun j => leAt bs (first + j * size) 2)

/-! Pyramid and warp. -/

/-- Level sizes (R198): halved k times, rounded up. -/
def levelSize (n : Nat) : Nat → Nat
  | 0 => n
  | k + 1 => ceilDiv (levelSize n k) 2

/-- Bytes a pyramid output slot needs (R203): the head and each stored level rounded up to 4 KiB. -/
def pyrSlotBytes (w h ch e layout first last : Nat) : Nat :=
  4096 + sumNat (((List.range last).filter (fun k => first ≤ k)).map (fun k =>
    ceilDiv (pitchedBytes (levelSize w k) (levelSize h k) ch e layout) 4096 * 4096))

/-- Laplacian element size of a lap_format. -/
def lapBytes (lap : Nat) : Nat := if lap = 0x06 then 4 else 2

/-- PYR job record (R198-R203, R217). -/
def pyrJob (c : ParamCtx) (e : Nat) (bs0 : List Byte) (k b : Nat) : List FieldSpec :=
  let f := fun (o n : Nat) (j : List Byte → Nat → Judged) => fieldAt (b + o) n j
  let g := fun (bs : List Byte) (o n : Nat) => leAt bs (b + o) n
  let fl := leAt bs0 (b + 3) 1
  let nout := b2n (bitOf fl 0) + b2n (bitOf fl 1)
  let outs := match c.stage? (leAt bs0 b 2) with | some s => s.outs | none => []
  let fits := fun (bs : List Byte) (lv : Nat) =>
    let w := g bs 0x10 2
    let h := g bs 0x12 2
    let ch := g bs 0x15 1
    let es := elemBytes (g bs 0x14 1)
    let ly := g bs 0x16 1
    (!bitOf fl 0 || pyrSlotBytes w h ch es ly (if bitOf fl 2 then 0 else 1) lv ≤ c.slotBytes (outs.getD 0 0)) &&
    (!bitOf fl 1 || pyrSlotBytes w h ch (lapBytes (g bs 5 1)) ly 0 lv ≤ c.slotBytes (outs.getD (b2n (bitOf fl 0)) 0))
  [ f 0x00 2 (jobStage c e (earlierStages bs0 0x10 64 k) 1 nout),
    f 0x02 1 (onlyWith (fun bs v => 1 ≤ v && v ≤ 8 && 4 ≤ levelSize (g bs 0x10 2) (v - 1)
      && 4 ≤ levelSize (g bs 0x12 2) (v - 1) && fits bs v)),
    f 0x03 1 (onlyWith (fun bs v => v < 8 && v % 4 ≠ 0 && !(bitOf v 0 && !bitOf v 2 && g bs 2 1 = 1))),
    f 0x04 1 (inRange 0 2),
    f 0x05 1 (onlyWith (fun bs v =>
      if !bitOf (g bs 3 1) 1 then v = 0
      else match g bs 0x14 1 with
        | 0x02 => v = 0x05 || v = 0x06
        | 0x04 => v = 0x05 || v = 0x06
        | 0x0C => v = 0x0C
        | _ => false)),
    f 0x06 2 (onlyWith (fun bs v => v ≤ 256 && v + 2 * g bs 8 2 + 2 * g bs 0xA 2 = 256)),
    f 0x08 2 (onlyWith (fun bs v => v ≤ 256 && (!bitOf (g bs 3 1) 1 || v = 64))),
    f 0x0A 2 (inRange 0 256),
    f 0x0C 2 (onlyWith (fun bs v => (g bs 4 1 = 2 || v = 0) && (g bs 0x14 1 ≠ 0x02 || v ≤ 255))),
    f 0x0E 2 (inRange 0 0),
    f 0x10 2 (inRange 8 8192),
    f 0x12 2 (inRange 8 8192),
    f 0x14 1 (onlyIf (fun v => [0x02, 0x04, 0x0C].elem v)),
    f 0x15 1 (inRange 1 4),
    f 0x16 1 (inRange 0 1) ]

/-- WARP job record (R207, R218). -/
def warpJob (c : ParamCtx) (e : Nat) (bs0 : List Byte) (k b : Nat) : List FieldSpec :=
  let f := fun (o n : Nat) (j : List Byte → Nat → Judged) => fieldAt (b + o) n j
  let g := fun (bs : List Byte) (o n : Nat) => leAt bs (b + o) n
  let mode := leAt bs0 (b + 2) 1
  let nin := if mode = 1 then 2 else 1
  let nout := 1 + b2n (bitOf (leAt bs0 (b + 6) 1) 0)
  let st := c.stage? (leAt bs0 b 2)
  let ins := match st with | some s => s.ins | none => []
  let outs := match st with | some s => s.outs | none => []
  let mesh := fun (bs : List Byte) (cl : Nat) =>
    let cs := 2 ^ cl
    8 * (ceilDiv (g bs 0x10 2) cs + 1) * (ceilDiv (g bs 0x12 2) cs + 1)
  let used02 := fun (v : Nat) => if mode = 1 then v = 0 else fp32Finite v
  let used2 := fun (v : Nat) => if mode = 2 then fp32Finite v else v = 0
  [ f 0x00 2 (jobStage c e (earlierStages bs0 0x10 128 k) nin nout),
    f 0x02 1 (inRange 0 2),
    f 0x03 1 (inRange 0 2),
    f 0x04 1 (inRange 0 1),
    f 0x05 1 (onlyWith (fun bs v => if g bs 2 1 = 1 then 2 ≤ v && v ≤ 7 && mesh bs v ≤ c.slotBytes (ins.getD 1 0)
      else v = 0)),
    f 0x06 1 (inRange 0 1),
    f 0x08 2 (inRange 16 8192),
    f 0x0A 2 (inRange 16 8192),
    f 0x0C 1 (onlyIf (fun v => [0x02, 0x04, 0x0C].elem v)),
    f 0x0D 1 (inRange 1 4),
    f 0x0E 1 (inRange 0 1),
    f 0x10 2 (onlyWith (fun bs v => 16 ≤ v && v ≤ 8192 &&
      4096 + pitchedBytes v (g bs 0x12 2) (g bs 0xD 1) (elemBytes (g bs 0xC 1)) (g bs 0xE 1) ≤ c.slotBytes (outs.getD 0 0))),
    f 0x12 2 (inRange 1 8192) ]
    ++ (List.range 4).map (fun i => f (0x14 + 2 * i) 2 (onlyWith (fun bs v =>
      if i < g bs 0xD 1 then g bs 0xC 1 ≠ 0x02 || v ≤ 255 else v = 0)))
    ++ [f 0x1C 4 (inRange 0 0)]
    ++ (List.range 9).map (fun i => f (0x20 + 4 * i) 4 (onlyIf used02))
    ++ (List.range 5).map (fun i => f (0x44 + 4 * i) 4 (onlyIf used2))
    ++ (List.range 4).map (fun i => f (0x58 + 4 * i) 4 (onlyIf used2))

/-! Stereo, flow and features. -/

/-- STEREO job record (R231, R233-R235). -/
def stereoJob (c : ParamCtx) (e : Nat) (bs0 : List Byte) (k b : Nat) : List FieldSpec :=
  let f := fun (o n : Nat) (j : List Byte → Nat → Judged) => fieldAt (b + o) n j
  let g := fun (bs : List Byte) (o n : Nat) => leAt bs (b + o) n
  let strict := decide (c.quay = 0) && c.stageSafety (leAt bs0 b 2)
  let nout := 1 + b2n (bitOf (leAt bs0 (b + 0x10) 1) 0)
  let outs := match c.stage? (leAt bs0 b 2) with | some s => s.outs | none => []
  let fits := fun (bs : List Byte) (w : Nat) =>
    let h := g bs 0x16 2
    4096 + pitchedBytes w h 1 2 0 ≤ c.slotBytes (outs.getD 0 0) &&
      (nout = 1 || 4096 + pitchedBytes w h 1 1 0 ≤ c.slotBytes (outs.getD 1 0))
  [ f 0x00 2 (jobStage c e (earlierStages bs0 0x10 64 k) 2 nout),
    f 0x02 1 (onlyIf (fun v => v = 4 || v = 8)),
    f 0x03 1 (inRange 0 2),
    f 0x04 2 (onlyWith (fun bs v => 16 ≤ v && v ≤ 256 && v % 16 = 0 &&
      g bs 0x14 2 * v ≤ (if g bs 2 1 = 8 then 163840 else 524288))),
    f 0x06 2 (onlyWith (fun bs v => let d := toSigned 16 v
      decide (-256 ≤ d ∧ d ≤ 767 ∧ d + g bs 4 2 ≤ 1024))),
    f 0x08 2 (clampTo strict 1 255),
    f 0x0A 2 (fun bs v => clampTo strict (g bs 8 2) 1023 bs v),
    f 0x0C 1 (onlyWith (fun bs v => v ≤ 7 && (bitOf (g bs 0x10 1) 1 || v = 0))),
    f 0x0D 1 (inRange 0 2),
    f 0x0E 1 (clampTo strict 0 50),
    f 0x0F 1 (fun bs v => if v = 0xFF then .ok else clampTo strict 0 3 bs v),
    f 0x10 1 (inRange 0 3),
    f 0x11 1 (onlyIf (fun v => v = 0x02 || v = 0x04)),
    f 0x12 1 (inRange 0 1),
    f 0x14 2 (onlyWith (fun bs v => 32 ≤ v && v ≤ 8192 && fits bs v)),
    f 0x16 2 (inRange 8 8192) ]

/-- FLOW job record (R198, R235, R240, R242). -/
def flowJob (c : ParamCtx) (e : Nat) (bs0 : List Byte) (k b : Nat) : List FieldSpec :=
  let f := fun (o n : Nat) (j : List Byte → Nat → Judged) => fieldAt (b + o) n j
  let g := fun (bs : List Byte) (o n : Nat) => leAt bs (b + o) n
  let strict := decide (c.quay = 0) && c.stageSafety (leAt bs0 b 2)
  let nout := 1 + b2n (bitOf (leAt bs0 (b + 0xA) 1) 0)
  let st := c.stage? (leAt bs0 b 2)
  let outs := match st with | some s => s.outs | none => []
  let sameIn := match st with | some s => decide (s.ins.getD 0 0 = s.ins.getD 1 1) | none => false
  let fits := fun (bs : List Byte) (w : Nat) =>
    let ow := levelSize w (g bs 3 1)
    let oh := levelSize (g bs 0xE 2) (g bs 3 1)
    4096 + pitchedBytes ow oh 2 2 0 ≤ c.slotBytes (outs.getD 0 0) &&
      (nout = 1 || 4096 + pitchedBytes ow oh 1 1 0 ≤ c.slotBytes (outs.getD 1 0))
  [ f 0x00 2 (fun bs v => if sameIn then jobStage c e (earlierStages bs0 0x10 64 k) 2 nout bs v else .refuse),
    f 0x02 1 (inRange 1 8),
    f 0x03 1 (onlyWith (fun bs v => v + 1 ≤ g bs 2 1)),
    f 0x04 1 (inRange 1 16),
    f 0x05 1 (inRange 1 16),
    f 0x06 1 (inRange 1 2),
    f 0x07 1 (inRange 0 1),
    f 0x08 2 (clampTo strict 1 216),
    f 0x0A 1 (inRange 0 3),
    f 0x0B 1 (onlyIf (fun v => v = 0x02 || v = 0x04)),
    f 0x0C 2 (onlyWith (fun bs v => 32 ≤ v && v ≤ 8192 && 4 ≤ levelSize v (g bs 2 1 - 1) && fits bs v)),
    f 0x0E 2 (onlyWith (fun bs v => 32 ≤ v && v ≤ 8192 && 4 ≤ levelSize v (g bs 2 1 - 1))),
    f 0x10 1 (inRange 0 1) ]

/-- The blocks of a mask. -/
def maskBlocks (m : Nat) : List Nat := (List.range 16).filter (fun i => bitOf m i)

/-- Every other FEAT job record of the chart: ENGINES index, record number and block mask. -/
def ParamCtx.featMasks (c : ParamCtx) : List (Nat × Nat × Nat) :=
  c.vision.flatMap (fun v => match c.engines[v.1]? with
    | some g => if g.cls = Cls.FEAT then (List.range (leAt v.2 8 1)).map (fun k =>
        (v.1, k, leAt v.2 (0x10 + k * 64 + 0x14) 2)) else []
    | none => [])

/-- FEAT job record (R246, R255, R266). -/
def featJob (c : ParamCtx) (e : Nat) (bs0 : List Byte) (k b : Nat) : List FieldSpec :=
  let f := fun (o n : Nat) (j : List Byte → Nat → Judged) => fieldAt (b + o) n j
  let g := fun (bs : List Byte) (o n : Nat) => leAt bs (b + o) n
  let strict := decide (c.quay = 0) && c.stageSafety (leAt bs0 b 2)
  let fl := leAt bs0 (b + 3) 1
  let st := c.stage? (leAt bs0 b 2)
  let outs := match st with | some s => s.outs | none => []
  let ins := match st with | some s => s.ins | none => []
  let poolOk := fun (m : Nat) =>
    m ≠ 0 && (maskBlocks m).all (fun t => c.claims Cls.LEDGER t &&
      c.handles.any (fun h => h.kind = 3 && h.base = t && h.access = 3) &&
      !c.featMasks.any (fun x => !(x.1 = e && x.2.1 = k) && bitOf x.2.2 t)) &&
    (match c.handle? (ins.getD 1 0xFFFF), (maskBlocks m).head? with
      | some h, some t => h.kind = 3 && h.base = t
      | _, _ => false)
  [ f 0x00 2 (jobStage c e (earlierStages bs0 0x10 64 k) (1 + b2n (bitOf fl 0)) 1),
    f 0x02 1 (inRange 0 7),
    f 0x03 1 (onlyIf (fun v => v < 8 && (!bitOf v 1 || bitOf v 0))),
    f 0x04 1 (inRange 9 12),
    f 0x05 1 (onlyIf (fun v => v = 0x02 || v = 0x04)),
    f 0x06 1 (inRange 0 1),
    f 0x07 1 (onlyWith (fun bs v => if bitOf (g bs 3 1) 0 then v ≤ 23 && (c.stream? v).isSome else v = 0)),
    f 0x08 2 (fun bs v => clampTo strict 1 (if g bs 5 1 = 0x04 then 65535 else 255) bs v),
    f 0x0A 2 (fun bs v => if bitOf (g bs 3 1) 1 then clampTo strict (g bs 8 2) 65535 bs v else clampTo strict 0 0 bs v),
    f 0x0C 1 (inRange 1 32),
    f 0x0D 1 (inRange 1 32),
    f 0x0E 1 (inRange 1 64),
    f 0x0F 1 (clampTo strict 1 255),
    f 0x10 2 (onlyIf (fun v => 1 ≤ v && v ≤ 8192 && 4096 + 64 * v ≤ c.slotBytes (outs.getD 0 0))),
    f 0x12 2 (onlyWith (fun bs v => v ≤ 8192 && (bitOf (g bs 3 1) 1 || v = 0))),
    f 0x14 2 (onlyWith (fun bs v => if bitOf (g bs 3 1) 0 then poolOk v else v = 0)),
    f 0x16 1 (fun bs v => if v = 0 then .ok else clampTo strict 50 100 bs v),
    f 0x17 1 (inRange 1 16),
    f 0x18 2 (clampTo strict 8 65535),
    f 0x1A 2 (fun bs v => clampTo strict 8 (g bs 0x18 2) bs v),
    f 0x1C 1 (inRange 1 15),
    f 0x1D 1 (inRange 1 4),
    f 0x1E 1 (inRange 1 255),
    f 0x20 2 (inRange 40 8192),
    f 0x22 2 (inRange 40 8192) ]

/-! Soundings. -/

/-- End of the block pool of a map (R271). -/
def mapBytes (tableLog2 pool : Nat) : Nat :=
  ceilDiv (4096 + 16 * 2 ^ tableLog2 + 4 * pool) 4096 * 4096 + 1024 * pool

/-- SND job record (R285, R288). -/
def sndJob (c : ParamCtx) (e : Nat) (bs0 : List Byte) (k b : Nat) : List FieldSpec :=
  let f := fun (o n : Nat) (j : List Byte → Nat → Judged) => fieldAt (b + o) n j
  let g := fun (bs : List Byte) (o n : Nat) => leAt bs (b + o) n
  let nin := 1 + b2n (bitOf (leAt bs0 (b + 3) 1) 0)
  [ f 0x00 2 (jobStage c e (earlierStages bs0 0x50 64 k) nin 1),
    f 0x02 1 (inRange 0 1),
    f 0x03 1 (inRange 0 3),
    f 0x04 1 (inRange 1 8),
    f 0x05 1 (onlyWith (fun bs v => if bitOf (g bs 3 1) 0 then 4 ≤ v else v = 0)),
    f 0x06 2 (onlyWith (fun bs v => if g bs 2 1 = 1 then 1 ≤ v && v ≤ 10000 else v = 0)),
    f 0x08 2 (inRange 16 8192),
    f 0x0A 2 (inRange 16 8192),
    f 0x0C 1 (inRange 0 1),
    f 0x10 4 (onlyWith (fun bs v => 1 ≤ v && v + 1 ≤ g bs 0x14 4)),
    f 0x14 4 (inRange 2 100000),
    f 0x18 4 (onlyWith (fun bs v => if g bs 2 1 = 0 then fp32Pos v else v = 0)),
    f 0x1C 4 (onlyIf fp32Pos),
    f 0x20 4 (onlyIf fp32Pos),
    f 0x24 4 (onlyIf fp32Finite),
    f 0x28 4 (onlyIf fp32Finite) ]

/-- SND (R270, R271, R282, R285, R287). -/
def sndBlock (c : ParamCtx) (e : Nat) (bs : List Byte) : BlockSpec :=
  let count := leAt bs 8 1
  let strict := decide (c.quay = 0) && (match c.engines[e]? with | some g => g.safety | none => false)
  let region := fun (v : Nat) (acc : Nat) => match c.handle? v with
    | some h => h.kind = 1 && (acc &&& h.access) = acc && !c.written v
    | none => false
  let len := fun (v : Nat) => match c.handle? v with | some h => h.length | none => 0
  let outSlots := (List.range count).map (fun k => match c.stage? (leAt bs (0x50 + k * 64) 2) with
    | some s => c.slotBytes (s.outs.getD 0 0)
    | none => 0)
  let head := [fieldAt 8 1 (inRange 1 4)]
  if 1 ≤ count ∧ count ≤ 4 then
    { fields := headSpecs (80 + 64 * count) ++ head ++
        [ fieldAt 0x10 2 (onlyIf (fun v => region v 3)),
          fieldAt 0x12 2 (onlyIf (fun v => v = 0xFFFF || (region v 3 && 2 ≤ len v / 1088))),
          fieldAt 0x14 1 (inRange 10 100),
          fieldAt 0x15 1 (inRange 2 8),
          fieldAt 0x16 1 (inRange 16 23),
          fieldAt 0x17 1 (clampTo strict 1 63),
          fieldAt 0x18 4 (onlyWith (fun bs v => 1 ≤ v && v ≤ 4194304 && mapBytes (leAt bs 0x16 1) v ≤ len (leAt bs 0x10 2))),
          fieldAt 0x1C 2 (onlyIf (fun v => 1 ≤ v && outSlots.all (fun x => 4096 + 4 * v ≤ x))),
          fieldAt 0x1E 2 anyVal,
          fieldAt 0x20 4 (clampTo strict 0 1000000),
          fieldAt 0x24 2 anyVal,
          fieldAt 0x26 2 (inRange 0 4096),
          fieldAt 0x28 4 (onlyIf (fun v => let z := toSigned 32 v
            decide (-100000 ≤ z ∧ z ≤ 100000))),
          fieldAt 0x2C 2 (clampTo strict 10 1000),
          fieldAt 0x2E 2 (clampTo strict 3 65535),
          fieldAt 0x30 1 (inRange 0 3) ]
        ++ (List.range count).flatMap (fun k => sndJob c e bs k (0x50 + k * 64))
      numOf := id, whole := true }
  else { fields := headSpecs bs.length ++ head, numOf := id, whole := false }

/-! Edge Guard. -/

/-- |x − 1| ≤ 2^−10 for an exact value. -/
def nearOne (v : Fv) : Bool :=
  let d := v.add (Fv.fin true 1 0)
  !((Fv.fin false 1 (-10)).lt d) && !(d.lt (Fv.fin true 1 (-10))) && v.isFin

/-- The denominator of R290 at a pixel, in FP32 evaluated left to right. -/
def edgeDenom (n0 n1 n2 fx fy cx cy u v : Nat) : Nat :=
  let a := f32Div (f32Mul n0 (f32Sub (f32OfInt u) cx)) fx
  let b := f32Div (f32Mul n1 (f32Sub (f32OfInt v) cy)) fy
  f32Add (f32Add a b) n2

/-- The STEREO job record of a stage, if any. -/
def ParamCtx.stereoRecord? (c : ParamCtx) (stage : Nat) : Option (List Byte) :=
  (c.vision.flatMap (fun v => match c.engines[v.1]? with
    | some g => if g.cls = Cls.STEREO then (List.range (leAt v.2 8 1)).map (fun k => slice v.2 (0x10 + k * 64) 64) else []
    | none => [])).find? (fun r => leAt r 0 2 = stage)

/-- A stage runs on an instance of a class. -/
def ParamCtx.stageClass (c : ParamCtx) (id : Nat) : Nat :=
  match c.stage? id with
  | some s => (match c.engines[s.engine]? with | some e => e.cls | none => 0)
  | none => 0

/-- EDGE source record at `b` (R289, R290, R294, R298, R299). -/
def edgeSource (c : ParamCtx) (sharesOk : Bool) (firstKind1 : Bool) (bs0 : List Byte) (b : Nat) : List FieldSpec :=
  let f := fun (o n : Nat) (j : List Byte → Nat → Judged) => fieldAt (b + o) n j
  let g := fun (bs : List Byte) (o n : Nat) => leAt bs (b + o) n
  let kind := leAt bs0 b 1
  let ctx := leAt bs0 (b + 1) 1
  let stage := leAt bs0 (b + 2) 2
  let ctxOk := ctx ≤ 23 && (match c.stream? ctx with | some r => bitOf (leAt r 2 1) 1 && leAt r 1 1 = 0x2E | none => false)
  let stageOk := c.stageClass stage = Cls.STEREO && c.stageSafety stage && (c.stereoRecord? stage).isSome
  let passed := if kind = 0 then ctxOk else stageOk
  let src := if kind = 0 then (match c.stream? ctx with | some r => (leAt r 4 2, leAt r 6 2) | none => (0, 0))
    else (match c.stereoRecord? stage with | some r => (leAt r 0x14 2, leAt r 0x16 2) | none => (0, 0))
  let regions := leAt bs0 (b + 7) 1
  let denomOk := fun (bs : List Byte) (u v : Nat) =>
    (Fv.fin false 1 (-10)).lt (f32 (edgeDenom (g bs 0x24 4) (g bs 0x28 4) (g bs 0x2C 4) (g bs 0x14 4) (g bs 0x18 4)
      (g bs 0x1C 4) (g bs 0x20 4) u v))
  let norm := fun (bs : List Byte) =>
    let sq := fun o => (f32 (g bs o 4)).mul (f32 (g bs o 4))
    nearOne (((sq 0x24).add (sq 0x28)).add (sq 0x2C)).sqrt
  let widths := sumNat ((List.range (min 8 regions)).map (fun r =>
    leAt bs0 (b + 0x40 + 16 * r + 4) 2 + 1 - leAt bs0 (b + 0x40 + 16 * r) 2))
  [ f 0x00 1 (onlyIf (fun v => v ≤ 1 && !(v = 1 && firstKind1 && !sharesOk))),
    f 0x01 1 (onlyIf (fun v => if kind = 0 then ctxOk else v = 0)),
    f 0x02 2 (onlyIf (fun v => if kind = 1 then stageOk else v = 0xFFFF)),
    f 0x04 2 (onlyIf (fun v => if kind = 0 then 1 ≤ v && v ≤ 10000 else v = 0)),
    f 0x06 1 (inRange 1 3),
    f 0x07 1 (inRange 1 8),
    f 0x08 2 (onlyIf (fun v => !passed || v = src.1)),
    f 0x0A 2 (onlyIf (fun v => !passed || v = src.2)),
    f 0x0C 4 (inRange 1 (c.cfg.fif * c.cfg.periodUs)),
    f 0x10 4 (onlyIf (fun v => if kind = 1 then fp32Pos v else v = 0)),
    f 0x14 4 (onlyIf fp32Pos), f 0x18 4 (onlyIf fp32Pos),
    f 0x1C 4 (onlyIf fp32Finite), f 0x20 4 (onlyIf fp32Finite),
    f 0x24 4 (onlyWith (fun bs v => fp32Finite v && norm bs)),
    f 0x28 4 (onlyIf fp32Finite), f 0x2C 4 (onlyIf fp32Finite),
    f 0x30 4 (onlyIf (fun v => (f32 50 |>.isFin) && !((f32 v).lt (Fv.ofInt 50)) && !((Fv.ofInt 5000).lt (f32 v)) && fp32Finite v)) ]
    ++ (List.range (min 8 regions)).flatMap (fun r =>
      let o := 0x40 + 16 * r
      [ f o 2 (onlyWith (fun bs v => v ≤ g bs (o + 4) 2 &&
          denomOk bs v (g bs (o + 2) 2) && denomOk bs (g bs (o + 4) 2) (g bs (o + 2) 2) &&
          denomOk bs v (g bs (o + 6) 2) && denomOk bs (g bs (o + 4) 2) (g bs (o + 6) 2))),
        f (o + 2) 2 (onlyWith (fun bs v => v ≤ g bs (o + 6) 2)),
        f (o + 4) 2 (onlyWith (fun bs v => v < g bs 8 2 && !(r + 1 = regions && widths > 8192))),
        f (o + 6) 2 (onlyWith (fun bs v => v < g bs 0xA 2)),
        f (o + 8) 2 (inRange 10 2000),
        f (o + 0xA) 1 (inRange 0 100),
        f (o + 0xB) 1 (inRange 1 64),
        f (o + 0xC) 2 (onlyWith (fun bs v => 1 ≤ v && v ≤ g bs (o + 4) 2 + 1 - g bs o 2)),
        f (o + 0xE) 1 (inRange 0 1) ])

/-- EDGE (R298). `sharesOk`: SHARES holds entries for both scratchpad ports (R289). -/
def edgeBlock (c : ParamCtx) (sharesOk : Bool) (bs : List Byte) : BlockSpec :=
  let count := leAt bs 8 1
  let firstK := findIdx (fun s => decide (leAt bs (0x10 + s * 192) 1 = 1)) (List.range count)
  let head := [fieldAt 8 1 (inRange 1 4), fieldAt 9 1 (inRange 1 255), fieldAt 0xA 1 (inRange 0 1)]
  if 1 ≤ count ∧ count ≤ 4 then
    { fields := headSpecs (16 + 192 * count) ++ head ++
        (List.range count).flatMap (fun s => edgeSource c sharesOk (decide (firstK = some s)) bs (0x10 + s * 192))
      numOf := id, whole := true }
  else { fields := headSpecs bs.length ++ head, numOf := id, whole := false }

/-! Tender channels. -/

/-- Held Tender channel (R438). -/
def tenderBlock (c : ParamCtx) (e : Nat) (bs0 : List Byte) : BlockSpec :=
  let st := c.stage? (leAt bs0 8 2)
  let inSlot := match st with | some s => c.slotBytes (s.ins.getD 0 0) | none => 0
  let outSlot := match st with | some s => c.slotBytes (s.outs.getD 0 0) | none => 0
  let kindOk := fun (h : Nat) => match c.handle? h with | some x => x.kind ≤ 2 | none => false
  let shape := match st with
    | some s => s.ins.length = 1 && s.outs.length = 1 && kindOk (s.ins.getD 0 0) && kindOk (s.outs.getD 0 0)
    | none => false
  { fields := headSpecs 32 ++
      [ fieldAt 0x08 2 (onlyIf (fun v => c.bound v e && shape)),
        fieldAt 0x0A 1 (inRange 0 2),
        fieldAt 0x0B 1 (inRange 0 7),
        fieldAt 0x0C 4 anyVal,
        fieldAt 0x10 4 anyVal,
        fieldAt 0x14 4 (onlyWith (fun bs v => 1 ≤ v && leAt bs 0xC 4 + v ≤ inSlot &&
          leAt bs 0x10 4 + v + 4 * (leAt bs 0x18 1 % 2) ≤ outSlot)),
        fieldAt 0x18 1 (inRange 0 1) ]
    numOf := id, whole := true }

/-- The checks of one entry of CAMERAS, VISION or EDGE, by the class of its engine (R59). -/
def blockSpec (c : ParamCtx) (sharesOk : Bool) (e : Nat) (bs : List Byte) : Option BlockSpec :=
  match c.engines[e]? with
  | none => none
  | some g =>
    match g.cls with
    | 1 => some (camrxBlock c g.inst bs)
    | 2 => some (campBlock c e g.inst bs)
    | 3 => some (jobsBlock 64 bs (pyrJob c e bs))
    | 4 => some (jobsBlock 128 bs (warpJob c e bs))
    | 5 => some (jobsBlock 64 bs (stereoJob c e bs))
    | 6 => some (jobsBlock 64 bs (flowJob c e bs))
    | 7 => some (jobsBlock 64 bs (featJob c e bs))
    | 9 => some (sndBlock c e bs)
    | 10 => some (edgeBlock c sharesOk bs)
    | 13 => some (tenderBlock c e bs)
    | 14 => some i3cBlock
    | 15 => some (fsyncBlock c)
    | _ => none

/-- Judge one parameter entry: its bytes as applied and its report entries. -/
def judgeBlock (c : ParamCtx) (sharesOk : Bool) (sec idx e : Nat) (bs : List Byte) : List Byte × List RepEntry :=
  match blockSpec c sharesOk e bs with
  | none => (bs, [])
  | some b =>
    let fs := if b.whole then b.fields ++ reservedSpecs bs.length b.numOf b.fields else b.fields
    fs.foldl (judgeField sec idx) (bs, [])

end Sys2Proof.Machine
end

