-- ==== Sys2Proof/Machine/Crypto.lean ====
section
/-! DEFINITION. The checksums and cryptographic functions the spec names: CRC-32C (R430), the Ethernet frame check
sequence (R444), SHA-512 (R52, R532) and Ed25519 (RFC 8032; R52, R526, R533, R534). The algorithms are those of the
standards the spec names. -/
namespace Sys2Proof.Machine

/-- One bit step of a reflected CRC with the reflected polynomial `poly`. -/
def crcBit (poly r : Nat) : Nat := if r % 2 = 1 then (r / 2) ^^^ poly else r / 2

/-- One byte of a reflected CRC. -/
def crcByte (poly r : Nat) (b : Byte) : Nat :=
  (List.range 8).foldl (fun x _ => crcBit poly x) (r ^^^ b.toNat)

/-- A reflected CRC register after a byte string, from register value `r`. -/
def crcRun (poly r : Nat) (bs : List Byte) : Nat := bs.foldl (crcByte poly) r

/-- The reflected CRC-32C polynomial (0x1EDC6F41). -/
def polyC : Nat := 0x82F63B78

/-- CRC-32C of a byte string: initial value and final inversion of all ones. -/
def crc32c (bs : List Byte) : Nat := (crcRun polyC 0xFFFFFFFF bs) ^^^ 0xFFFFFFFF

/-- IEEE 802.3 frame check sequence (polynomial 0x04C11DB7, reflected 0xEDB88320). -/
def crc32ieee (bs : List Byte) : Nat := (crcRun 0xEDB88320 0xFFFFFFFF bs) ^^^ 0xFFFFFFFF

/-! SHA-512 (FIPS 180-4). -/

/-- Round constants, first part. -/
def sha512K0 : List Nat := [
  0x428a2f98d728ae22, 0x7137449123ef65cd, 0xb5c0fbcfec4d3b2f, 0xe9b5dba58189dbbc,
  0x3956c25bf348b538, 0x59f111f1b605d019, 0x923f82a4af194f9b, 0xab1c5ed5da6d8118,
  0xd807aa98a3030242, 0x12835b0145706fbe, 0x243185be4ee4b28c, 0x550c7dc3d5ffb4e2,
  0x72be5d74f27b896f, 0x80deb1fe3b1696b1, 0x9bdc06a725c71235, 0xc19bf174cf692694,
  0xe49b69c19ef14ad2, 0xefbe4786384f25e3, 0x0fc19dc68b8cd5b5, 0x240ca1cc77ac9c65,
  0x2de92c6f592b0275, 0x4a7484aa6ea6e483, 0x5cb0a9dcbd41fbd4, 0x76f988da831153b5,
  0x983e5152ee66dfab, 0xa831c66d2db43210, 0xb00327c898fb213f, 0xbf597fc7beef0ee4,
  0xc6e00bf33da88fc2, 0xd5a79147930aa725, 0x06ca6351e003826f, 0x142929670a0e6e70,
  0x27b70a8546d22ffc, 0x2e1b21385c26c926, 0x4d2c6dfc5ac42aed, 0x53380d139d95b3df,
  0x650a73548baf63de, 0x766a0abb3c77b2a8, 0x81c2c92e47edaee6, 0x92722c851482353b]
/-- Round constants, second part. -/
def sha512K1 : List Nat := [
  0xa2bfe8a14cf10364, 0xa81a664bbc423001, 0xc24b8b70d0f89791, 0xc76c51a30654be30,
  0xd192e819d6ef5218, 0xd69906245565a910, 0xf40e35855771202a, 0x106aa07032bbd1b8,
  0x19a4c116b8d2d0c8, 0x1e376c085141ab53, 0x2748774cdf8eeb99, 0x34b0bcb5e19b48a8,
  0x391c0cb3c5c95a63, 0x4ed8aa4ae3418acb, 0x5b9cca4f7763e373, 0x682e6ff3d6b2b8a3,
  0x748f82ee5defb2fc, 0x78a5636f43172f60, 0x84c87814a1f0ab72, 0x8cc702081a6439ec,
  0x90befffa23631e28, 0xa4506cebde82bde9, 0xbef9a3f7b2c67915, 0xc67178f2e372532b,
  0xca273eceea26619c, 0xd186b8c721c0c207, 0xeada7dd6cde0eb1e, 0xf57d4f7fee6ed178,
  0x06f067aa72176fba, 0x0a637dc5a2c898a6, 0x113f9804bef90dae, 0x1b710b35131c471b,
  0x28db77f523047d84, 0x32caab7b40c72493, 0x3c9ebe0a15c9bebc, 0x431d67c49c100d4c,
  0x4cc5d4becb3e42b6, 0x597f299cfc657e2a, 0x5fcb6fab3ad6faec, 0x6c44198c4a475817]
/-- Initial hash value. -/
def sha512H : List Nat := [
  0x6a09e667f3bcc908, 0xbb67ae8584caa73b, 0x3c6ef372fe94f82b, 0xa54ff53a5f1d36f1,
  0x510e527fade682d1, 0x9b05688c2b3e6c1f, 0x1f83d9abfb41bd6b, 0x5be0cd19137e2179]

/-- Addition modulo 2^64. -/
def add64 (a b : Nat) : Nat := (a + b) % 2 ^ 64
/-- Rotate right. -/
def ror64 (x n : Nat) : Nat := (x >>> n) ||| ((x <<< (64 - n)) % 2 ^ 64)

/-- Big-endian bytes as a number. -/
def beNat (bs : List Byte) : Nat := bs.foldl (fun a b => a * 256 + b.toNat) 0
/-- A number as `n` big-endian bytes. -/
def natBE (n v : Nat) : List Byte := (natLE n v).reverse

/-- Split into chunks of `n` (fuel: the number of chunks). -/
def chunksOf {α : Type} (n : Nat) : Nat → List α → List (List α)
  | 0, _ => []
  | _ + 1, [] => []
  | k + 1, xs => xs.take n :: chunksOf n k (xs.drop n)

/-- Message padding. -/
def sha512Pad (m : List Byte) : List Byte :=
  let z := (239 - m.length % 128) % 128
  m ++ [0x80#8] ++ List.replicate z 0#8 ++ natBE 16 (8 * m.length)

/-- Extend the message schedule, newest word first. -/
def sha512Extend : Nat → List Nat → List Nat
  | 0, w => w
  | n + 1, w =>
    let w2 := w.getD 1 0
    let w7 := w.getD 6 0
    let w15 := w.getD 14 0
    let w16 := w.getD 15 0
    let s0 := ror64 w15 1 ^^^ ror64 w15 8 ^^^ (w15 >>> 7)
    let s1 := ror64 w2 19 ^^^ ror64 w2 61 ^^^ (w2 >>> 6)
    sha512Extend n (add64 (add64 w16 s0) (add64 w7 s1) :: w)

/-- One round on (a, b, c, d, e, f, g, h). -/
def sha512Round (h : List Nat) (kw : Nat × Nat) : List Nat :=
  match h with
  | [a, b, c, d, e, f, g, i] =>
    let s1 := ror64 e 14 ^^^ ror64 e 18 ^^^ ror64 e 41
    let ch := (e &&& f) ^^^ ((2 ^ 64 - 1 - e) &&& g)
    let t1 := add64 (add64 i s1) (add64 ch (add64 kw.1 kw.2))
    let s0 := ror64 a 28 ^^^ ror64 a 34 ^^^ ror64 a 39
    let mj := (a &&& b) ^^^ (a &&& c) ^^^ (b &&& c)
    [add64 t1 (add64 s0 mj), a, b, c, add64 d t1, e, f, g]
  | _ => h

/-- One block. -/
def sha512Block (h : List Nat) (blk : List Byte) : List Nat :=
  let w0 := (chunksOf 8 16 blk).map beNat
  let w := (sha512Extend 64 w0.reverse).reverse
  let r := ((sha512K0 ++ sha512K1).zip w).foldl sha512Round h
  (h.zip r).map (fun p => add64 p.1 p.2)

/-- SHA-512 of a byte string: 64 bytes. -/
def sha512 (m : List Byte) : List Byte :=
  let p := sha512Pad m
  (((chunksOf 128 (p.length / 128) p).foldl sha512Block sha512H).map (natBE 8)).flatten

/-! Ed25519 (RFC 8032). -/

/-- The field prime. -/
def edP : Nat := 2 ^ 255 - 19
/-- The group order. -/
def edL : Nat := 2 ^ 252 + 27742317777372353535851937790883648493

/-- a ^ e mod m by squaring, least significant bit first (fuel: bits of e). -/
def powMod (m : Nat) : Nat → Nat → Nat → Nat → Nat
  | 0, _, _, acc => acc
  | f + 1, a, e, acc => powMod m f (a * a % m) (e / 2) (if e % 2 = 1 then acc * a % m else acc)

/-- Field inverse. -/
def edInv (a : Nat) : Nat := powMod edP 256 (a % edP) (edP - 2) 1
/-- The curve constant d. -/
def edD : Nat := (edP - 121665) * edInv 121666 % edP
/-- A square root of -1. -/
def edI : Nat := powMod edP 256 2 ((edP - 1) / 4) 1

/-- A point in extended coordinates (X, Y, Z, T). -/
structure EdPoint where
  x : Nat
  y : Nat
  z : Nat
  t : Nat
  deriving DecidableEq, Repr

/-- The neutral element. -/
def edZero : EdPoint := ⟨0, 1, 1, 0⟩

/-- Point addition (RFC 8032, section 5.1.4). -/
def edAdd (p q : EdPoint) : EdPoint :=
  let a := (p.y + edP - p.x) * (q.y + edP - q.x) % edP
  let b := (p.y + p.x) * (q.y + q.x) % edP
  let c := p.t * 2 * edD % edP * q.t % edP
  let d := p.z * 2 * q.z % edP
  let e := (b + edP - a) % edP
  let f := (d + edP - c) % edP
  let g := (d + c) % edP
  let h := (b + a) % edP
  ⟨e * f % edP, g * h % edP, f * g % edP, e * h % edP⟩

/-- Scalar multiplication (fuel: bits of the scalar). -/
def edMul : Nat → Nat → EdPoint → EdPoint → EdPoint
  | 0, _, _, acc => acc
  | f + 1, s, p, acc => edMul f (s / 2) (edAdd p p) (if s % 2 = 1 then edAdd acc p else acc)

/-- The x coordinate that belongs to y with the given sign, if any (section 5.1.3). -/
def edRecoverX (y : Nat) (sign : Bool) : Option Nat :=
  if y ≥ edP then none
  else
    let u := (y * y + edP - 1) % edP
    let v := (edD * (y * y % edP) + 1) % edP
    let x2 := u * edInv v % edP
    if x2 = 0 then (if sign then none else some 0)
    else
      let x := powMod edP 256 x2 ((edP + 3) / 8) 1
      let x := if (x * x + edP - x2) % edP = 0 then x else x * edI % edP
      if (x * x + edP - x2) % edP ≠ 0 then none
      else some (if decide (x % 2 = 1) = sign then x else edP - x)

/-- The base point. -/
def edB : EdPoint :=
  let y := 4 * edInv 5 % edP
  match edRecoverX y false with
  | some x => ⟨x, y, 1, x * y % edP⟩
  | none => edZero

/-- Decode 32 bytes as a point. -/
def edDecode (bs : List Byte) : Option EdPoint :=
  let v := leNat (bs.take 32)
  let y := v % 2 ^ 255
  match edRecoverX y (decide (v / 2 ^ 255 % 2 = 1)) with
  | some x => some ⟨x, y, 1, x * y % edP⟩
  | none => none

/-- Encode a point as 32 bytes. -/
def edEncode (p : EdPoint) : List Byte :=
  let zi := edInv p.z
  let x := p.x * zi % edP
  let y := p.y * zi % edP
  natLE 32 (y + (x % 2) * 2 ^ 255)

/-- Points are equal. -/
def edEq (p q : EdPoint) : Bool :=
  decide ((p.x * q.z) % edP = (q.x * p.z) % edP) && decide ((p.y * q.z) % edP = (q.y * p.z) % edP)

/-- Ed25519 verification: S below the group order and [S]B = R + [k]A. -/
def edVerify (pub msg sig : List Byte) : Bool :=
  if pub.length ≠ 32 ∨ sig.length ≠ 64 then false
  else match edDecode pub, edDecode (sig.take 32) with
  | some a, some r =>
    let s := leNat (sig.drop 32)
    if s ≥ edL then false
    else
      let k := leNat (sha512 (sig.take 32 ++ pub ++ msg)) % edL
      edEq (edMul 256 s edB edZero) (edAdd r (edMul 256 k a edZero))
  | _, _ => false

/-- The clamped secret scalar and the second half of the hash of a 32-byte seed. -/
def edSecret (seed : List Byte) : Nat × List Byte :=
  let h := sha512 seed
  let a := leNat (h.take 32)
  let a := a % 2 ^ 254 / 8 * 8 + 2 ^ 254
  (a, h.drop 32)

/-- The public key of a seed. -/
def edPublic (seed : List Byte) : List Byte := edEncode (edMul 256 (edSecret seed).1 edB edZero)

/-- The Ed25519 signature of a message under a seed. -/
def edSign (seed msg : List Byte) : List Byte :=
  let sp := edSecret seed
  let pub := edPublic seed
  let r := leNat (sha512 (sp.2 ++ msg)) % edL
  let rb := edEncode (edMul 256 r edB edZero)
  let k := leNat (sha512 (rb ++ pub ++ msg)) % edL
  rb ++ natLE 32 ((r + k * sp.1) % edL)

end Sys2Proof.Machine
end

