-- ==== Sys2Proof/Machine/ChartLoad.lean ====
section
/-! DEFINITION. The checks of LOAD up to step 7 (R52-R66, R84, R85, R289, R453, R474, R478, R530, R535, R569): the chart
header, its version, digest and signature, its sections and its fields; and the typed chart that passes them. -/
namespace Sys2Proof.Machine

/-- What LOAD's checks read besides the chart: the commanded quay, HM_QUAY_CHART_SIZE, the keys of the store, the fuses
and this node's identity. -/
structure LoadEnv where
  quay : Nat
  sizeLimit : Nat
  /-- Public keys of slots 0 to 15, none where the slot is not valid (R530). -/
  keys : List (Option (List Byte))
  sigRequired : Bool
  opened : Bool
  nodeId : Nat
  deriving DecidableEq, Repr

/-- The steps' outcome: a status that ends LOAD, with its report entries; or the chart. -/
structure LoadOutcome where
  status : Status
  entries : List RepEntry
  chart : Option Chart
  deriving DecidableEq, Repr

/-- A value as a report carries it: its low 48 bits (R569). -/
def rep48 (v : Nat) : Nat := v % 2 ^ 48

/-- Step 1: header form (R52, R66, R569). -/
def checkHeader (env : LoadEnv) (bs : List Byte) : List RepEntry :=
  let n := leAt bs 0x0C 4
  let head := fun (c : Bool) (o v a : Nat) => if c then [] else [(⟨0, Why.HEADER, o, rep48 v, a⟩ : RepEntry)]
  let res := fun (o k : Nat) => head (leAt bs o k = 0) o (leAt bs o k) 0
  head (leAt bs 0 4 = 0x48434B53) 0x00 0 0
    ++ res 0x06 2
    ++ head (n % 8 = 0 && 512 ≤ n && n ≤ 16777216 && n ≤ env.sizeLimit) 0x0C n (if n > env.sizeLimit then env.sizeLimit else 0)
    ++ res 0x11 1 ++ res 0x18 8 ++ res 0x61 3 ++ res 0xA8 88

/-- Step 2: the format version (R84, R569). -/
def checkVersion (bs : List Byte) : List RepEntry :=
  let major := leAt bs 4 1
  let minor := leAt bs 5 1
  if major ≠ 2 ∧ major ≠ 3 then [⟨0, Why.UNSUPPORTED, 0x04, major, 3⟩]
  else
    let top := if major = 2 then 4 else 1
    if minor > top then [⟨0, Why.UNSUPPORTED, 0x05, minor, top⟩] else []

/-- Step 3: part code and quay (R52, R569). -/
def checkPart (env : LoadEnv) (bs : List Byte) : List RepEntry :=
  let part := leAt bs 8 4
  let ok := decide (part = 0x7460) || decide (leAt bs 4 1 = 2 ∧ part = 0x5210)
  (if ok then [] else [⟨0, Why.HEADER, 0x08, part, 0⟩])
    ++ (if leAt bs 0x10 1 = env.quay then [] else [⟨0, Why.HEADER, 0x10, leAt bs 0x10 1, env.quay⟩])

/-- Step 4: the digest (R52). -/
def checkDigest (bs : List Byte) : List RepEntry :=
  let n := leAt bs 0x0C 4
  if sha512 (bs.take 0x20 ++ (bs.take n).drop 0x100) = slice bs 0x20 64 then [] else [⟨0, Why.DIGEST, 0x20, 0, 0⟩]

/-- Step 5: the signature (R53, R530, R535). Where a fuse or an opened device refuses the chart, the entry names sig_type
or the signature (DEDUCED, log entry 20). -/
def checkSignature (env : LoadEnv) (bs : List Byte) : List RepEntry :=
  let sigType := leAt bs 0x60 1
  let key := leAt bs 0x64 4
  let sigBytes := slice bs 0x68 64
  let bad := fun (o v : Nat) => [(⟨0, Why.DIGEST, o, v, 0⟩ : RepEntry)]
  let verify := match (env.keys[key]?).join with
    | some pk => if edVerify pk (bs.take 0x68) sigBytes then [] else bad 0x68 0
    | none => bad 0x64 key
  if sigType > 1 then bad 0x60 sigType
  else if env.quay = 0 then
    if sigType ≠ 1 then bad 0x60 sigType
    else if key ≠ 2 then bad 0x64 key
    else if env.opened then bad 0x68 0
    else verify
  else if sigType = 0 then
    if key ≠ 0 then bad 0x64 key
    else if leNat sigBytes ≠ 0 then bad 0x68 0
    else if env.sigRequired then bad 0x60 0
    else []
  else if key = 0 ∨ key = 1 ∨ key = 3 then bad 0x64 key
  else verify

/-- A section of the chart. -/
structure Section where
  ty : Nat
  flags : Nat
  ver : Nat
  len : Nat
  entries : Nat
  esize : Nat
  off : Nat
  deriving DecidableEq, Repr

/-- Sections walked end to end from an offset (R52): the sections found, and the offset at which the walk ended with the
type and length of a section whose length is no section length. -/
def walkSections (bs : List Byte) (n : Nat) : Nat → Nat → List Section × Nat × Option (Nat × Nat)
  | 0, off => ([], off, none)
  | fuel + 1, off =>
    if off + 16 > n then ([], off, none)
    else
      let s : Section := ⟨leAt bs off 1, leAt bs (off + 1) 1, leAt bs (off + 2) 1, leAt bs (off + 4) 4, leAt bs (off + 8) 4,
        leAt bs (off + 12) 2, off⟩
      if s.len < 16 ∨ s.len % 8 ≠ 0 then ([], off, some (s.ty, s.len))
      else if off + s.len > n then ([], off, none)
      else
        let r := walkSections bs n fuel (off + s.len)
        (s :: r.1, r.2)

/-- The highest sec_version supported for a type, 0 for an undefined or private one (R55, R84, R85). -/
def maxVersion (major minor ty : Nat) : Nat :=
  if ty = 0 ∨ ty > (if major = 2 then 0x0C else 0x0F) then 0
  else if ty = 1 ∧ major = 3 ∧ minor = 1 then 2
  else 1

/-- Entry size of a fixed-entry section (R58), 0 where entries carry their own length (R59). -/
def entrySize (ty : Nat) : Nat :=
  match ty with
  | 0x01 => 64 | 0x02 => 8 | 0x03 => 16 | 0x04 => 24 | 0x05 => 32 | 0x06 => 16 | 0x07 => 16 | 0x08 => 16 | 0x09 => 16
  | 0x0E => 16 | 0x0F => 32 | _ => 0

/-- How many entries a section may hold (R54, R58). -/
def entryCounts (ty : Nat) : Nat × Nat :=
  match ty with
  | 0x01 => (1, 1) | 0x02 => (1, 128) | 0x03 => (1, 1024) | 0x04 => (1, 1024) | 0x05 => (1, 1024) | 0x06 => (1, 256)
  | 0x07 => (1, 6) | 0x08 => (1, 128) | 0x09 => (1, 1024) | 0x0E => (1, 7) | 0x0F => (1, 1) | _ => (0, 1024)

/-- The entries of a section that carry their own length (R59); none where they do not fill it. -/
def varEntries (bs : List Byte) (stop : Nat) : Nat → Nat → Option (List (List Byte))
  | 0, off => if off = stop then some [] else none
  | k + 1, off =>
    let len := leAt bs off 4
    if off + 8 > stop ∨ len < 8 ∨ len % 8 ≠ 0 ∨ off + len > stop then none
    else (varEntries bs stop k (off + len)).map (slice bs off len :: ·)

/-- The entries of a supported section; none where its entry count or sizes do not agree with its length. -/
def Section.items (bs : List Byte) (s : Section) : Option (List (List Byte)) :=
  let es := entrySize s.ty
  if es = 0 then varEntries bs (s.off + s.len) s.entries (s.off + 16)
  else if 16 + es * s.entries ≠ s.len then none
  else some ((List.range s.entries).map (fun i => slice bs (s.off + 16 + es * i) es))

/-- The parsed chart: sections supported and taken, with their entries. -/
abbrev Parsed := List (Section × List (List Byte))

/-- The entries of section `ty`. -/
def Parsed.of (p : Parsed) (ty : Nat) : List (List Byte) :=
  match p.find? (fun s => s.1.ty = ty) with
  | some s => s.2
  | none => []

/-- Section `ty` is present. -/
def Parsed.has (p : Parsed) (ty : Nat) : Bool := p.any (fun s => s.1.ty = ty)

/-- Faults of one section header (R54, R55, R569). `seen` holds the types before it. -/
def sectionFaults (bs : List Byte) (major minor : Nat) (seen : List Nat) (s : Section) : List RepEntry :=
  let mv := maxVersion major minor s.ty
  let skipped := decide (mv = 0 ∨ s.ver > mv)
  let head := fun (c : Bool) (o v : Nat) => if c then [] else [(⟨s.ty, Why.HEADER, o, v, s.off⟩ : RepEntry)]
  let counts := if skipped then (0, 1024) else entryCounts s.ty
  let fits := skipped || (Section.items bs s).isSome
  let esOk := skipped || decide (s.esize = entrySize s.ty)
  head (mv = 0 || !seen.elem s.ty) 0x00 s.ty
    ++ head (s.flags < 2) 0x01 s.flags
    ++ (if skipped then
          [⟨s.ty, if s.ty < 0x80 ∧ bitOf s.flags 0 then Why.UNSUPPORTED else Why.SKIPPED, 0x02, s.ver, mv⟩]
        else [])
    ++ head (leAt bs (s.off + 3) 1 = 0) 0x03 (leAt bs (s.off + 3) 1)
    ++ head (decide (counts.1 ≤ s.entries ∧ s.entries ≤ counts.2) && (fits || !esOk)) 0x08 s.entries
    ++ head esOk 0x0C s.esize
    ++ head (leAt bs (s.off + 14) 2 = 0) 0x0E (leAt bs (s.off + 14) 2)

/-- Faults of every section header in turn. -/
def allSectionFaults (bs : List Byte) (major minor : Nat) : List Nat → List Section → List RepEntry
  | _, [] => []
  | seen, s :: ss => sectionFaults bs major minor seen s ++ allSectionFaults bs major minor (s.ty :: seen) ss

/-- The parameter section of an engine class (R59); 0 for LEDGER. -/
def paramSection (cls : Nat) : Nat :=
  match cls with
  | 1 => 0x0A | 14 => 0x0A | 15 => 0x0A
  | 2 => 0x0B | 3 => 0x0B | 4 => 0x0B | 5 => 0x0B | 6 => 0x0B | 7 => 0x0B | 9 => 0x0B | 13 => 0x0B
  | 11 => 0x0C | 12 => 0x0C
  | 10 => 0x0D
  | _ => 0

/-- The sections a chart must hold (R56). -/
def requiredSections (quay : Nat) (p : Parsed) : List Nat :=
  let classes := (p.of 0x02).map (fun e => leAt e 0 1)
  let claims := fun (l : List Nat) => classes.any (fun c => l.elem c)
  let opt := fun (c : Bool) (t : Nat) => if c then [t] else []
  [0x01, 0x02, 0x03, 0x04, 0x05, 0x06, 0x07]
    ++ opt (quay = 0) 0x08 ++ opt (quay = 0) 0x09
    ++ opt (claims [1, 14, 15]) 0x0A
    ++ opt (claims [2, 3, 4, 5, 6, 7, 8, 9]) 0x0B
    ++ opt (claims [11, 12]) 0x0C
    ++ opt (claims [10]) 0x0D
    ++ opt ((p.of 0x04).any (fun h => leAt h 2 1 = 2)) 0x0E
    ++ opt ((p.of 0x01).any (fun q => leAt q 1 1 = 1)) 0x0F

/-- Step 6: the section structure (R52, R54-R56, R66, R569): its faults, and the sections taken. -/
def checkStructure (env : LoadEnv) (bs : List Byte) : List RepEntry × Parsed :=
  let n := leAt bs 0x0C 4
  let major := leAt bs 4 1
  let minor := leAt bs 5 1
  let count := leAt bs 0x12 2
  let (secs, stop, broken) := walkSections bs n (n / 16) 0x100
  let supported := fun (s : Section) => let mv := maxVersion major minor s.ty; decide (mv ≠ 0 ∧ s.ver ≤ mv)
  let parsed : Parsed := (secs.filter supported).map (fun s => (s, (Section.items bs s).getD []))
  let unsupported := ((secs.filter (fun s => !supported s && bitOf s.flags 0)).map (·.ty))
  let missing := (requiredSections env.quay parsed).filter (fun t => !parsed.has t && !unsupported.elem t)
  let pilotExtra := parsed.has 0x0F && (parsed.of 0x01).any (fun q => leAt q 1 1 ≠ 1)
  let structure' :=
    (match broken with | some (ty, len) => [(⟨ty, Why.HEADER, 0x04, len, stop⟩ : RepEntry)] | none => [])
    ++ (if broken.isNone && stop ≠ n then [⟨0, Why.HEADER, 0x0C, n, stop⟩] else [])
    ++ (if count ≠ secs.length ∨ count = 0 ∨ count > 64 then [⟨0, Why.HEADER, 0x12, count, secs.length⟩] else [])
  let faults := allSectionFaults bs major minor [] secs ++ structure'
    ++ missing.map (fun t => (⟨t, Why.SECTION, 0, 0, 0⟩ : RepEntry))
    ++ (if pilotExtra then [⟨0x0F, Why.SECTION, 0, 1, 0⟩] else [])
  (faults, parsed)

/-- The status step 6 ends with, if it fails (R66). -/
def structureStatus (es : List RepEntry) : Option Status :=
  if es.any (fun e => e.reason ≠ Why.UNSUPPORTED && e.reason ≠ Why.SKIPPED) then some St.REFUSED
  else if es.any (fun e => e.reason = Why.UNSUPPORTED) then some St.VERSION
  else none

/-! Step 7: fields (R58-R64). -/

/-- The typed QUAY section from its applied bytes; substitutes of R58 and R85 made. -/
def quayCfgOf (major : Nat) (e : List Byte) : QuayCfg where
  piloted := leAt e 1 1 = 1
  fif := leAt e 2 1
  bollard := major = 2 || leAt e 3 1 = 1
  periodUs := leAt e 4 4
  phaseUs := leAt e 8 4
  floorMhz := leAt e 0xC 2
  pch := if leAt e 0xE 1 = 0 then 16 else leAt e 0xE 1
  berthFirst := leAt e 0x10 2
  berthCount := leAt e 0x12 2
  voyages := leAt e 0x14 2
  handles := leAt e 0x16 2
  publishPeriod := leAt e 0x18 1
  publishOffsetUs := leAt e 0x1C 4
  noProgressUs := if leAt e 0x20 4 = 0 then 100 else leAt e 0x20 4

/-- Typed entries of the fixed sections. -/
def engineOf (e : List Byte) : EngineE := ⟨leAt e 0 1, leAt e 1 1, bitOf (leAt e 2 1) 0, bitOf (leAt e 2 1) 1, leAt e 4 2⟩
def berthEOf (e : List Byte) : BerthE := ⟨leAt e 0 2, leAt e 2 2, leAt e 4 2, bitOf (leAt e 6 1) 0, bitOf (leAt e 6 1) 1⟩
def handleEOf (e : List Byte) : HandleE := ⟨leAt e 0 2, leAt e 2 1, leAt e 3 1, leAt e 8 8, leAt e 0x10 8⟩
def stageEOf (e : List Byte) : StageE where
  stage := leAt e 0 2
  engine := leAt e 2 2
  fuseNext := leAt e 4 2
  ins := (List.range (min 4 (leAt e 6 1))).map (fun i => leAt e (8 + 2 * i) 2)
  outs := (List.range (min 4 (leAt e 7 1))).map (fun i => leAt e (0x10 + 2 * i) 2)
  bound := leAt e 0x18 4
  period := leAt e 0x1C 1
  ahead := bitOf (leAt e 0x1D 1) 0
  result := bitOf (leAt e 0x1D 1) 1
  crc := bitOf (leAt e 0x1D 1) 2
  window := leAt e 0x1E 2
def windowEOf (e : List Byte) : WindowE := ⟨leAt e 0 2, leAt e 2 1, bitOf (leAt e 3 1) 0, leAt e 4 4, leAt e 8 4⟩
def shareEOf (e : List Byte) : ShareE :=
  ⟨leAt e 0 1, leAt e 2 1, leAt e 3 1, leAt e 4 1, leAt e 5 1, leAt e 6 1, leAt e 7 1, leAt e 8 1, leAt e 9 1⟩
def lightEOf (e : List Byte) : LightE := ⟨leAt e 0 2, leAt e 2 2, leAt e 4 2, leAt e 6 2, leAt e 8 4⟩
def ageEOf (e : List Byte) : AgeE := ⟨leAt e 0 2, leAt e 4 4⟩
def fleetEOf (e : List Byte) : FleetE :=
  ⟨leAt e 0 1, leAt e 1 1, leAt e 2 1, if leAt e 4 4 = 0 then 2000 else leAt e 4 4⟩
def pilotEOf (e : List Byte) : PilotE := ⟨leAt e 0 2, leAt e 4 2, leAt e 8 8⟩

/-- QUAY fields (R39, R50, R58, R84, R85). -/
def quaySpecs (env : LoadEnv) (major ver : Nat) : List FieldSpec :=
  let g := fun (bs : List Byte) (o n : Nat) => leAt bs o n
  [ fieldAt 0x00 1 (onlyIf (fun v => v = env.quay)),
    fieldAt 0x01 1 (onlyIf (fun v => v ≤ 1 && !(env.quay = 0 && v = 1))),
    fieldAt 0x02 1 (inRange 1 3),
    fieldAt 0x03 1 (onlyIf (fun v => major = 2 || v ≤ 1)),
    fieldAt 0x04 4 (inRange 1000 200000),
    fieldAt 0x08 4 (onlyWith (fun bs v => v < g bs 4 4)),
    fieldAt 0x0C 2 (fun bs v =>
      if g bs 1 1 = 1 then .ok
      else if v < 900 then .fix 900 Why.LOW
      else if v > 1800 then .refuse
      else if v % 100 = 0 then .ok
      else .fix (ceilDiv v 100 * 100) Why.ROUNDED),
    fieldAt 0x0E 1 (fun _ v => if v > 64 then .refuse else if v % 4 = 0 then .ok else .fix (ceilDiv v 4 * 4) Why.ROUNDED),
    fieldAt 0x10 2 (inRange 0 49151),
    fieldAt 0x12 2 (onlyWith (fun bs v => 1 ≤ v && g bs 0x10 2 + v ≤ 49152)),
    fieldAt 0x14 2 (inRange 1 4096),
    fieldAt 0x16 2 (inRange 1 1024),
    fieldAt 0x18 1 (onlyWith (fun bs v => v < g bs 2 1)),
    fieldAt 0x1C 4 (onlyWith (fun bs v => v < g bs 4 4)) ]
    ++ (if ver = 2 then [fieldAt 0x20 4 (fun bs v => if v = 0 then .ok else clampTo false 10 10000 bs v)] else [])

/-- What the checks of the fixed sections may refer to: everything read, by section. -/
structure FieldCtx where
  env : LoadEnv
  cfg : QuayCfg
  engines : List EngineE
  berths : List BerthE
  handles : List HandleE
  stages : List StageE
  windows : List WindowE
  ages : List AgeE
  lights : List LightE
  fleet : List FleetE
  /-- Entry counts and engine fields of the parameter sections: (section, engine of each entry). -/
  params : List (Nat × List Nat)
  /-- Stage ids the job records of an ENGINES index name. -/
  jobs : List (Nat × List Nat)

/-- The handle entry of a handle number. -/
def FieldCtx.handle? (c : FieldCtx) (h : Nat) : Option HandleE := c.handles.find? (fun e => e.handle = h)

/-- ENGINES entry `i` (R57, R59, R289, R438, R474). -/
def engineSpecs (c : FieldCtx) (i : Nat) : List FieldSpec :=
  let before := c.engines.take i
  let bound := c.stages.any (fun s => s.engine = i)
  [ fieldAt 0x00 1 (onlyIf (fun v => clsCount v ≠ 0 && !(v = Cls.EDGE && c.env.quay ≠ 0))),
    fieldAt 0x01 1 (onlyWith (fun bs v => (v < clsCount (leAt bs 0 1) || clsCount (leAt bs 0 1) = 0) &&
      !before.any (fun e => e.cls = leAt bs 0 1 && e.inst = v))),
    fieldAt 0x02 1 (onlyWith (fun bs v => v < 4 &&
      (let cls := leAt bs 0 1
       !(c.env.quay = 0 && bitOf v 1) ||
        (!([8, 9, 13].elem cls) &&
          (!([2, 3, 4, 5, 6, 7, 10, 11, 12].elem cls) || c.lights.any (fun l => l.engine = i)))))),
    fieldAt 0x04 2 (onlyWith (fun bs v =>
      let cls := leAt bs 0 1
      let sec := paramSection cls
      let es := (c.params.find? (fun p => p.1 = sec)).map (·.2) |>.getD []
      if sec = 0 then v = 0xFFFF
      else if v = 0xFFFF then cls = Cls.TENDER && !bound
      else es[v]? = some i)) ]

/-- BERTHS entry `i`. -/
def berthSpecs (c : FieldCtx) (i : Nat) : List FieldSpec :=
  [ fieldAt 0 2 (onlyIf (fun v => !(c.berths.take i).any (fun b => b.group = v))),
    fieldAt 2 2 (onlyIf (fun v => v < c.cfg.berthCount)),
    fieldAt 4 2 (onlyWith (fun bs v => 1 ≤ v && leAt bs 2 2 + v ≤ c.cfg.berthCount)),
    fieldAt 6 1 (inRange 0 3) ]

/-- HANDLES entry `i` (R58, R411, R453). -/
def handleSpecs (c : FieldCtx) (i : Nat) : List FieldSpec :=
  [ fieldAt 0 2 (onlyIf (fun v => v < c.cfg.handles && !(c.handles.take i).any (fun h => h.handle = v))),
    fieldAt 2 1 (inRange 0 3),
    fieldAt 3 1 (inRange 1 3),
    fieldAt 8 8 (onlyWith (fun bs v =>
      let len := leAt bs 0x10 8
      match leAt bs 2 1 with
      | 0 => c.berths.any (fun b => b.group = v)
      | 1 => v % 4096 = 0 && v + len ≤ 2 ^ 48
      | 2 => v % 4096 = 0 && 0x008000000000 ≤ v && v + max 1 len ≤ 2 ^ 40 && v / 2 ^ 36 = (v + max 1 len - 1) / 2 ^ 36 &&
          c.fleet.any (fun f => f.node = v / 2 ^ 36 - 8)
      | 3 => v ≤ 15
      | _ => true)),
    fieldAt 0x10 8 (onlyWith (fun bs v =>
      match leAt bs 2 1 with
      | 0 => v = 0
      | 3 => v = 0
      | 1 => v ≠ 0 && v % 4096 = 0
      | 2 => v ≠ 0 && v % 4096 = 0
      | _ => true)) ]

/-- A class whose stages each need a job record (R194, R221, R246, R270). -/
def needsJob (cls : Nat) : Bool := [3, 4, 5, 6, 7, 9].elem cls

/-- STAGES entry `i` (R39, R90, R194, R289, R438, R474). -/
def stageSpecs (c : FieldCtx) (i : Nat) : List FieldSpec :=
  let results := ((c.stages.take i).filter (·.result)).length
  let me := c.stages[i]?
  let sid := match me with | some s => s.stage | none => 0
  [ fieldAt 0 2 (onlyIf (fun v => !(c.stages.take i).any (fun s => s.stage = v))),
    fieldAt 2 2 (onlyIf (fun v => match c.engines[v]? with
      | some e => e.cls ≠ Cls.EDGE && !(e.cls = Cls.TENDER && e.param = 0xFFFF) &&
          (!needsJob e.cls || ((c.jobs.find? (fun j => j.1 = v)).map (·.2) |>.getD []).elem sid)
      | none => false)),
    fieldAt 4 2 (onlyIf (fun v => v = 0xFFFF || c.stages.any (fun s => s.stage = v))),
    fieldAt 6 1 (inRange 0 4),
    fieldAt 7 1 (inRange 0 4) ]
    ++ ((List.range 4).filter (fun k => match me with | some s => k < s.ins.length | none => false)).map (fun k =>
      fieldAt (8 + 2 * k) 2 (onlyIf (fun v => v < c.cfg.handles && (c.handle? v).isSome)))
    ++ ((List.range 4).filter (fun k => match me with | some s => k < s.outs.length | none => false)).map (fun k =>
      fieldAt (0x10 + 2 * k) 2 (onlyIf (fun v => v < c.cfg.handles &&
        (match c.handle? v with | some h => bitOf h.access 1 | none => false))))
    ++ ((List.range 4).filter (fun k => match me with | some s => s.ins.length ≤ k | none => false)).map (fun k =>
      fieldAt (8 + 2 * k) 2 anyVal)
    ++ ((List.range 4).filter (fun k => match me with | some s => s.outs.length ≤ k | none => false)).map (fun k =>
      fieldAt (0x10 + 2 * k) 2 anyVal)
    ++ [ fieldAt 0x18 4 (onlyIf (fun v => v ≠ 0 || c.cfg.piloted)),
      fieldAt 0x1C 1 (onlyIf (fun v => v < c.cfg.fif)),
      fieldAt 0x1D 1 (onlyIf (fun v => v < 8 && (!bitOf v 2 || bitOf v 1) &&
        !(c.env.quay = 0 && bitOf v 1 && (!c.ages.any (fun a => a.stage = sid) || results = 256)))),
      fieldAt 0x1E 2 (onlyIf (fun v => c.windows.any (fun w => w.window = v))) ]

/-- WINDOWS entry `i`. -/
def windowSpecs (c : FieldCtx) (i : Nat) : List FieldSpec :=
  [ fieldAt 0 2 (onlyIf (fun v => !(c.windows.take i).any (fun w => w.window = v))),
    fieldAt 2 1 (onlyIf (fun v => v < c.cfg.fif)),
    fieldAt 3 1 (inRange 0 1),
    fieldAt 4 4 (onlyIf (fun v => v < c.cfg.periodUs)),
    fieldAt 8 4 (onlyWith (fun bs v => leAt bs 4 4 + 1 ≤ v && v ≤ c.cfg.periodUs)) ]

/-- A Credit field (R63). -/
def credit (piloted : Bool) (lo hi : Nat) : List Byte → Nat → Judged := clampTo (!piloted) lo hi

/-- SHARES entry `i` (R63, R289). -/
def shareSpecs (c : FieldCtx) (kind1 : Bool) (before : List Nat) : List FieldSpec :=
  let p := c.cfg.piloted
  let top := fun (o : Nat) => fieldAt o 1 (fun bs v =>
    let lo := leAt bs (o - 1) 1
    if v > 64 then (if p then .fix (max lo 64) Why.HIGH else .refuse)
    else if v < lo then (if p then .fix (min lo 64) Why.LOW else .refuse)
    else .ok)
  [ fieldAt 0 1 (onlyIf (fun v => v ≤ 5 && !before.elem v)),
    fieldAt 2 1 (fun bs v =>
      if kind1 && (leAt bs 0 1 = 2 || leAt bs 0 1 = 3) && decide (v < 4) then .refuse else credit p 0 64 bs v),
    top 3, fieldAt 4 1 (credit p 0 64), top 5, fieldAt 6 1 (credit p 0 64), top 7,
    fieldAt 8 1 (credit p 1 8),
    fieldAt 9 1 (credit p 1 32) ]

/-- LIGHTHOUSE entry (R58, R478). -/
def lightSpecs (c : FieldCtx) : List FieldSpec :=
  let golden := fun (v : Nat) => match c.handle? v with
    | some h => h.kind = 1 && bitOf h.access 0 && !c.stages.any (fun s => s.outs.elem v)
    | none => false
  [ fieldAt 0 2 (onlyIf (fun v => match c.engines[v]? with | some e => e.safety | none => false)),
    fieldAt 2 2 (onlyIf (fun v => c.windows.any (fun w => w.window = v && w.lighthouse))),
    fieldAt 4 2 (onlyIf golden),
    fieldAt 6 2 (onlyIf golden),
    fieldAt 8 4 (onlyIf (fun v => v ≠ 0)) ]

/-- AGES entry `i` (R58, R64). -/
def ageSpecs (c : FieldCtx) (i : Nat) : List FieldSpec :=
  [ fieldAt 0 2 (onlyIf (fun v => c.stages.any (fun s => s.stage = v && s.result) &&
      !(c.ages.take i).any (fun a => a.stage = v))),
    fieldAt 4 4 (fun _ v =>
      if v < 10 ∨ v > 1000000 then .refuse
      else if v % 10 = 0 then .ok
      else if c.env.quay = 0 then .refuse
      else .fix (v / 10 * 10) Why.ROUNDED) ]

/-- FLEET entry `i`. -/
def fleetSpecs (c : FieldCtx) (i : Nat) : List FieldSpec :=
  [ fieldAt 0 1 (onlyIf (fun v => v ≤ 7 && v ≠ c.env.nodeId && !(c.fleet.take i).any (fun f => f.node = v))),
    fieldAt 1 1 (onlyIf (fun v => [0x10, 0x11, 0x12].elem v)),
    fieldAt 2 1 (inRange 0 3),
    fieldAt 4 4 (fun bs v => if v = 0 then .ok else clampTo false 100 100000 bs v) ]

/-- HBM frames that a chart's HBM-region handles take (R412). -/
def chartFrames (hs : List HandleE) : Nat :=
  sumNat ((hs.filter (fun h => h.kind = 1 && h.length ≠ 0)).map (fun h =>
    (h.base + h.length - 1) / 0x200000 + 1 - h.base / 0x200000))

/-- The HBM capacity left for activations: U of R58. -/
def spareBytes (cfg : QuayCfg) (hs : List HandleE) : Nat := cfg.pch * 0x48000000 - chartFrames hs * 0x200000

/-- PILOT entry. -/
def pilotSpecs (c : FieldCtx) : List FieldSpec :=
  [ fieldAt 0 2 (onlyIf (fun v => (List.range 16).all (fun b => !bitOf v b ||
      c.engines.any (fun e => e.cls = Cls.ELV && e.inst = b)))),
    fieldAt 4 2 (clampTo false 0 1024),
    fieldAt 8 8 (clampTo false 0 (spareBytes c.cfg c.handles)) ]

/-- TENSOR entry (R59, R305). -/
def tensorSpecs (c : FieldCtx) : List FieldSpec :=
  let ok := fun (v : Nat) => match c.handle? v with
    | some h => h.kind = 1 && bitOf h.access 0 && !c.stages.any (fun s => s.outs.elem v)
    | none => false
  headSpecs 80 ++
  [ fieldAt 0x08 2 (onlyIf ok),
    fieldAt 0x0A 2 (inRange 0 0),
    fieldAt 0x0C 4 (onlyWith (fun bs v => !ok (leAt bs 8 2) ||
      (64 ≤ v && v ≤ (match c.handle? (leAt bs 8 2) with | some h => h.length | none => 0)))),
    fieldAt 0x10 64 anyVal ]

/-- Judge every entry of a fixed section with its specs. -/
def judgeSection (sec : Nat) (es : List (List Byte)) (specs : Nat → List FieldSpec) :
    List (List Byte) × List RepEntry :=
  let r := (enum es).map (fun p => judgeEntry sec p.1 p.2 (specs p.1))
  (r.map (·.1), (r.map (·.2)).flatten)

/-- The stage ids a VISION entry's job records name. -/
def jobStages (cls : Nat) (bs : List Byte) : List Nat :=
  let n := min 8 (leAt bs 8 1)
  match cls with
  | 4 => (List.range n).map (fun k => leAt bs (0x10 + 128 * k) 2)
  | 9 => (List.range n).map (fun k => leAt bs (0x50 + 64 * k) 2)
  | _ => (List.range n).map (fun k => leAt bs (0x10 + 64 * k) 2)

/-- The engine field of a parameter entry (R59): it names an ENGINES entry whose class has its entries in the section, no earlier entry
names the same, and some ENGINES entry of such a class indexes this one. -/
def engineFieldEntry (c : FieldCtx) (sec idx eng : Nat) : List RepEntry :=
  let before := ((c.params.find? (fun p => p.1 = sec)).map (·.2)).getD [] |>.take idx
  let ok : Bool := match c.engines[eng]? with
    | some e => decide (paramSection e.cls = sec) && !before.elem eng &&
        c.engines.any (fun x => paramSection x.cls = sec && x.param = idx)
    | none => false
  if ok then [] else [⟨sec, Why.FIELD, 0x04, eng + idx * 2 ^ 36, idx * 2 ^ 36⟩]

/-- Judge one parameter section: the applied entries and the report. -/
def judgeParams (c : FieldCtx) (pc : ParamCtx) (sharesOk : Bool) (sec : Nat) (es : List (List Byte)) :
    List ParamE × List RepEntry :=
  let r := (enum es).map (fun p =>
    let eng := leAt p.2 4 2
    let heads := engineFieldEntry c sec p.1 eng
    let fits := match c.engines[eng]? with | some e => decide (paramSection e.cls = sec) | none => false
    let j := if sec = 0x0C then judgeEntry sec p.1 p.2 (tensorSpecs c)
      else if fits then judgeBlock pc sharesOk sec p.1 eng p.2 else (p.2, [])
    ((⟨sec, eng, leAt p.2 6 2, j.1⟩ : ParamE), heads ++ j.2))
  (r.map (·.1), (r.map (·.2)).flatten)

/-- Step 7 over a parsed chart: report entries and the typed chart. -/
def checkFields (env : LoadEnv) (bs : List Byte) (p : Parsed) : List RepEntry × Chart :=
  let major := leAt bs 4 1
  let qver := match p.find? (fun s => s.1.ty = 1) with | some s => s.1.ver | none => 1
  let (q, rq) := judgeSection 0x01 (p.of 0x01) (fun _ => quaySpecs env major qver)
  let qb := q.headD []
  let cfg := quayCfgOf major (if qver = 2 then qb else overlay qb 0x20 [0#8, 0#8, 0#8, 0#8])
  let engines := (p.of 0x02).map engineOf
  let vis := p.of 0x0B
  let c : FieldCtx :=
    { env := env, cfg := cfg, engines := engines, berths := (p.of 0x03).map berthEOf,
      handles := (p.of 0x04).map handleEOf, stages := (p.of 0x05).map stageEOf, windows := (p.of 0x06).map windowEOf,
      ages := (p.of 0x09).map ageEOf, lights := (p.of 0x08).map lightEOf, fleet := (p.of 0x0E).map fleetEOf
      params := [0x0A, 0x0B, 0x0C, 0x0D].map (fun t => (t, (p.of t).map (fun e => leAt e 4 2)))
      jobs := vis.map (fun e => (leAt e 4 2, match engines[leAt e 4 2]? with
        | some g => jobStages g.cls e
        | none => [])) }
  let kind1 := env.quay = 0 && (p.of 0x0D).any (fun e =>
    (List.range (min 4 (leAt e 8 1))).any (fun k => leAt e (0x10 + 192 * k) 1 = 1))
  let ports := (p.of 0x07).map (fun e => leAt e 0 1)
  let sharesOk := ports.elem 2 && ports.elem 3
  let pc : ParamCtx :=
    { quay := env.quay, cfg := cfg, engines := engines, stages := c.stages, handles := c.handles, berths := c.berths
      cameras := ((p.of 0x0A).map (fun e => (leAt e 4 2, e))).filter (fun e => match engines[e.1]? with
        | some g => g.cls = Cls.CAMRX
        | none => false)
      vision := vis.map (fun e => (leAt e 4 2, e)) }
  let (_, r2) := judgeSection 0x02 (p.of 0x02) (engineSpecs c)
  let (_, r3) := judgeSection 0x03 (p.of 0x03) (berthSpecs c)
  let (_, r4) := judgeSection 0x04 (p.of 0x04) (handleSpecs c)
  let (_, r5) := judgeSection 0x05 (p.of 0x05) (stageSpecs c)
  let (_, r6) := judgeSection 0x06 (p.of 0x06) (windowSpecs c)
  let (b7, r7) := judgeSection 0x07 (p.of 0x07) (fun i => shareSpecs c kind1 (ports.take i))
  let (_, r8) := judgeSection 0x08 (p.of 0x08) (fun _ => lightSpecs c)
  let (b9, r9) := judgeSection 0x09 (p.of 0x09) (ageSpecs c)
  let (bE, rE) := judgeSection 0x0E (p.of 0x0E) (fleetSpecs c)
  let (bF, rF) := judgeSection 0x0F (p.of 0x0F) (fun _ => pilotSpecs c)
  let (pA, rA) := judgeParams c pc sharesOk 0x0A (p.of 0x0A)
  let (pB, rB) := judgeParams c pc sharesOk 0x0B (p.of 0x0B)
  let (pC, rC) := judgeParams c pc sharesOk 0x0C (p.of 0x0C)
  let (pD, rD) := judgeParams c pc sharesOk 0x0D (p.of 0x0D)
  let entries := rq ++ r2 ++ r3 ++ r4 ++ r5 ++ r6 ++ r7 ++ r8 ++ r9 ++ rA ++ rB ++ rC ++ rD ++ rE ++ rF
  let chart : Chart :=
    { major := major, minor := leAt bs 5 1, chartId := leAt bs 0x14 4, signed := leAt bs 0x60 1 = 1
      clamped := !entries.isEmpty, cfg := cfg, engines := engines, berths := c.berths, handles := c.handles
      stages := c.stages, windows := c.windows, shares := b7.map shareEOf, lights := c.lights, ages := b9.map ageEOf
      fleet := bE.map fleetEOf, pilot := (bF.map pilotEOf).head?, params := pA ++ pB ++ pC ++ pD }
  (entries, chart)

/-- Steps 1 to 7 of LOAD (R66) on the chart's bytes. -/
def checkChart (env : LoadEnv) (bs : List Byte) : LoadOutcome :=
  let e1 := checkHeader env bs
  if e1 ≠ [] then ⟨St.REFUSED, e1, none⟩
  else
    let e2 := checkVersion bs
    if e2 ≠ [] then ⟨St.VERSION, e2, none⟩
    else
      let e3 := checkPart env bs
      if e3 ≠ [] then ⟨St.REFUSED, e3, none⟩
      else
        let e4 := checkDigest bs
        if e4 ≠ [] then ⟨St.AUTH, e4, none⟩
        else
          let e5 := checkSignature env bs
          if e5 ≠ [] then ⟨St.AUTH, e5, none⟩
          else
            let (e6, p) := checkStructure env bs
            match structureStatus e6 with
            | some st => ⟨st, e6, none⟩
            | none =>
              let (e7, chart) := checkFields env bs p
              if e7.any RepEntry.refuses then ⟨St.REFUSED, e6 ++ e7, none⟩
              else ⟨if e7.isEmpty then St.OK else St.CLAMPED, e6 ++ e7, some chart⟩

end Sys2Proof.Machine
end

