-- ==== Sys2Proof/Machine/Schedule.lean ====
section
/-! DEFINITION. What a chart's stages, windows and handles amount to - producers, rotated handles, fused chains, cross-frame
edges, worst-case times - and step 9 of LOAD (R42, R45, R67, R96, R99-R103, R154, R474). Stages are named by their
STAGES entry index. -/
namespace Sys2Proof.Machine

/-- Stage `i`'s entry; an entry of no handles where there is none. -/
def Chart.stageAt (c : Chart) (i : Nat) : StageE :=
  (c.stages[i]?).getD ⟨0xFFFF, 0, 0xFFFF, [], [], 0, 0, false, false, false, 0⟩

/-- The ENGINES entry a stage is bound to. -/
def Chart.engineAt (c : Chart) (e : Nat) : EngineE := (c.engines[e]?).getD ⟨0, 0, false, false, 0xFFFF⟩

/-- The engine of stage `i`. -/
def Chart.stageEngine (c : Chart) (i : Nat) : EngineE := c.engineAt (c.stageAt i).engine

/-- The entry index of a stage id. -/
def Chart.stageIdx (c : Chart) (id : Nat) : Option Nat := findIdx (fun s => decide (s.stage = id)) c.stages

/-- All stage indices. -/
def Chart.allStages (c : Chart) : List Nat := List.range c.stages.length

/-- A handle entry by number. -/
def Chart.handle? (c : Chart) (h : Nat) : Option HandleE := c.handles.find? (fun e => e.handle = h)

/-- The window of a window id. -/
def Chart.windowOf (c : Chart) (w : Nat) : WindowE :=
  (c.windows.find? (fun e => e.window = w)).getD ⟨w, 0, false, 0, 0⟩

/-- Frame time, in µs, at which a window opens and closes (R45). -/
def Chart.openUs (c : Chart) (w : Nat) : Nat := (c.windowOf w).period * c.cfg.periodUs + (c.windowOf w).openUs
def Chart.closeUs (c : Chart) (w : Nat) : Nat := (c.windowOf w).period * c.cfg.periodUs + (c.windowOf w).closeUs

/-- Frame time of the publish point in µs (R45). -/
def Chart.publishUs (c : Chart) : Nat := c.cfg.publishPeriod * c.cfg.periodUs + c.cfg.publishOffsetUs

/-- The clock the schedule check uses, in MHz (R67). -/
def Chart.mhz (c : Chart) : Nat := if c.cfg.piloted then 900 else c.cfg.floorMhz

/-- Worst-case time of a bound, in ns (R67). -/
def Chart.boundNs (c : Chart) (b : Nat) : Nat := ceilDiv (b * 1000) c.mhz

/-- The stages that name handle `h` in out[]. -/
def Chart.producers (c : Chart) (h : Nat) : List Nat := c.allStages.filter (fun i => (c.stageAt i).outs.elem h)

/-- Input `j` of stage `i` is marked previous-frame: in[1] of a FLOW stage (R100). -/
def Chart.isPrev (c : Chart) (i j : Nat) : Bool := decide ((c.stageEngine i).cls = Cls.FLOW ∧ j = 1)

/-- Same-frame and previous-frame inputs of stage `i`. -/
def Chart.sameIns (c : Chart) (i : Nat) : List Nat :=
  ((enum (c.stageAt i).ins).filter (fun p => !c.isPrev i p.1)).map (·.2)
def Chart.prevIns (c : Chart) (i : Nat) : List Nat :=
  ((enum (c.stageAt i).ins).filter (fun p => c.isPrev i p.1)).map (·.2)

/-- Some stage names `h` in out[], and it is a berth group or HBM region (R99). -/
def Chart.rotated (c : Chart) (h : Nat) : Bool :=
  (c.producers h ≠ []) && (match c.handle? h with | some e => e.kind ≤ 1 | none => false)

/-- Cross-frame edges (producer, consumer) (R100). -/
def Chart.crossEdges (c : Chart) : List (Nat × Nat) :=
  c.allStages.flatMap (fun i => (c.prevIns i).flatMap (fun h => (c.producers h).map (fun p => (p, i))))

/-! Fused chains (R96). -/

/-- The stage that stage `i`'s fuse_next names. -/
def Chart.fuseNext (c : Chart) (i : Nat) : Option Nat :=
  let n := (c.stageAt i).fuseNext
  if n = 0xFFFF then none else c.stageIdx n

/-- The stages reached from `i` over fuse_next, `i` first. -/
def Chart.fuseWalk (c : Chart) : Nat → Nat → List Nat
  | 0, _ => []
  | fuel + 1, i => i :: (match c.fuseNext i with | some j => c.fuseWalk fuel j | none => [])

/-- Stage `i` lies on a cycle of links. -/
def Chart.fuseLoops (c : Chart) (i : Nat) : Bool := ((c.fuseWalk (c.stages.length + 1) i).drop 1).elem i

/-- The links that name stage `j`. -/
def Chart.fusedBy (c : Chart) (j : Nat) : List Nat := c.allStages.filter (fun i => c.fuseNext i = some j)

/-- The link leaving `i` breaks a condition of R96 that concerns its two ends: the window, the shared handle, or being the
second to name its target. -/
def Chart.linkBad (c : Chart) (i : Nat) : Bool :=
  match c.fuseNext i with
  | none => false
  | some j => decide ((c.stageAt i).window ≠ (c.stageAt j).window)
      || !((c.stageAt j).ins.any (fun h => (c.stageAt i).outs.elem h))
      || (c.fusedBy j).any (fun k => k < i)

/-- The members of a chain from its head that lie beyond the sixteenth or repeat an engine instance, by the link that
names them. -/
def chainFaults (c : Chart) (ms : List Nat) : List Nat :=
  ((enum ms).filter (fun p => p.1 ≠ 0 && (p.1 = 16 ||
      (ms.take p.1).any (fun m => (c.stageEngine m).cls = (c.stageEngine p.2).cls &&
        (c.stageEngine m).inst = (c.stageEngine p.2).inst)))).map
    (fun p => (ms[p.1 - 1]?).getD 0)

/-- The heads of chains: stages with a fuse_next that no link names and that lie on no cycle. -/
def Chart.heads (c : Chart) : List Nat :=
  c.allStages.filter (fun i => (c.fuseNext i).isSome && c.fusedBy i = [] && !c.fuseLoops i)

/-- The stages whose fuse_next is at fault, in entry order (R96). -/
def Chart.fuseFaults (c : Chart) : List Nat :=
  let n := c.stages.length + 1
  let loops := c.allStages.filter (fun i => c.fuseLoops i && (c.fuseWalk n i).all (fun j => i ≤ j))
  let members := c.heads.flatMap (fun h => chainFaults c (c.fuseWalk n h))
  c.allStages.filter (fun i => loops.elem i || c.linkBad i || members.elem i)

/-- The fused chains, each from its head; a chain any of whose links is at fault counts as unfused. -/
def Chart.chains (c : Chart) : List (List Nat) :=
  let bad := c.fuseFaults
  ((c.heads.map (fun h => c.fuseWalk (c.stages.length + 1) h)).filter (fun ms => ms.all (fun m => !bad.elem m)))

/-- The chain stage `i` belongs to. -/
def Chart.chainOf (c : Chart) (i : Nat) : Option (List Nat) := c.chains.find? (fun ms => ms.elem i)

/-- Stages `i` and `j` are members of one fused chain. -/
def Chart.fused (c : Chart) (i j : Nat) : Bool := c.chains.any (fun ms => ms.elem i && ms.elem j)

/-! Worst-case times (R101). -/

/-- Worst-case start and end of a stage in frame time, ns; none for an unbounded stage. -/
abbrev Times := List (Nat × Option (Nat × Nat))

/-- A stage's end, where it has one. -/
def Times.endOf (t : Times) (i : Nat) : Option Nat := ((t.find? (fun e => e.1 = i)).map (·.2)).join.map (·.2)
/-- A stage's start. -/
def Times.startOf (t : Times) (i : Nat) : Option Nat := ((t.find? (fun e => e.1 = i)).map (·.2)).join.map (·.1)

/-- The stages that stage `i`'s worst-case start depends on (R101). -/
def Chart.deps (c : Chart) (i : Nat) : List Nat :=
  if (c.chainOf i).isSome then []
  else
    let feeders := if (c.stageEngine i).cls = Cls.SND then
        c.allStages.filter (fun j => (c.stageEngine j).cls = Cls.CAMRX || (c.stageEngine j).cls = Cls.CAMP)
      else []
    ((c.sameIns i).flatMap c.producers ++ feeders).filter (fun p => p ≠ i)

/-- Worst-case start and end of stage `i`, given those it depends on (R101). -/
def Chart.timeOf (c : Chart) (t : Times) (i : Nat) : Option (Nat × Nat) :=
  let s := c.stageAt i
  if s.bound = 0 then none
  else
    let opening := c.openUs s.window * 1000
    let start :=
      if (c.chainOf i).isSome then opening
      else
        let m := (c.deps i).foldl (fun a p => match t.endOf p with | some e => max a e | none => a) opening
        if !s.ahead || (c.stageEngine i).cls = Cls.SND then max m ((c.publishUs - c.cfg.periodUs) * 1000) else m
    some (start, start + c.boundNs s.bound)

/-- One pass: every stage whose dependencies are settled. -/
def Chart.settle (c : Chart) (all : Bool) (t : Times) : Times :=
  c.allStages.foldl (fun t i =>
    if t.any (fun e => e.1 = i) then t
    else if all || (c.deps i).all (fun d => t.any (fun e => e.1 = d)) then t ++ [(i, c.timeOf t i)]
    else t) t

/-- Passes enough to settle every stage outside a wait cycle. -/
def Chart.settleAll (c : Chart) : Nat → Times → Times
  | 0, t => c.settle true t
  | fuel + 1, t => c.settleAll fuel (c.settle false t)

/-- Worst-case times of every stage, in dependency order. -/
def Chart.times (c : Chart) : Times := c.settleAll c.stages.length []

/-! The wait-for graph (R103). -/

/-- The stages an edge of the wait-for graph leads to from stage `i`. -/
def Chart.waitEdges (c : Chart) (i : Nat) : List Nat :=
  let consumers := c.allStages.filter (fun j => j ≠ i && (c.sameIns j).any (fun h => (c.stageAt i).outs.elem h))
  let next := (c.allStages.filter (fun j => i < j && (c.stageAt j).window = (c.stageAt i).window &&
    (c.stageAt j).engine = (c.stageAt i).engine)).head?
  consumers ++ next.toList

/-- Everything reachable in at most `fuel` steps. -/
def reachWith (edges : Nat → List Nat) : Nat → List Nat → List Nat
  | 0, seen => seen
  | fuel + 1, seen => reachWith edges fuel ((seen.flatMap edges).foldl (fun a x => addNew x a) seen)

/-- The stages reachable from `i` over at least one edge. -/
def Chart.waitReach (c : Chart) (i : Nat) : List Nat :=
  reachWith c.waitEdges c.stages.length ((c.waitEdges i).foldl (fun a x => addNew x a) [])

/-- The stages that wait on each other round a cycle through `i`. -/
def Chart.waitLoop (c : Chart) (i : Nat) : List Nat := (c.waitReach i).filter (fun j => (c.waitReach j).elem i)

/-! Step 9. -/

/-- A window's length reduced per R42, in quarters of a ns. -/
def reducedQ (lenUs : Nat) : Nat := lenUs * 3999

/-- A window's reduced length in ns, as a report carries it. -/
def Chart.reducedNs (c : Chart) (w : Nat) : Nat := reducedQ (c.closeUs w - c.openUs w) / 4

/-- The entries step 9 writes (R67, R96, R99-R103, R474). -/
def Chart.scheduleFaults (c : Chart) (quay : Nat) : List RepEntry :=
  let f := c.cfg.fif
  let p := c.cfg.periodUs * 1000
  let ts := c.times
  let dep := fun (i o req app : Nat) => (⟨0x05, Why.DEPENDENCY, i * 64 + o, rep48 req, rep48 app⟩ : RepEntry)
  let sch := fun (sec i o req app : Nat) => (⟨sec, Why.SCHEDULE, i * 64 + o, rep48 req, rep48 app⟩ : RepEntry)
  let openNs := fun (i : Nat) => c.openUs (c.stageAt i).window * 1000
  let chain := c.fuseFaults.map (fun i => dep i 0x04 0 0)
  let slots := ((enum c.handles).filter (fun h => c.rotated h.2.handle)).filterMap (fun h =>
    if h.2.kind = 0 then
      (match findIdx (fun b => decide (b.group = h.2.base)) c.berths with
      | some g =>
        if ((c.berths[g]?).map (·.count)).getD 0 % f ≠ 0 then some (⟨0x03, Why.DEPENDENCY, g * 64 + 0x04, 0, 0⟩ : RepEntry)
        else none
      | none => none)
    else if h.2.length / 4096 % f ≠ 0 then some ⟨0x04, Why.DEPENDENCY, h.1 * 64 + 0x10, 0, 0⟩
    else none)
  let single := if f = 1 then (c.crossEdges.map (fun e => dep e.2 0x08 0 0)).foldl (fun a x => addNew x a) [] else []
  let bounded := c.allStages.filter (fun i => (ts.endOf i).isSome)
  let windows := bounded.flatMap (fun i =>
    let s := c.stageAt i
    let w := s.window
    let e := (ts.endOf i).getD 0
    let len := c.closeUs w - c.openUs w
    (if 4 * e > 4 * openNs i + reducedQ len then [sch 0x05 i 0x18 (e - openNs i) (c.reducedNs w)] else [])
    ++ (if (c.windowOf w).lighthouse then [sch 0x05 i 0x1E (c.boundNs s.bound) 0] else [])
    ++ (if c.closeUs w > c.publishUs then [dep i 0x1E (c.closeUs w * 1000) (c.publishUs * 1000)] else []))
  let sharing := bounded.filterMap (fun i =>
    let s := c.stageAt i
    let group := bounded.filter (fun j => (c.stageAt j).engine = s.engine && (c.stageAt j).window = s.window)
    let total := sumNat (group.map (fun j => c.boundNs (c.stageAt j).bound))
    if (c.stageEngine i).cls ≠ Cls.CAMP ∧ group.length > 1 ∧ group.getLast? = some i
        ∧ 4 * total > reducedQ (c.closeUs s.window - c.openUs s.window) then
      some (sch 0x05 i 0x1E total (c.reducedNs s.window))
    else none)
  let lights := (enum c.lights).filterMap (fun l =>
    let t := c.boundNs l.2.bound
    if 4 * t > reducedQ (c.closeUs l.2.window - c.openUs l.2.window) then
      some (sch 0x08 l.1 0x08 t (c.reducedNs l.2.window))
    else none)
  let q0 := if quay = 0 then ((enum c.windows).filter (fun w => c.lights.any (fun l => l.window = w.2.window) &&
      c.closeUs w.2.window + 10 > c.publishUs)).map (fun w =>
        (⟨0x06, Why.DEPENDENCY, w.1 * 64 + 0x08, c.closeUs w.2.window * 1000, (c.publishUs - 10) * 1000⟩ : RepEntry))
    else []
  let reuse := bounded.flatMap (fun i =>
    ((c.sameIns i).filter c.rotated).flatMap (fun h => ((c.producers h).filter (fun k => k ≠ i)).filterMap (fun k =>
      let e := (ts.endOf i).getD 0
      let limit := openNs k + f * p
      if e > limit then some (dep i 0x08 e limit) else none)))
  let cross := c.crossEdges.flatMap (fun e =>
    match ts.endOf e.1, ts.startOf e.2, ts.endOf e.2 with
    | some ep, some sc, some ec =>
      (if ep > sc + p then [dep e.2 0x08 (ep - p) sc] else [])
      ++ (if ec > openNs e.1 + (f - 1) * p then [dep e.2 0x08 ec (openNs e.1 + (f - 1) * p)] else [])
    | _, _, _ => [])
  let cycles := c.allStages.filterMap (fun i =>
    let loop := c.waitLoop i
    if loop.elem i && loop.all (fun j => i ≤ j) then
      let inChain := match c.fuseNext i with | some j => loop.elem j && c.fused i j | none => false
      some (dep i (if inChain then 0x04 else 0x08) 0 0)
    else none)
  (chain ++ slots ++ single ++ windows ++ sharing ++ lights ++ q0 ++ reuse ++ cross ++ cycles).foldl (fun a x => addNew x a) []

end Sys2Proof.Machine
end

