-- ==== Sys2Proof/Config.lean ====
section
/-! DEFINITION. What an implementation fixes and what the spec leaves open. Every constant here is opaque: it has no
body, so nothing in Lean can evaluate it or prove a value of it, and a statement about it holds for every value. -/
namespace Sys2Proof.Config

/-- A free value: the n-th value the spec leaves open, applied to the counter in State (log entry 10). -/
opaque freeValue : Nat → Nat

end Sys2Proof.Config
end

