-- ==== Sys2Proof/Machine/Elvow.lean ====
section
/-! DEFINITION. What the Elvow commands compute (R304, R308-R310, R316, R317, R335-R342): matrix classes, accumulation,
epilogues, elementwise operations, reductions, normalisation, attention and microscaling. -/
namespace Sys2Proof.Machine

/-- A 64-byte command of a tensor or layout program (R308). -/
structure TCmd where
  bytes : List Byte
  deriving DecidableEq, Repr

def TCmd.u (c : TCmd) (o n : Nat) : Nat := leAt c.bytes o n
def TCmd.op (c : TCmd) : Nat := c.u 0 1
def TCmd.flags (c : TCmd) : Nat := c.u 1 1
def TCmd.accum (c : TCmd) : Bool := bitOf c.flags 0
def TCmd.sparse (c : TCmd) : Bool := bitOf c.flags 1
def TCmd.mx (c : TCmd) : Bool := bitOf c.flags 2
def TCmd.nMajor (c : TCmd) : Bool := bitOf c.flags 3
def TCmd.chain (c : TCmd) : Bool := bitOf c.flags 4
def TCmd.final (c : TCmd) : Bool := bitOf c.flags 5
def TCmd.fmtA (c : TCmd) : Nat := c.u 2 1
def TCmd.fmtB (c : TCmd) : Nat := c.u 3 1
def TCmd.fmtOut (c : TCmd) : Nat := c.u 4 1
def TCmd.epi0 (c : TCmd) : Nat := c.u 5 1
def TCmd.epi1 (c : TCmd) : Nat := c.u 6 1
def TCmd.a (c : TCmd) : Nat := c.u 8 2
def TCmd.b (c : TCmd) : Nat := c.u 0x0A 2
def TCmd.c (c : TCmd) : Nat := c.u 0x0C 2
def TCmd.dst (c : TCmd) : Nat := c.u 0x0E 2
def TCmd.m (c : TCmd) : Nat := c.u 0x10 4
def TCmd.n (c : TCmd) : Nat := c.u 0x14 4
def TCmd.k (c : TCmd) : Nat := c.u 0x18 4
/-- A parameter field at its offset in the command. -/
def TCmd.p (c : TCmd) (o n : Nat) : Nat := c.u o n

/-- An operand as a command reads it: its descriptor and what each index yields (R348, R349). -/
structure Opnd where
  d : Desc
  rd : List Int → El

/-- An index tuple of six coordinates. -/
def ix (xs : List Nat) : List Int := (xs.map (fun (n : Nat) => (n : Int))) ++ List.replicate (6 - xs.length) 0

/-- A number's value; FX16's invalid code is NaN in a computation (R334). -/
def Num.fv : Num → Fv
  | .v x => x
  | .invalid => .nan

/-- The value of an operand's element. -/
def Opnd.val (o : Opnd) (xs : List Nat) : Fv × Bool :=
  let e := o.rd (ix xs)
  ((decodeNum o.d.format o.d.bpoint e.code).fv, e.bad)

/-- The FP32 code of an operand's element (R332). -/
def Opnd.val32 (o : Opnd) (xs : List Nat) : Nat × Bool :=
  let v := o.val xs
  (fp32.encode true v.1, v.2)

/-- An element a command writes. -/
structure OutEl where
  idx : List Int
  code : Nat
  bad : Bool
  deriving DecidableEq, Repr

/-! Matrix classes (R304). -/

/-- An integer format. -/
def isIntFmt (f : Nat) : Bool := decide (f ≤ 0x06)
/-- FP8, FP6 or FP4 (R317, R335). -/
def isMxFmt (f : Nat) : Bool := decide (0x07 ≤ f ∧ f ≤ 0x0B)

/-- Kt of the class a format pair runs in, none where no row matches (R304). -/
def matrixClass (fa fb : Nat) (sparse : Bool) : Option Nat :=
  let i8 := [0x02, 0x03]
  let f8 := [0x0A, 0x0B]
  let w4 := [0x01, 0x07, 0x08, 0x09]
  let s4 := [0x00, 0x01, 0x07, 0x08, 0x09]
  if i8.elem fa && fb = 0x03 then some 128
  else if f8.elem fa && f8.elem fb then some 128
  else if (i8.elem fa || f8.elem fa) && w4.elem fb then some 128
  else if (fa = 0x0C || fa = 0x0D) && fb = fa then some 64
  else if s4.elem fa && w4.elem fb then some (if sparse then 512 else 256)
  else none

/-- The pair is of class S4 (R316). -/
def isS4 (fa fb : Nat) : Bool := [0x00, 0x01, 0x07, 0x08, 0x09].elem fa && [0x01, 0x07, 0x08, 0x09].elem fb

/-- An accumulator value (R337). -/
inductive Acc where
  | int (i : Int)
  /-- FP32 code. -/
  | fp (c : Nat)
  deriving DecidableEq, Repr

/-- Remove the element at an index. -/
def removeAt {α : Type} : Nat → List α → List α
  | _, [] => []
  | 0, _ :: t => t
  | n + 1, x :: t => x :: removeAt n t

/-- A list in the order a free number picks; every order is picked by some number. -/
def permBy {α : Type} : Nat → Nat → List α → List α
  | 0, _, xs => xs
  | _ + 1, _, [] => []
  | f + 1, k, x :: xs =>
    let n := xs.length + 1
    match (x :: xs)[k % n]? with
    | some y => y :: permBy f (k / n) (removeAt (k % n) (x :: xs))
    | none => x :: xs

/-- FP32 sum of FP32 terms in the order a free number picks (R337). -/
def freeSum32 (free : Nat) (ts : List Nat) : Nat :=
  (permBy ts.length free ts).foldl f32Add 0

/-- Groups of 32. -/
def groups32 {α : Type} : Nat → List α → List (List α)
  | 0, _ => []
  | _ + 1, [] => []
  | f + 1, xs => xs.take 32 :: groups32 f (xs.drop 32)

/-- One product term: its factors and poison. -/
abbrev Term := Fv × Fv × Bool

/-- The exact sum of a group's products. -/
def groupSum (g : List Term) : Fv := g.foldl (fun a t => a.add (t.1.mul t.2.1)) (.fin false 0 0)

/-- A dot product (R337): `scale` gives the scale product of each group of 32, `extra` the stored dst value. -/
def dot (ints : Bool) (terms : List Term) (scale : Nat → Fv) (extra : Option Acc) (free : Nat) : Acc :=
  if ints then
    let s := terms.foldl (fun (a : Int) t => a + t.1.floor * t.2.1.floor) 0
    let s := match extra with | some (.int i) => s + i | _ => s
    .int (clampInt (-2147483648) 2147483647 s)
  else
    let gs := (enum (groups32 terms.length terms)).map (fun g => to32 ((groupSum g.2).mul (scale g.1)))
    .fp (freeSum32 free (match extra with | some (.fp c) => gs ++ [c] | _ => gs))

/-! Transcendental operations (R310, R341, R342). -/

/-- Code order of FP32 values as integers. -/
def ordOf (c : Nat) : Int := if c < 2 ^ 31 then (c : Int) else -((c - 2 ^ 31 : Nat) : Int)
/-- The code at a place in that order. -/
def codeAt (i : Int) : Nat := if i < 0 then 2 ^ 31 + i.natAbs else i.toNat

/-- Magnitude of a value. -/
def Fv.mag : Fv → Fv
  | .fin _ m e => .fin false m e
  | .inf _ => .inf false
  | .nan => .nan

/-- Spacing of FP32 numbers at y (R342). -/
def ulp32 (y : Fv) : Fv :=
  match y with
  | .fin _ m _ => if m = 0 then .fin false 1 (-149) else .fin false 1 (max (y.exp2 - 23) (-149))
  | _ => .fin false 0 0

/-- The greater of two values. -/
def Fv.maxv (a b : Fv) : Fv := if a.lt b then b else a

/-- An FP32 result within `bound` of the exact y, the free number choosing which (R342). -/
def within (y bound : Fv) (free : Nat) : Nat :=
  let c0 := to32 y
  let d : Int := if free % 2 = 0 then (free / 2 : Nat) else -((free / 2 : Nat) : Int)
  let c := codeAt (ordOf c0 + d)
  let v := f32 c
  if v.isFin && ((v.add y.neg).mag.le bound) then c else c0

/-- √(2 ÷ π) in fixed point. -/
def fxGelu : Int := 0xcc42299ea1b284687e59e2805d5c717fa7053e60a24e0db1808e369004c73a5d3bf158aa88fa7b6e

/-- exp of a value as an exact value; 0 far below every FP32 number. -/
def expFv (x : Fv) : Fv :=
  if x.lt (Fv.ofInt (-200)) then .fin false 0 0 else ofFx (fxExp x.toFx)

/-- 1 ÷ (1 + e^-x). -/
def sigmoidFv (x : Fv) : Fv :=
  if (Fv.ofInt 200).lt x then .fin false 1 0
  else if x.lt (Fv.ofInt (-200)) then .fin false 0 0
  else ofFx (fxDiv fxOne (fxOne + fxExp (-(x.toFx))))

/-- tanh. -/
def tanhFv (x : Fv) : Fv :=
  if (Fv.ofInt 100).lt x then .fin false 1 0
  else if x.lt (Fv.ofInt (-100)) then .fin true 1 0
  else
    let e := fxExp (2 * x.toFx)
    ofFx (fxDiv (e - fxOne) (e + fxOne))

/-- GELU in its tanh form (log entry 34). -/
def geluFv (x : Fv) : Fv :=
  if (Fv.ofInt 200).lt x then x
  else if x.lt (Fv.ofInt (-200)) then .fin true 0 0
  else
    let v := x.toFx
    let inner := fxMul fxGelu (v + fxMul (44715 * fxOne / 1000000) (fxMul v (fxMul v v)))
    (x.mul (.fin false 1 (-1))).mul ((Fv.fin false 1 0).add (tanhFv (ofFx inner)))

/-- The result of a transcendental operation on an FP32 code (R341, R342). -/
def transcend (op x free : Nat) : Nat :=
  let v := f32 x
  let ab := fun (n : Int) => (Fv.fin false 1 n)
  match v with
  | .nan => fp32.nanCode
  | .inf neg =>
    (match op with
    | 0x0B => if neg then 0 else fp32.infCode
    | 0x0C => if neg then 2 ^ 31 else 0
    | 0x0D => if neg then fp32.nanCode else 0
    | 0x09 => if neg then 0 else f32OfInt 1
    | 0x0A => if neg then f32OfInt (-1) else f32OfInt 1
    | _ => if neg then 2 ^ 31 else fp32.infCode)
  | .fin neg m _ =>
    match op with
    | 0x0B =>
      if (Fv.ofInt 200).lt v then fp32.infCode
      else
        let y := expFv v
        if (f32 fp32.maxCode).lt y then fp32.infCode
        else within y (if y.lt (ab (-126)) then ab (-126) else (ulp32 y).mul (Fv.ofInt 2)) free
    | 0x0C => if m = 0 then bitAt neg 31 + fp32.infCode else
        let y := (Fv.fin false 1 0).div v
        within y (ulp32 y) free
    | 0x0D => if m = 0 then bitAt neg 31 + fp32.infCode
        else if neg then fp32.nanCode
        else let y := (Fv.fin false 1 0).div v.sqrt; within y (ulp32 y) free
    | 0x09 => let y := sigmoidFv v; within y (Fv.maxv ((ulp32 y).mul (Fv.ofInt 2)) (ab (-24))) free
    | 0x0A => let y := tanhFv v; within y (Fv.maxv ((ulp32 y).mul (Fv.ofInt 2)) (ab (-24))) free
    | 0x07 => let y := geluFv v; within y (Fv.maxv ((ulp32 y).mul (Fv.ofInt 4)) (ab (-23))) free
    | _ => let y := v.mul (sigmoidFv v); within y (Fv.maxv ((ulp32 y).mul (Fv.ofInt 4)) (ab (-23))) free

/-- max and min of FP32 codes; NaN with a NaN operand (R339). -/
def f32Max (a b : Nat) : Nat := if f32 a = .nan ∨ f32 b = .nan then fp32.nanCode else if f32Lt a b then b else a
def f32Min (a b : Nat) : Nat := if f32 a = .nan ∨ f32 b = .nan then fp32.nanCode else if f32Lt b a then b else a

/-- ReLU of an FP32 code. -/
def relu32 (x : Nat) : Nat := if f32 x = .nan then fp32.nanCode else if f32Lt 0 x then x else 0

/-- Operations that may be epilogues (R310). -/
def isEpilogue (op : Nat) : Bool := [0x00, 0x06, 0x07, 0x08, 0x09, 0x0A, 0x0B, 0x0C, 0x0D, 0x0E, 0x11].elem op

/-- An epilogue's scale and bias of a column from operand c (R310). -/
def affineOf (c : Option Opnd) (col : Nat) : Nat × Nat × Bool :=
  match c with
  | some o => let s := o.val32 [col, 0]; let b := o.val32 [col, 1]; (s.1, b.1, s.2 || b.2)
  | none => (f32OfInt 1, 0, false)

/-- One unary operation on an FP32 code with its column's affine pair and scalar (R310, R338). -/
def unary32 (op x : Nat) (aff : Nat × Nat) (scalar free : Nat) : Nat :=
  match op with
  | 0x00 => x
  | 0x06 => relu32 x
  | 0x0E => f32Add (f32Mul x aff.1) aff.2
  | 0x11 => f32Mul x scalar
  | _ => transcend op x free

/-- The FP32 code of an accumulator (R332). -/
def Acc.to32 : Acc → Nat
  | .int i => fp32.encode true (Fv.ofInt i)
  | .fp c => c

/-- Apply an epilogue (R338). -/
def Acc.epi (a : Acc) (op : Nat) (aff : Nat × Nat) (scalar free : Nat) : Acc :=
  match op, a with
  | 0x00, _ => a
  | 0x06, .int i => .int (max 0 i)
  | _, _ => .fp (unary32 op a.to32 aff scalar free)

/-- The code in a format of an accumulator (R332, R333). -/
def Acc.code (a : Acc) (f bp : Nat) : Nat :=
  match a with
  | .int i => encodeNum f bp (.v (Fv.ofInt i))
  | .fp c => encodeNum f bp (.v (f32 c))

/-! MATMUL and CONV2D (R309, R316, R317, R337). -/

/-- A scale operand's value at an index; 1 without one. -/
def scaleAt (o : Option Opnd) (xs : List Nat) : Fv × Bool :=
  match o with
  | some s => s.val xs
  | none => (.fin false 1 0, false)

/-- The operands of a command. -/
structure Opnds where
  a : Opnd
  b : Option Opnd
  c : Option Opnd
  dst : Opnd
  /-- Scales of a and b (MX), and the mask of ATTN. -/
  sa : Option Opnd
  sb : Option Opnd
  /-- The 2:4 index nibble of group g and column j of a sparse b (R316). -/
  nib : Nat → Nat → Nat × Bool

/-- b[k, n], or b[n, k] where it is stored N-major. -/
def TCmd.bAt (c : TCmd) (o : Opnds) (k n : Nat) : Fv × Bool :=
  match o.b with
  | none => (.fin false 0 0, false)
  | some b => b.val (if c.nMajor then [n, k] else [k, n])

/-- The weight at logical k and column n, through the 2:4 groups where b is sparse (R316). -/
def TCmd.weight (c : TCmd) (o : Opnds) (k n : Nat) : Fv × Bool :=
  if !c.sparse then c.bAt o k n
  else
    let g := k / 4
    let (nb, bad) := o.nib g n
    let v0 := c.bAt o (2 * g) n
    let v1 := c.bAt o (2 * g + 1) n
    let x := (if nb % 4 = k % 4 then v0.1 else .fin false 0 0)
    let y := (if nb / 4 % 4 = k % 4 then v1.1 else .fin false 0 0)
    (x.add y, bad || v0.2 || v1.2)

/-- One output of a matrix command: `av` gives the activation at each k, (i, j) its row and column. -/
def TCmd.matOut (c : TCmd) (o : Opnds) (av : Nat → Fv × Bool) (i j : Nat) (idx : List Int) (scalarOff : Nat) (free : Nat → Nat) : OutEl :=
  let ints := isIntFmt c.fmtA && isIntFmt c.fmtB
  let ts := (List.range c.k).map (fun k => let a := av k; let b := c.weight o k j; ((a.1, b.1, a.2 || b.2) : Term))
  let sc := fun g => if c.mx then ((scaleAt o.sa [i, g]).1).mul (scaleAt o.sb (if c.nMajor then [j, g] else [g, j])).1 else .fin false 1 0
  let scBad := c.mx && (List.range (ceilDiv c.k 32)).any (fun g =>
    (scaleAt o.sa [i, g]).2 || (scaleAt o.sb (if c.nMajor then [j, g] else [g, j])).2)
  let old := o.dst.rd idx
  let extra := if c.accum then
      let v := (decodeNum o.dst.d.format o.dst.d.bpoint old.code).fv
      some (if ints then Acc.int (match v.toIntRne with | some n => clampInt (-2147483648) 2147483647 n | none => 0)
        else Acc.fp (fp32.encode true v))
    else none
  let acc := dot ints ts sc extra (free 0)
  let aff := affineOf o.c j
  let scalar := c.p scalarOff 4
  let r := (acc.epi c.epi0 (aff.1, aff.2.1) scalar (free 1)).epi c.epi1 (aff.1, aff.2.1) scalar (free 2)
  let useAff := c.epi0 = 0x0E || c.epi1 = 0x0E
  ⟨idx, r.code c.fmtOut o.dst.d.bpoint,
    ts.any (fun t => t.2.2) || scBad || (c.accum && old.bad) || (useAff && aff.2.2)⟩

/-- Free numbers for output number n: three apart. -/
def freeAt (free : Nat → Nat) (n : Nat) : Nat → Nat := fun i => free (3 * n + i)

/-- MATMUL (R309). -/
def TCmd.matmul (c : TCmd) (o : Opnds) (free : Nat → Nat) : List OutEl :=
  (List.range c.m).flatMap (fun i => (List.range c.n).map (fun j =>
    c.matOut o (fun k => o.a.val [i, k]) i j (ix [i, j]) 0x24 (freeAt free (i * c.n + j))))

/-- CONV2D (R309): images have dimensions channel, column and row; k runs over kernel row, kernel column and channel
(log entry 33). -/
def TCmd.conv2d (c : TCmd) (o : Opnds) (free : Nat → Nat) : List OutEl :=
  let kw := c.p 0x21 1
  let sh := c.p 0x22 1
  let sw := c.p 0x23 1
  let dh := c.p 0x24 1
  let dw := c.p 0x25 1
  let groups := max 1 (c.p 0x26 2)
  let wo := max 1 (o.dst.d.size 1)
  let kh := max 1 (c.p 0x20 1)
  let cg := max 1 (c.k / (kh * max 1 kw))
  let perGroup := max 1 (ceilDiv c.n groups)
  (List.range c.m).flatMap (fun i => (List.range c.n).map (fun j =>
    let ox := i % wo
    let oy := i / wo
    let av := fun k =>
      let ch := k % cg + (j / perGroup) * cg
      let s := k / cg % max 1 kw
      let r := k / cg / max 1 kw
      let e := o.a.rd [(ch : Int), ((ox * sw + s * dw : Nat) : Int) - o.a.d.lo 1, ((oy * sh + r * dh : Nat) : Int) - o.a.d.lo 2, 0, 0, 0]
      ((decodeNum o.a.d.format o.a.d.bpoint e.code).fv, e.bad)
    c.matOut o av i j (ix [j, ox, oy]) 0x28 (freeAt free (i * c.n + j))))

/-! VEC, REDUCE and NORM (R309, R310, R339). -/

/-- exp of a score relative to the row's maximum, as an exact value. -/
def expRel (x mx : Fv) : Fv :=
  match x with
  | .inf _ => .fin false 0 0
  | _ => expFv (x.add mx.neg)

/-- The greatest of finite or infinite values, -∞ for none. -/
def Fv.maxOf (xs : List Fv) : Fv := xs.foldl (fun a b => if a.lt b then b else a) (.inf true)

/-- Sum of values. -/
def Fv.sumOf (xs : List Fv) : Fv := xs.foldl Fv.add (.fin false 0 0)

/-- n × 2^a + 2^b. -/
def relBound (n : Nat) (a b : Int) : Fv := (Fv.fin false n a).add (.fin false 1 b)

/-- Softmax of a row (R310, R341, R342): each element's FP32 code. -/
def softmaxRow (xs : List Fv) (free : Nat → Nat) : List Nat :=
  let n := xs.length
  if xs.any (fun x => x = .nan) || xs.any (fun x => x = .inf false) then List.replicate n fp32.nanCode
  else if xs.all (fun x => x = .inf true) then List.replicate n 0
  else
    let mx := Fv.maxOf xs
    let es := xs.map (fun x => expRel x mx)
    let s := Fv.sumOf es
    (enum es).map (fun e =>
      let y := e.2.div s
      within y (y.mul (relBound n (-23) (-20))) (free e.1))

/-- Every in-bounds index of dst with its number. -/
def Opnd.all (o : Opnd) : List (Nat × List Int) :=
  enum (o.d.indices.map (fun t => t ++ List.replicate (6 - t.length) 0))

/-- VEC (R309, R310). -/
def TCmd.vec (c : TCmd) (o : Opnds) (free : Nat → Nat) : List OutEl :=
  let op := c.p 0x20 1
  let get := fun (x : Opnd) (i : List Int) => let e := x.rd i; (fp32.encode true (decodeNum x.d.format x.d.bpoint e.code).fv, e.bad)
  let last := o.a.d.rank - 1
  let out := fun (v : Nat) => encodeNum c.fmtOut o.dst.d.bpoint (.v (f32 v))
  let epi := fun (n : Nat) (i : List Int) (v : Nat) =>
    let aff := affineOf o.c (i.getD 1 0).toNat
    let ap := fun (e v f : Nat) => unary32 e v (aff.1, aff.2.1) (c.p 0x24 4) f
    (ap c.epi1 (ap c.epi0 v (free (3 * n + 1))) (free (3 * n + 2)), (c.epi0 = 0x0E || c.epi1 = 0x0E) && aff.2.2)
  o.dst.all.map (fun e =>
    let i := e.2
    let x := get o.a i
    let y := match o.b with | some b => get b i | none => (0, false)
    let r : Nat × Bool :=
      match op with
      | 0x01 => (f32Add x.1 y.1, x.2 || y.2)
      | 0x02 => (f32Sub x.1 y.1, x.2 || y.2)
      | 0x03 => (f32Mul x.1 y.1, x.2 || y.2)
      | 0x04 => (f32Max x.1 y.1, x.2 || y.2)
      | 0x05 => (f32Min x.1 y.1, x.2 || y.2)
      | 0x0F => (f32Max (f32Min x.1 (c.p 0x28 4)) (c.p 0x24 4), x.2)
      | 0x10 =>
        let row := (List.range (o.a.d.size last)).map (fun (k : Nat) => get o.a (setAt i last (k : Int)))
        let p := softmaxRow (row.map (fun v => f32 v.1)) (fun k => free (3 * (e.1 - e.1 % max 1 (o.a.d.size last)) + 3 * k))
        (p.getD (i.getD last 0).toNat 0, row.any (·.2))
      | 0x0E => let aff := affineOf o.c (i.getD 1 0).toNat
        (unary32 0x0E x.1 (aff.1, aff.2.1) 0 0, x.2 || aff.2.2)
      | _ => (unary32 op x.1 (f32OfInt 1, 0) (c.p 0x24 4) (free (3 * e.1)), x.2)
    let z := epi e.1 i r.1
    ⟨i, out z.1, r.2 || z.2⟩)

/-- REDUCE (R309, R339, R342). -/
def TCmd.reduce (c : TCmd) (o : Opnds) (free : Nat → Nat) : List OutEl :=
  let op := c.p 0x20 1
  let axis := c.p 0x21 1
  let n := o.a.d.size axis
  o.dst.all.map (fun e =>
    let xs := (List.range n).map (fun (k : Nat) =>
      let v := o.a.rd (setAt e.2 axis (k : Int))
      (fp32.encode true (decodeNum o.a.d.format o.a.d.bpoint v.code).fv, v.bad))
    let codes := xs.map (·.1)
    let sum :=
      let y := Fv.sumOf (codes.map f32)
      if !y.isFin || n ≤ 2 then to32 y
      else within y ((Fv.fin false n (-24)).mul (Fv.sumOf (codes.map (fun c => (f32 c).mag)))) (free (3 * e.1))
    let r := match op with
      | 0 => sum
      | 1 => (codes.drop 1).foldl f32Max (codes.headD 0)
      | 2 => (codes.drop 1).foldl f32Min (codes.headD 0)
      | _ => f32Div sum (f32OfInt n)
    let aff := affineOf o.c (e.2.getD 1 0).toNat
    let ap := fun (ep v f : Nat) => unary32 ep v (aff.1, aff.2.1) (c.p 0x24 4) f
    let z := ap c.epi1 (ap c.epi0 r (free (3 * e.1 + 1))) (free (3 * e.1 + 2))
    ⟨e.2, encodeNum c.fmtOut o.dst.d.bpoint (.v (f32 z)),
      xs.any (·.2) || ((c.epi0 = 0x0E || c.epi1 = 0x0E) && aff.2.2)⟩)

/-- The exact normalised values of a row (R339; log entry 34). -/
def normRow (kind : Nat) (eps : Fv) (xs : List Fv) : List Fv :=
  let n := Fv.ofInt xs.length
  let mean := if kind = 0 then (Fv.sumOf xs).div n else .fin false 0 0
  let ds := xs.map (fun x => x.add mean.neg)
  let var := (Fv.sumOf (ds.map (fun d => d.mul d))).div n
  let r := (var.add eps).sqrt
  ds.map (fun d => d.div r)

/-- NORM (R309, R339, R342). -/
def TCmd.norm (c : TCmd) (o : Opnds) (free : Nat → Nat) : List OutEl :=
  let eps := f32 (c.p 0x24 4)
  (List.range c.m).flatMap (fun i =>
    let xs := (List.range c.n).map (fun j => o.a.val32 [i, j])
    let bad := xs.any (·.2)
    let ys := normRow (c.p 0x20 1) eps (xs.map (fun x => f32 x.1))
    (enum ys).map (fun y =>
      let j := y.1
      let x := if y.2.isFin then within y.2 ((relBound c.n (-23) (-20)).mul (y.2.mag.add (.fin false 1 0))) (free (3 * (i * c.n + j)))
        else to32 y.2
      let b := match o.b with | some b => b.val32 [j] | none => (f32OfInt 1, false)
      let d := match o.c with | some d => d.val32 [j] | none => (0, false)
      let v := if o.b.isSome then f32Mul x b.1 else x
      let v := if o.c.isSome then f32Add v d.1 else v
      ⟨ix [i, j], encodeNum c.fmtOut o.dst.d.bpoint (.v (f32 v)), bad || b.2 || d.2⟩))

/-! ATTN (R309, R340, R342). -/

/-- One output of attention: query i of head h, column j of V. -/
def TCmd.attnOut (c : TCmd) (o : Opnds) (h i j : Nat) (free : Nat) : OutEl :=
  let hd := c.p 0x22 2
  let scale := f32 (c.p 0x24 4)
  let causal := bitOf (c.p 0x2A 1) 0
  let kAt := fun (n d : Nat) => match o.b with | some b => b.val [n, h * hd + d] | none => (.fin false 0 0, false)
  let vAt := fun (n : Nat) => match o.c with | some v => v.val [n, h * hd + j] | none => (.fin false 0 0, false)
  let rows := (List.range c.n).map (fun n =>
    let ts := (List.range hd).map (fun d => let q := o.a.val [i, h * hd + d]; let k := kAt n d; (q.1.mul k.1, q.2 || k.2))
    let raw := Fv.sumOf (ts.map (·.1))
    let mag := Fv.sumOf (ts.map (fun t => t.1.mag))
    let mask := match o.sa with | some m => m.val [i, n] | none => (.fin false 0 0, false)
    let excl := (causal && decide (n > i)) || mask.1 = .inf true
    let q := ceilDiv hd 32
    let delta := scale.mag.mul (((mag.mul (.fin false (q + 1) (-23)))).add (.fin false q (-149)))
    let v := vAt n
    ((raw.mul scale).add mask.1, delta, excl, v.1, (!excl && ts.any (·.2)) || mask.2 || v.2))
  let live := rows.filter (fun r => !r.2.2.1)
  let bad := rows.any (fun r => r.2.2.2.2)
  let finish := fun (code : Nat) => (⟨ix [i, h * hd + j], encodeNum c.fmtOut o.dst.d.bpoint (.v (f32 code)), bad⟩ : OutEl)
  let scores := live.map (·.1)
  if live.isEmpty then finish 0
  else if scores.any (fun s => s = .nan) || scores.any (fun s => s = .inf false) then finish fp32.nanCode
  else if scores.all (fun s => s = .inf true) then finish 0
  else
    let mx := Fv.maxOf scores
    let es := live.map (fun r => (expRel r.1 mx, r.2.2.2.1))
    let s := Fv.sumOf (es.map (·.1))
    let excluded := (rows.filter (fun r => r.2.2.1)).map (fun r => (Fv.fin false 0 0).mul r.2.2.2.1)
    let y := (Fv.sumOf (es.map (fun e =>
      let p := e.1.div s
      if e.2.isFin then p.mul e.2 else (f32 (to32 p)).mul e.2))).add (Fv.sumOf excluded)
    if !y.isFin then finish (to32 y)
    else
      let maxV := Fv.maxOf (rows.map (fun r => r.2.2.2.1.mag))
      let delta := Fv.maxOf (live.map (fun r => r.2.1))
      finish (within y ((delta.mul (Fv.ofInt 2)).add ((relBound c.n (-22) (-19)).mul maxV)) free)

/-- ATTN (R309). -/
def TCmd.attn (c : TCmd) (o : Opnds) (free : Nat → Nat) : List OutEl :=
  let hd := c.p 0x22 2
  (List.range (c.p 0x20 2)).flatMap (fun h => (List.range c.m).flatMap (fun i => (List.range hd).map (fun j =>
    c.attnOut o h i j (free (3 * ((h * c.m + i) * hd + j))))))

/-! COPY and microscaling (R309, R336). -/

/-- COPY without scales: dst[i] = conv(a[i - pad_lo(a)]), as in R362. -/
def copyOut (a dst : Opnd) : List OutEl :=
  dst.all.map (fun e =>
    let i := (enum e.2).map (fun p => if p.1 < a.d.rank then p.2 - (a.d.lo p.1 : Int) else p.2)
    let x := a.rd i
    ⟨e.2, convertElem a.d.format a.d.bpoint dst.d.format dst.d.bpoint x.code, x.bad⟩)

/-- FETCH: the codes of a, unconverted (R309). -/
def fetchOut (a dst : Opnd) : List OutEl :=
  dst.all.map (fun e =>
    let i := (enum e.2).map (fun p => if p.1 < a.d.rank then p.2 - (a.d.lo p.1 : Int) else p.2)
    let x := a.rd i
    ⟨e.2, x.code, x.bad⟩)

/-- emax of an MX element format (R336). -/
def mxEmax (f : Nat) : Int :=
  match f with | 0x0A => 8 | 0x0B => 15 | 0x08 => 2 | 0x09 => 4 | _ => 2

/-- The scale code and element codes of one block (R336). -/
def mxBlock (f : Nat) (xs : List Fv) : Nat × List Nat :=
  let am := Fv.maxOf (xs.map Fv.mag)
  if xs.any (fun x => !x.isFin) then (0xFF, xs.map (fun _ => 0))
  else
    let small := am.isZero || am.lt (.fin false 1 (-126))
    let e : Int := if small then -127 else clampInt (-127) 127 (am.exp2 - mxEmax f)
    ((e + 127).toNat, xs.map (fun x => encodeNum f 0 (.v (x.mul (.fin false 1 (-e))))))

/-- COPY to an MX tensor (R336): elements of dst, and scales for operand c. -/
def TCmd.mxCopy (c : TCmd) (a : Opnd) : List OutEl × List OutEl :=
  let blocks := (List.range c.m).flatMap (fun i => (List.range (c.k / 32)).map (fun g =>
    let xs := (List.range 32).map (fun t => a.val [i, 32 * g + t])
    (i, g, mxBlock c.fmtOut (xs.map (·.1)), xs.any (·.2))))
  (blocks.flatMap (fun b => (enum b.2.2.1.2).map (fun e => ⟨ix [b.1, 32 * b.2.1 + e.1], e.2, b.2.2.2⟩)),
   blocks.map (fun b => ⟨ix [b.1, b.2.1], b.2.2.1.1, b.2.2.2⟩))

/-! Layout commands (R362, R363). -/

/-- PERMUTE: dst[i] = conv(a[j]) (R362). -/
def TCmd.permute (c : TCmd) (a dst : Opnd) : List OutEl :=
  let perm := fun d => c.p (0x20 + d) 1
  dst.all.map (fun e =>
    let j := (List.range 6).map (fun t =>
      match (List.range 6).find? (fun d => perm d = t) with
      | some d => e.2.getD d 0 - (a.d.lo t : Int)
      | none => 0)
    let x := a.rd j
    ⟨e.2, convertElem a.d.format a.d.bpoint dst.d.format dst.d.bpoint x.code, x.bad⟩)

/-- Row k of a block list: coordinates, skip, poison (R363). -/
def listRow (b : Opnd) (k : Nat) : List Nat × Bool × Bool :=
  let e := fun (i : Nat) => b.rd (ix [i, k])
  let cs := (List.range 6).map (fun i => (e i).code)
  (cs, bitOf (e 6).code 0, (List.range 8).any (fun i => (e i).bad))

/-- Coordinates lie inside a block grid. -/
def Desc.inGrid (d : Desc) (cs : List Nat) : Bool :=
  (enum cs).all (fun p => if p.1 < d.rank then decide (p.2 < d.blockCount p.1) else p.2 = 0)

/-- GATHER (R362, R363). -/
def TCmd.gather (c : TCmd) (o : Opnds) : List OutEl :=
  match o.b with
  | none => []
  | some b => (List.range c.m).flatMap (fun k =>
    let (cs, skip, bad) := listRow b k
    let di := o.dst.d.blockIndices (o.dst.d.blockCoords k)
    let si := o.a.d.blockIndices cs
    (di.zip si).map (fun p =>
      let full := fun (t : List Int) => t ++ List.replicate (6 - t.length) 0
      if skip || !o.a.d.inGrid cs then ⟨full p.1, o.dst.d.fill, bad⟩
      else
        let x := o.a.rd (full p.2)
        ⟨full p.1, convertElem o.a.d.format o.a.d.bpoint o.dst.d.format o.dst.d.bpoint x.code, x.bad || bad⟩))

/-- SCATTER (R362, R363). -/
def TCmd.scatter (c : TCmd) (o : Opnds) : List OutEl :=
  match o.b with
  | none => []
  | some b => (List.range c.m).flatMap (fun k =>
    let (cs, skip, bad) := listRow b k
    if skip || !o.dst.d.inGrid cs then []
    else
      let di := o.dst.d.blockIndices cs
      let si := o.a.d.blockIndices (o.a.d.blockCoords k)
      (di.zip si).map (fun p =>
        let full := fun (t : List Int) => t ++ List.replicate (6 - t.length) 0
        let x := o.a.rd (full p.2)
        ⟨full p.1, convertElem o.a.d.format o.a.d.bpoint o.dst.d.format o.dst.d.bpoint x.code, x.bad || bad⟩))

/-- FILL (R362). -/
def fillOut (dst : Opnd) : List OutEl := dst.all.map (fun e => ⟨e.2, dst.d.fill, false⟩)

end Sys2Proof.Machine
end

