-- ==== Sys2Proof/Machine/Soundings.lean ====
section
/-! DEFINITION. What the Soundings engine computes (R270-R288): the map region, the voxel hash, integration of depth,
eviction, export and the floor plane. -/
namespace Sys2Proof.Machine

/-- SND's map part: the bytes of its VISION entry (R287). -/
structure SndMap where
  bytes : List Byte
  deriving DecidableEq, Repr

def SndMap.u (m : SndMap) (o n : Nat) : Nat := leAt m.bytes o n
def SndMap.count (m : SndMap) : Nat := m.u 8 1
def SndMap.mapHandle (m : SndMap) : Nat := m.u 0x10 2
def SndMap.exportHandle (m : SndMap) : Nat := m.u 0x12 2
def SndMap.voxelMm (m : SndMap) : Nat := m.u 0x14 1
def SndMap.truncVox (m : SndMap) : Nat := m.u 0x15 1
def SndMap.tableLog2 (m : SndMap) : Nat := m.u 0x16 1
def SndMap.maxWeight (m : SndMap) : Nat := m.u 0x17 1
def SndMap.poolBlocks (m : SndMap) : Nat := m.u 0x18 4
def SndMap.blocksMax (m : SndMap) : Nat := m.u 0x1C 2
def SndMap.evictAge (m : SndMap) : Nat := m.u 0x1E 2
def SndMap.evictRadiusCm (m : SndMap) : Nat := m.u 0x20 4
def SndMap.evictScan (m : SndMap) : Nat := m.u 0x24 2
def SndMap.evictMax (m : SndMap) : Nat := m.u 0x26 2
def SndMap.floorZ0 (m : SndMap) : Int := toSigned 32 (m.u 0x28 4)
def SndMap.floorBand (m : SndMap) : Nat := m.u 0x2C 2
def SndMap.floorMin (m : SndMap) : Nat := m.u 0x2E 2
def SndMap.floorFit (m : SndMap) : Bool := bitOf (m.u 0x30 1) 0
def SndMap.floorTrack (m : SndMap) : Bool := bitOf (m.u 0x30 1) 1
/-- Voxel size and truncation distance in metres, FP32 (R272). -/
def SndMap.s (m : SndMap) : Nat := f32Div (f32OfInt m.voxelMm) (f32OfInt 1000)
def SndMap.tau (m : SndMap) : Nat := f32Mul (f32OfInt m.truncVox) m.s
/-- Offsets in the map region (R271). -/
def SndMap.tableOff (_m : SndMap) : Nat := 4096
def SndMap.stackOff (m : SndMap) : Nat := 4096 + 16 * 2 ^ m.tableLog2
def SndMap.poolOff (m : SndMap) : Nat := ceilDiv (m.stackOff + 4 * m.poolBlocks) 4096 * 4096

/-- A SND job record (R288). -/
structure SndJob where
  bytes : List Byte
  deriving DecidableEq, Repr

def SndJob.u (j : SndJob) (o n : Nat) : Nat := leAt j.bytes o n
def SndJob.stage (j : SndJob) : Nat := j.u 0 2
def SndJob.inKind (j : SndJob) : Nat := j.u 2 1
def SndJob.confIn (j : SndJob) : Bool := bitOf (j.u 3 1) 0
def SndJob.floorPts (j : SndJob) : Bool := bitOf (j.u 3 1) 1
def SndJob.step (j : SndJob) : Nat := j.u 4 1
def SndJob.minConf (j : SndJob) : Nat := j.u 5 1
def SndJob.unitUm (j : SndJob) : Nat := j.u 6 2
def SndJob.w (j : SndJob) : Nat := j.u 8 2
def SndJob.h (j : SndJob) : Nat := j.u 0x0A 2
def SndJob.layout (j : SndJob) : Nat := j.u 0x0C 1
def SndJob.minMm (j : SndJob) : Nat := j.u 0x10 4
def SndJob.maxMm (j : SndJob) : Nat := j.u 0x14 4
def SndJob.bf (j : SndJob) : Nat := j.u 0x18 4
def SndJob.fx (j : SndJob) : Nat := j.u 0x1C 4
def SndJob.fy (j : SndJob) : Nat := j.u 0x20 4
def SndJob.cx (j : SndJob) : Nat := j.u 0x24 4
def SndJob.cy (j : SndJob) : Nat := j.u 0x28 4
/-- The format its depth input must have. -/
def SndJob.fmt (j : SndJob) : Nat := if j.inKind = 0 then 0x13 else 0x04

/-- A pose: R row-major, then t, FP32 codes (R274). -/
structure Pose where
  job : Nat
  target : Nat
  r : List Nat
  t : List Nat
  deriving DecidableEq, Repr

def Pose.rr (p : Pose) (i : Nat) : Nat := p.r.getD i 0
def Pose.tt (p : Pose) (i : Nat) : Nat := p.t.getD i 0

/-- |v| of an FP32 code. -/
def f32Abs (v : Nat) : Nat := v % 2 ^ 31

/-- The record's checks (R274). -/
def poseOk (b : List Byte) : Bool :=
  let r := (List.range 9).map (fun i => leAt b (4 * i) 4)
  let t := (List.range 3).map (fun i => leAt b (0x24 + 4 * i) 4)
  let g := fun i => r.getD i 0
  let lim := to32 (.fin false 1 (-10))
  (r ++ t).all (fun v => (f32 v).isFin) && leNat (slice b 0x30 16) = 0 &&
    t.all (fun v => f32Le (f32Abs v) (f32OfInt 10000)) &&
    (List.range 3).all (fun i => (List.range 3).all (fun k =>
      let e := f32Add (f32Add (f32Mul (g i) (g k)) (f32Mul (g (3 + i)) (g (3 + k)))) (f32Mul (g (6 + i)) (g (6 + k)))
      f32Le (f32Abs (f32Sub e (f32OfInt (if i = k then 1 else 0)))) lim))

/-- A pose from its record. -/
def poseOf (job target : Nat) (b : List Byte) : Pose :=
  ⟨job, target, (List.range 9).map (fun i => leAt b (4 * i) 4), (List.range 3).map (fun i => leAt b (0x24 + 4 * i) 4)⟩

/-! Depth (R277). -/

/-- Depth of an input element in metres, none when it is invalid. -/
def SndJob.depth (j : SndJob) (e : El) : Option Nat :=
  if e.bad then none
  else if j.inKind = 0 then
    let d := toSigned 16 e.code
    if e.code = 0x8000 ∨ d ≤ 0 then none else some (f32Div j.bf (f32Div (f32OfInt d) (f32OfInt 32)))
  else if e.code = 0 then none
  else some (f32Mul (f32OfInt e.code) (f32Div (f32OfInt j.unitUm) (f32OfInt 1000000)))

/-- Depth at a pixel, none when it is not usable (R277). -/
def SndJob.usable (j : SndJob) (dep conf : Img) (u v : Nat) : Option Nat :=
  match j.depth (dep.at 0 u v) with
  | none => none
  | some z =>
    let mm := (f32 z).mul (Fv.ofInt 1000)
    let c := conf.at 0 u v
    if (Fv.ofInt j.minMm).le mm && mm.le (Fv.ofInt j.maxMm) && (!j.confIn || (!c.bad && decide (j.minConf ≤ c.code)))
    then some z else none

/-- The map point of depth z at pixel (u, v): R X + t (R277). -/
def SndJob.point (j : SndJob) (p : Pose) (u v z : Nat) : List Nat :=
  let x := f32Div (f32Mul z (f32Sub (f32OfInt u) j.cx)) j.fx
  let y := f32Div (f32Mul z (f32Sub (f32OfInt v) j.cy)) j.fy
  (List.range 3).map (fun i =>
    f32Add (f32Add (f32Add (f32Mul (p.rr (3 * i)) x) (f32Mul (p.rr (3 * i + 1)) y)) (f32Mul (p.rr (3 * i + 2)) z)) (p.tt i))

/-- ⌊v⌋ of an FP32 code; none when it is not finite. -/
def floor32 (v : Nat) : Option Int := if (f32 v).isFin then some (f32 v).floor else none

/-- The block of a map point, none when its coordinates are out of range (R272). -/
def SndMap.blockOf (m : SndMap) (pt : List Nat) : Option (Int × Int × Int) :=
  match pt.map (fun c => floor32 (f32Div c m.s)) with
  | [some i, some j, some k] =>
    let b := (i / 8, j / 8, k / 8)
    let ok := fun (c : Int) => decide (-(2 ^ 19 : Nat) ≤ c ∧ c < (2 ^ 19 : Nat))
    if ok b.1 && ok b.2.1 && ok b.2.2 then some b else none
  | _ => none

/-! The map region: reads of memory under the writes the job has made so far. -/

/-- The map as a job sees it. -/
structure MapView where
  base : SrcBytes
  writes : Tab Byte
  nextNew : Nat
  freeCount : Nat
  live : Nat
  corrupt : Nat
  allocDrop : Nat
  allocated : Nat
  

/-- A byte under the job's own writes, with poison. -/
def MapView.byte (v : MapView) (o : Nat) : Byte × Bool :=
  match v.writes.find? (fun e => e.1 = o) with
  | some e => (e.2, false)
  | none => v.base o

def MapView.read (v : MapView) (o n : Nat) : List Byte := (List.range n).map (fun i => (v.byte (o + i)).1)
def MapView.nat (v : MapView) (o n : Nat) : Nat := leNat (v.read o n)
/-- Write bytes; every written byte is listed. -/
def MapView.write (v : MapView) (o : Nat) (bs : List Byte) : MapView :=
  { v with writes := (enum bs).foldl (fun t e => Tab.insert (o + e.1) e.2 (Tab.erase t (o + e.1))) v.writes }

/-- The header's check (R271). -/
def SndMap.headerOk (m : SndMap) (s : SrcBytes) : Bool :=
  let g := fun o n => leNat ((List.range n).map (fun i => (s (o + i)).1))
  g 0 1 = 1 && g 1 1 = m.voxelMm && g 2 1 = m.tableLog2 && g 4 4 = m.poolBlocks && decide (g 8 4 ≤ m.poolBlocks) &&
    decide (g 0xC 4 ≤ g 8 4)

/-- The map at the start of a job. -/
def MapView.start (s : SrcBytes) : MapView :=
  let g := fun o => leNat ((List.range 4).map (fun i => (s (o + i)).1))
  ⟨s, [], g 8, g 0xC, g 0x10, 0, 0, 0⟩

/-- Sign-extended 32-bit product of a coordinate. -/
def hashMul (c : Int) (k : Nat) : Nat := (fromSigned 32 c * k) % 2 ^ 32

/-- The home slot of a block (R273). -/
def SndMap.home (m : SndMap) (b : Int × Int × Int) : Nat :=
  (hashMul b.1 73856093 ^^^ hashMul b.2.1 19349669 ^^^ hashMul b.2.2 83492791) % 2 ^ m.tableLog2

/-- The probe window of a block: byte offsets of its 32 entries (R273). -/
def SndMap.window (m : SndMap) (b : Int × Int × Int) : List Nat :=
  (List.range 32).map (fun i => m.tableOff + 16 * ((m.home b + i) % 2 ^ m.tableLog2))

/-- The key bytes 0-7 of a live entry. -/
def blockKey (b : Int × Int × Int) : Nat :=
  fromSigned 20 b.1 + fromSigned 20 b.2.1 * 2 ^ 20 + fromSigned 20 b.2.2 * 2 ^ 40 + 2 ^ 60

/-- What an entry is: 0 empty, 1 live, 2 tombstone; other states count as corrupt tombstones (R273). -/
def MapView.entryState (v : MapView) (o : Nat) : Nat × Bool :=
  let st := bitsOf (v.nat o 8) 63 60
  if st ≥ 3 then (2, true) else (st, false)

/-- Look a block up: its entry's offset; corrupt entries met are counted (R273). -/
def MapView.lookup (v : MapView) (m : SndMap) (b : Int × Int × Int) : MapView × Option Nat :=
  let ws := m.window b
  let v' := { v with corrupt := v.corrupt + (ws.filter (fun o => (v.entryState o).2)).length }
  (v', ws.find? (fun o => (v.entryState o).1 = 1 && v.nat o 8 = blockKey b))

/-- Allocate a block (R273, R279): the entry's offset, none on failure. -/
def MapView.alloc (v : MapView) (m : SndMap) (b : Int × Int × Int) (frame : Nat) : MapView × Option Nat :=
  let ws := m.window b
  let place := match ws.find? (fun o => (v.entryState o).1 = 2) with
    | some o => some o
    | none => ws.find? (fun o => (v.entryState o).1 = 0)
  let fail : MapView × Option Nat := ({ v with allocDrop := v.allocDrop + 1 }, none)
  match place with
  | none => fail
  | some o =>
    let take : Option (Nat × MapView) :=
      if v.freeCount > 0 then some (v.nat (m.stackOff + 4 * (v.freeCount - 1)) 4, { v with freeCount := v.freeCount - 1 })
      else if v.nextNew < m.poolBlocks then some (v.nextNew, { v with nextNew := v.nextNew + 1 })
      else none
    match take with
    | none => fail
    | some (idx, v) =>
      let v := v.write o (natLE 8 (blockKey b) ++ natLE 4 (idx % 2 ^ 22) ++ natLE 4 frame)
      let v := v.write (m.poolOff + 1024 * (idx % 2 ^ 22)) (List.replicate 1024 0#8)
      ({ v with live := v.live + 1, allocated := v.allocated + 1 }, some o)

/-- Phase 1's tally. -/
structure Phase1 where
  view : MapView
  /-- Touched blocks in order: coordinates and entry offset. -/
  touched : List ((Int × Int × Int) × Nat)
  integrated : Nat
  rejected : Nat
  /-- Map points of the frame's floor accumulation, in whole millimetres (R284). -/
  floor : List (Int × Int × Int)

/-- Touch one block (R277, R279). -/
def SndMap.touch (m : SndMap) (frame : Nat) (p : Phase1) (b : Int × Int × Int) : Phase1 :=
  if p.touched.any (fun e => e.1 = b) then p
  else if p.touched.length ≥ m.blocksMax then p
  else
    let (v, hit) := p.view.lookup m b
    match hit with
    | some o => { p with view := v, touched := p.touched ++ [(b, o)] }
    | none =>
      let (v, got) := v.alloc m b frame
      match got with
      | some o => { p with view := v, touched := p.touched ++ [(b, o)] }
      | none => { p with view := v }

/-- FP32 value rounded half away from zero to an integer. -/
def round32 (v : Nat) : Int :=
  match f32 v with
  | .fin n m e =>
    let x := ((Fv.fin false m e).add (.fin false 1 (-1))).floor
    if n then -x else x
  | _ => 0

/-- One sampled pixel of phase 1 (R277, R284). -/
def SndJob.sample (j : SndJob) (m : SndMap) (pose : Pose) (dep conf : Img) (frame zc : Nat) (p : Phase1) (u v : Nat) : Phase1 :=
  match j.usable dep conf u v with
  | none => p
  | some z =>
    let zs := [f32Sub z m.tau, z, f32Add z m.tau]
    let bs := zs.map (fun z => m.blockOf (j.point pose u v z))
    let p := bs.foldl (fun p b => match b with
      | some b => m.touch frame p b
      | none => { p with rejected := p.rejected + 1 }) p
    let pt := j.point pose u v z
    let g := fun i => pt.getD i 0
    let p := if (m.blockOf pt).isSome then { p with integrated := p.integrated + 1 } else p
    let k := f32OfInt 1000
    if m.floorFit && j.floorPts && f32Le (f32Abs (f32Sub (g 2) zc)) (f32Div (f32OfInt m.floorBand) k) then
      { p with floor := p.floor ++ [(round32 (f32Mul k (f32Sub (g 0) (pose.tt 0))),
          round32 (f32Mul k (f32Sub (g 1) (pose.tt 1))), round32 (f32Mul k (g 2)))] }
    else p

/-- Phase 1 (R277). -/
def SndJob.phase1 (j : SndJob) (m : SndMap) (pose : Pose) (dep conf : Img) (frame zc : Nat) (v : MapView) : Phase1 :=
  let st := max 1 j.step
  let pts := (List.range (ceilDiv j.h st)).flatMap (fun b => (List.range (ceilDiv j.w st)).map (fun a => (a * st, b * st)))
  pts.foldl (fun p q => j.sample m pose dep conf frame zc p q.1 q.2) ⟨v, [], 0, 0, []⟩

/-- ⌊v + 0.5⌋ of an FP32 code. -/
def halfUp32 (v : Nat) : Option Int :=
  if (f32 v).isFin then some ((f32 v).add (.fin false 1 (-1))).floor else none

/-- Where a voxel's centre falls in the depth image: pixel and camera depth, none when it is behind the camera or outside (R278). -/
def SndJob.project (j : SndJob) (m : SndMap) (pose : Pose) (b : Int × Int × Int) (i k l : Nat) : Option (Nat × Nat × Nat) :=
  let half := to32 (.fin false 1 (-1))
  let c := fun (blk : Int) (n : Nat) => f32Mul (f32Add (f32OfInt (8 * blk + n)) half) m.s
  let d := [f32Sub (c b.1 i) (pose.tt 0), f32Sub (c b.2.1 k) (pose.tt 1), f32Sub (c b.2.2 l) (pose.tt 2)]
  let g := fun n => d.getD n 0
  let q := fun n => f32Add (f32Add (f32Mul (pose.rr n) (g 0)) (f32Mul (pose.rr (3 + n)) (g 1))) (f32Mul (pose.rr (6 + n)) (g 2))
  let qz := q 2
  if !(f32Lt 0 qz) then none
  else
    match halfUp32 (f32Add (f32Div (f32Mul j.fx (q 0)) qz) j.cx), halfUp32 (f32Add (f32Div (f32Mul j.fy (q 1)) qz) j.cy) with
    | some u, some v => if u < 0 ∨ u ≥ (j.w : Int) ∨ v < 0 ∨ v ≥ (j.h : Int) then none else some (u.toNat, v.toNat, qz)
    | _, _ => none

/-- Update one voxel's word (R278). -/
def SndJob.voxel (j : SndJob) (m : SndMap) (pose : Pose) (dep conf : Img) (b : Int × Int × Int) (i k l : Nat) (w : Nat) : Nat :=
  match j.project m pose b i k l with
  | none => w
  | some (u, v, qz) =>
    match j.usable dep conf u v with
    | none => w
    | some z =>
      let sdf := f32Sub z qz
      if f32Lt sdf (f32Neg m.tau) then w
      else
        let r := f32Div sdf m.tau
        let r := if f32Lt (f32OfInt 1) r then f32OfInt 1 else r
        let f := clampInt (-511) 511 (round32 (f32Mul (f32OfInt 511) r))
        let wt := w % 64
        let d0 := toSigned 10 (bitsOf w 15 6)
        let d1 := roundAway (d0 * wt + f) (wt + 1)
        fromSigned 10 d1 * 64 + min m.maxWeight (wt + 1)

/-- A poisoned element lies at a pixel (R276). -/
def SndJob.badAt (j : SndJob) (dep conf : Img) (u v : Nat) : Bool := (dep.at 0 u v).bad || (j.confIn && (conf.at 0 u v).bad)

/-- The job read a poisoned element: a sampled pixel, or one that a voxel of a touched block projects to (R276). -/
def SndJob.sawPoison (j : SndJob) (m : SndMap) (pose : Pose) (dep conf : Img) (touched : List ((Int × Int × Int) × Nat)) : Bool :=
  let st := max 1 j.step
  (List.range (ceilDiv j.h st)).any (fun b => (List.range (ceilDiv j.w st)).any (fun a => j.badAt dep conf (a * st) (b * st))) ||
    touched.any (fun e => (List.range 512).any (fun n =>
      match j.project m pose e.1 (n % 8) (n / 8 % 8) (n / 64) with
      | some (u, v, _) => j.badAt dep conf u v
      | none => false))

/-- Phase 2 for one block: its entry and its 512 voxels (R278, R280). -/
def SndJob.block (j : SndJob) (m : SndMap) (pose : Pose) (dep conf : Img) (frame : Nat) (v : MapView)
    (e : (Int × Int × Int) × Nat) : MapView :=
  let idx := bitsOf (v.nat (e.2 + 8) 4) 21 0
  let base := m.poolOff + 1024 * idx
  let bad := (List.range 1024).any (fun i => (v.byte (base + i)).2)
  let v := if bad then { v with corrupt := v.corrupt + 1 } else v
  let flags := bitsOf (v.nat (e.2 + 8) 4) 31 22 * 2 ^ 22
  let word := if bad then idx + (if bitOf flags 22 then flags else flags + 2 ^ 22) else idx + flags
  let old := if bad then List.replicate 1024 0#8 else v.read base 1024
  let new := (List.range 512).flatMap (fun n =>
    natLE 2 (j.voxel m pose dep conf e.1 (n % 8) (n / 8 % 8) (n / 64) (leAt old (2 * n) 2)))
  (v.write base new).write (e.2 + 8) (natLE 4 word ++ natLE 4 frame)

/-! Eviction and export (R281, R282). -/

/-- The eviction pass's tally. -/
structure Evict where
  view : MapView
  cursor : Nat
  evicted : Nat
  /-- Export records written: ring index and bytes. -/
  records : List (Nat × List Byte)
  producer : Nat
  exportDrops : Nat

/-- Squared distance in FP32 of a block's centre from t. -/
def SndMap.centreDist2 (m : SndMap) (b : Int × Int × Int) (pose : Pose) : Nat :=
  let c := fun (k : Int) => f32Mul (f32OfInt (8 * k + 4)) m.s
  let d := [f32Sub (c b.1) (pose.tt 0), f32Sub (c b.2.1) (pose.tt 1), f32Sub (c b.2.2) (pose.tt 2)]
  let g := fun n => d.getD n 0
  f32Add (f32Add (f32Mul (g 0) (g 0)) (f32Mul (g 1) (g 1))) (f32Mul (g 2) (g 2))

/-- Examine one entry at the cursor (R281): `ring` is the number of export records, 0 without a ring. -/
def SndMap.evictOne (m : SndMap) (pose : Pose) (frame ring consumer : Nat) (e : Evict) : Evict :=
  let n := 2 ^ m.tableLog2
  let o := m.tableOff + 16 * (e.cursor % n)
  let e := { e with cursor := (e.cursor + 1) % n }
  let st := e.view.entryState o
  let e := if st.2 then { e with view := { e.view with corrupt := e.view.corrupt + 1 } } else e
  if st.1 ≠ 1 then e
  else
    let key := e.view.nat o 8
    let b := (toSigned 20 (bitsOf key 19 0), toSigned 20 (bitsOf key 39 20), toSigned 20 (bitsOf key 59 40))
    let idx := bitsOf (e.view.nat (o + 8) 4) 21 0
    let last := e.view.nat (o + 12) 4
    let age := (w32 frame - w32 last).toNat
    let r := f32Div (f32OfInt m.evictRadiusCm) (f32OfInt 100)
    if !(frameLater (w32 frame) (w32 last) && decide (m.evictAge ≤ age) && f32Lt (f32Mul r r) (m.centreDist2 b pose)
        && decide (e.evicted < m.evictMax)) then e
    else if ring ≠ 0 && (e.producer + 1) % ring = consumer then { e with exportDrops := e.exportDrops + 1 }
    else
      let data := e.view.read (m.poolOff + 1024 * idx) 1024
      let recd := (natLE 4 (fromSigned 32 b.1) ++ natLE 4 (fromSigned 32 b.2.1) ++ natLE 4 (fromSigned 32 b.2.2)
        ++ natLE 4 last ++ natLE 4 frame ++ List.replicate 44 0#8) ++ data
      let v := e.view.write o (natLE 8 (key % 2 ^ 60 + 2 * 2 ^ 60))
      let v := v.write (m.stackOff + 4 * v.freeCount) (natLE 4 idx)
      let v := { v with freeCount := v.freeCount + 1, live := v.live - 1 }
      { e with
        view := v
        evicted := e.evicted + 1
        records := if ring = 0 then e.records else e.records ++ [(e.producer, recd)]
        producer := if ring = 0 then e.producer else (e.producer + 1) % ring }

/-- Examine `n` entries. -/
def SndMap.evictScanFrom (m : SndMap) (pose : Pose) (frame ring consumer : Nat) : Nat → Evict → Evict
  | 0, e => e
  | n + 1, e => m.evictScanFrom pose frame ring consumer n (m.evictOne pose frame ring consumer e)

/-! The floor plane (R284). -/

/-- The exact sums of the frame. -/
structure FloorSums where
  n : Nat
  x : Int
  y : Int
  z : Int
  xx : Int
  xy : Int
  xz : Int
  yy : Int
  yz : Int
  zz : Int
  deriving DecidableEq, Repr

/-- No points. -/
def FloorSums.zero : FloorSums := ⟨0, 0, 0, 0, 0, 0, 0, 0, 0, 0⟩

/-- Add one point. -/
def FloorSums.add (s : FloorSums) (p : Int × Int × Int) : FloorSums :=
  let (x, y, z) := p
  ⟨s.n + 1, s.x + x, s.y + y, s.z + z, s.xx + x * x, s.xy + x * y, s.xz + x * z, s.yy + y * y, s.yz + y * z, s.zz + z * z⟩

/-- A 3 × 3 determinant in FP64, expanded along the first row (log entry 31). -/
def det64 (a b c d e f g h i : Nat) : Nat :=
  f64Add (f64Sub (f64Mul a (f64Sub (f64Mul e i) (f64Mul f h))) (f64Mul b (f64Sub (f64Mul d i) (f64Mul f g))))
    (f64Mul c (f64Sub (f64Mul d h) (f64Mul e g)))

/-- The fit: validity, a, b, c in mm and rms, as FP64 codes (R284). -/
structure FloorFit where
  valid : Bool
  a : Nat
  b : Nat
  c : Nat
  rms : Nat
  deriving DecidableEq, Repr

/-- Cramer's rule on the normal equations (R284). -/
def FloorSums.fit (s : FloorSums) (minPoints : Nat) : FloorFit :=
  let k := f64OfInt
  let n := k s.n
  let det := det64 (k s.xx) (k s.xy) (k s.x) (k s.xy) (k s.yy) (k s.y) (k s.x) (k s.y) n
  if s.n < minPoints ∨ !(f64Lt 0 det) then ⟨false, 0, 0, 0, 0⟩
  else
    let a := f64Div (det64 (k s.xz) (k s.xy) (k s.x) (k s.yz) (k s.yy) (k s.y) (k s.z) (k s.y) n) det
    let b := f64Div (det64 (k s.xx) (k s.xz) (k s.x) (k s.xy) (k s.yz) (k s.y) (k s.x) (k s.z) n) det
    let c := f64Div (det64 (k s.xx) (k s.xy) (k s.xz) (k s.xy) (k s.yy) (k s.yz) (k s.x) (k s.y) (k s.z)) det
    let e := f64Div (f64Sub (f64Sub (f64Sub (k s.zz) (f64Mul a (k s.xz))) (f64Mul b (k s.yz))) (f64Mul c (k s.z))) n
    ⟨true, a, b, c, f64Sqrt (if f64Lt e 0 then 0 else e)⟩

/-- FP32 code of an FP64 code. -/
def f32Of64 (v : Nat) : Nat := to32 (f64 v)

/-- The fit's c in metres as FP32. -/
def FloorFit.cMetres (f : FloorFit) : Nat := f32Of64 (f64Div f.c (f64OfInt 1000))

/-! A whole job (R276-R285). -/

/-- What a job that integrates does. -/
structure SndDone where
  phase : Phase1
  view : MapView
  evict : Evict
  updated : List Nat
  floor : List (Int × Int × Int)

/-- Eviction, then phases 1 and 2 (R277-R281). -/
def SndJob.run (j : SndJob) (m : SndMap) (pose : Pose) (dep conf : Img) (frame zc ring producer consumer cursor : Nat)
    (s : SrcBytes) : SndDone :=
  let e0 : Evict := ⟨MapView.start s, cursor, 0, [], producer, 0⟩
  let e := if m.evictAge = 0 then e0 else m.evictScanFrom pose frame ring consumer m.evictScan e0
  let p := j.phase1 m pose dep conf frame zc e.view
  let v := p.touched.foldl (fun v t => j.block m pose dep conf frame v t) p.view
  let v := v.write 8 (natLE 4 v.nextNew ++ natLE 4 v.freeCount ++ natLE 4 v.live)
  ⟨p, v, e, p.touched.map (fun t => bitsOf (v.nat (t.2 + 8) 4) 21 0), p.floor⟩

/-- The output descriptor: rank 1, S32, the pool indices updated (R285). -/
def sndDesc (quay : Nat) (tide : Tide) (slotAddr n : Nat) : Desc where
  rank := 1
  format := 0x06
  bpoint := 0
  flags := 0
  quay := quay
  tide := tide
  padMode := 0
  base := slotAddr + 4096
  sizes := [n, 1, 1, 1, 1, 1]
  strides := [4, 0, 0, 0, 0, 0]
  blk := [0, 0, 0, 0, 0, 0]
  fill := 0
  padLo := [0, 0, 0, 0, 0, 0]
  padHi := [0, 0, 0, 0, 0, 0]
  owner := 0

/-- What a job that has integrated reports when it completes: the pool indices updated, and its counts in the summary's order:
points integrated and rejected, blocks updated and allocated, allocations dropped, evicted, corrupt (R285). -/
structure SndOut where
  updated : List Nat
  counts : List Nat
  deriving DecidableEq, Repr

/-- A job's report. -/
def SndDone.out (d : SndDone) : SndOut :=
  ⟨d.updated, [d.phase.integrated, d.phase.rejected, d.updated.length, d.view.allocated, d.view.allocDrop, d.evict.evicted, d.view.corrupt]⟩

/-- The 64-byte summary (R285). -/
def SndOut.summary (d : SndOut) (frame gen : Nat) (fit : Option (FloorFit × Nat)) : List Byte :=
  let f := match fit with | some p => p.1 | none => ⟨false, 0, 0, 0, 0⟩
  let n := match fit with | some p => p.2 | none => 0
  natLE 4 frame ++ d.counts.flatMap (natLE 4) ++ natLE 4 (f32Of64 f.a) ++ natLE 4 (f32Of64 f.b) ++ natLE 4 f.cMetres ++ natLE 4 n
    ++ natLE 4 (f32Of64 f.rms) ++ natLE 4 (b2n f.valid) ++ natLE 4 gen ++ List.replicate 4 0#8

/-- The chunks of a job's output slot (R285). -/
def SndOut.slot (d : SndOut) (quay : Nat) (tide : Tide) (slotAddr frame gen : Nat) (fit : Option (FloorFit × Nat)) : List Chunk :=
  [⟨0, (sndDesc quay tide slotAddr d.updated.length).bytes ++ d.summary frame gen fit, false⟩,
   ⟨4096, d.updated.flatMap (natLE 4), false⟩]

/-- The bytes of a table from an offset, as runs of successive keys. -/
def runsOf : Tab Byte → List Chunk
  | [] => []
  | (k, b) :: t =>
    match runsOf t with
    | c :: cs => if c.off = k + 1 then ⟨k, b :: c.bytes, false⟩ :: cs else ⟨k, [b], false⟩ :: c :: cs
    | [] => [⟨k, [b], false⟩]

/-- Soundings' state. -/
structure SndState where
  poses : List Pose
  /-- The pose latched by the last job started of each job record: job index, frame and pose (R275). -/
  latched : List (Nat × Nat × Option Pose)
  cursor : Nat
  /-- c of the last valid fit, in metres (R284). -/
  fitC : Option Nat
  /-- The frame whose sums are being formed, and the sums. -/
  sumFrame : Nat
  sums : FloorSums
  /-- What the running job reports, once it has integrated. -/
  done : Option SndOut
  deriving DecidableEq, Repr

/-- Soundings after reset. -/
def SndState.reset : SndState := ⟨[], [], 0, none, 0, FloorSums.zero, none⟩

/-! The Edge Guard (R289-R299). -/

/-- An EDGE source record (R298). -/
structure EdgeSrc where
  bytes : List Byte
  deriving DecidableEq, Repr

def EdgeSrc.u (s : EdgeSrc) (o n : Nat) : Nat := leAt s.bytes o n
def EdgeSrc.kind (s : EdgeSrc) : Nat := s.u 0 1
def EdgeSrc.ctx (s : EdgeSrc) : Nat := s.u 1 1
def EdgeSrc.stage (s : EdgeSrc) : Nat := s.u 2 2
def EdgeSrc.unitUm (s : EdgeSrc) : Nat := s.u 4 2
def EdgeSrc.tripFrames (s : EdgeSrc) : Nat := s.u 6 1
def EdgeSrc.regions (s : EdgeSrc) : Nat := s.u 7 1
def EdgeSrc.w (s : EdgeSrc) : Nat := s.u 8 2
def EdgeSrc.h (s : EdgeSrc) : Nat := s.u 0x0A 2
def EdgeSrc.deadlineUs (s : EdgeSrc) : Nat := s.u 0x0C 4
def EdgeSrc.bf (s : EdgeSrc) : Nat := s.u 0x10 4
/-- fx, fy, cx, cy by index. -/
def EdgeSrc.cam (s : EdgeSrc) (i : Nat) : Nat := s.u (0x14 + 4 * i) 4
def EdgeSrc.n (s : EdgeSrc) (i : Nat) : Nat := s.u (0x24 + 4 * i) 4
def EdgeSrc.hMm (s : EdgeSrc) : Nat := s.u 0x30 4

/-- A region record (R299). -/
structure EdgeReg where
  x0 : Nat
  y0 : Nat
  x1 : Nat
  y1 : Nat
  dropMm : Nat
  minValid : Nat
  dropRows : Nat
  dropCols : Nat
  invalidDrops : Bool
  deriving DecidableEq, Repr

/-- Region r of a source. -/
def EdgeSrc.region (s : EdgeSrc) (r : Nat) : EdgeReg :=
  let o := 0x40 + 16 * r
  ⟨s.u o 2, s.u (o + 2) 2, s.u (o + 4) 2, s.u (o + 6) 2, s.u (o + 8) 2, s.u (o + 0xA) 1, s.u (o + 0xB) 1, s.u (o + 0xC) 2,
    bitOf (s.u (o + 0xE) 1) 0⟩

/-- Depth in millimetres of a sample, none when it is invalid (R290). -/
def EdgeSrc.depth (s : EdgeSrc) (code : Nat) : Option Nat :=
  if s.kind = 0 then
    (if code = 0 ∨ code = 0xFFFF then none
     else some (f32Div (f32Mul (f32OfInt code) (f32OfInt s.unitUm)) (f32OfInt 1000)))
  else
    let d := toSigned 16 code
    if code = 0x8000 ∨ d ≤ 0 then none
    else some (f32Div (f32Mul (f32OfInt 1000) s.bf) (f32Div (f32OfInt d) (f32OfInt 32)))

/-- n0 (u - cx) ÷ fx + n1 (v - cy) ÷ fy + n2 (R290). -/
def EdgeSrc.denom (s : EdgeSrc) (u v : Nat) : Nat :=
  f32Add (f32Add (f32Div (f32Mul (s.n 0) (f32Sub (f32OfInt u) (s.cam 2))) (s.cam 0))
    (f32Div (f32Mul (s.n 1) (f32Sub (f32OfInt v) (s.cam 3))) (s.cam 1))) (s.n 2)

/-- A pixel of a region: is it valid, and is it a drop pixel (R291)? -/
def EdgeSrc.pixel (s : EdgeSrc) (g : EdgeReg) (u v code : Nat) : Bool × Bool :=
  match s.depth code with
  | none => (false, g.invalidDrops)
  | some z => (true, f32Lt (f32OfInt g.dropMm) (f32Sub z (f32Div s.hMm (s.denom u v))))

/-- What a channel has gathered of a region in the frame being evaluated. -/
structure EdgeAcc where
  /-- Drop pixels in each column of the region. -/
  cols : List Nat
  valid : Nat
  /-- A kind-1 row of the region held a poisoned line (R292). -/
  poisoned : Bool
  deriving DecidableEq, Repr

/-- Nothing gathered. -/
def EdgeAcc.start (g : EdgeReg) : EdgeAcc := ⟨List.replicate (g.x1 + 1 - g.x0) 0, 0, false⟩

/-- Add row v of the source, given as codes from column 0 (R291). -/
def EdgeSrc.addRow (s : EdgeSrc) (g : EdgeReg) (v : Nat) (row : List El) (a : EdgeAcc) : EdgeAcc :=
  if v < g.y0 ∨ g.y1 < v then a
  else
    let px := (List.range (g.x1 + 1 - g.x0)).map (fun i => s.pixel g (g.x0 + i) v (row.getD (g.x0 + i) ⟨0, false⟩).code)
    { a with
      cols := (a.cols.zip px).map (fun p => p.1 + b2n p.2.2)
      valid := a.valid + (px.filter (fun p => p.1)).length
      poisoned := a.poisoned || (s.kind = 1 && (List.range (g.x1 + 1 - g.x0)).any (fun i => (row.getD (g.x0 + i) ⟨0, false⟩).bad)) }

/-- The outcome of a fully evaluated region (R291). -/
def EdgeReg.outcome (g : EdgeReg) (a : EdgeAcc) : Outc :=
  let cols := (a.cols.filter (fun n => g.dropRows ≤ n)).length
  let px := (g.x1 + 1 - g.x0) * (g.y1 + 1 - g.y0)
  if g.dropCols ≤ cols then .drop
  else if 100 * a.valid < g.minValid * px then .unknown
  else .clear

/-- One region's counts in one channel (R293). -/
structure EdgeCnt where
  bad : Nat
  clear : Nat
  deriving DecidableEq, Repr

/-- Apply an outcome (R293). -/
def EdgeCnt.apply (c : EdgeCnt) (o : Outc) : EdgeCnt :=
  match o with
  | .clear => ⟨0, c.clear + 1⟩
  | _ => ⟨c.bad + 1, 0⟩

/-- A region of the frame being evaluated: what the rows so far have given, and, once its outcome is decided, both channels'
counts as they stood before it (R292). -/
structure EdgeRun where
  acc : EdgeAcc
  before : Option (EdgeCnt × EdgeCnt)
  deriving DecidableEq, Repr

/-- The evaluation of one frame of a source: its tick, the next row it waits for and its regions. -/
structure EdgeEval where
  frame : FrameNo
  tick : Nat
  next : Nat
  runs : List EdgeRun
  deriving DecidableEq, Repr

/-- A region's state: its tripped flag and the counts of channels A and B (R293, R294). -/
structure EdgeRegSt where
  tripped : Bool
  a : EdgeCnt
  b : EdgeCnt
  deriving DecidableEq, Repr

/-- A source's state: its latest frames' evaluations, oldest first, and its regions. -/
structure EdgeSrcSt where
  evals : List EdgeEval
  regions : List EdgeRegSt
  deriving DecidableEq, Repr

/-- The Edge Guard's state. -/
structure EdgeState where
  srcs : List EdgeSrcSt
  /-- A trip has occurred since EDGE_RELEASE was last written (R293). -/
  awaiting : Bool
  disagree : Bool
  deriving DecidableEq, Repr

/-- The Edge Guard after reset. -/
def EdgeState.reset : EdgeState := ⟨[], false, false⟩

end Sys2Proof.Machine
end

