-- ==== Sys2Proof/Machine/TypesEng.lean ====
section
/-! DEFINITION. The records of the engines while they run: camera pipe slots (R153-R192), vision jobs (R194-R246), Elvow and
layout stages (R303-R323, R361-R367). -/
namespace Sys2Proof.Machine

/-- A line of a stream frame: its number, bytes and when it arrived. -/
structure CampLine where
  frame : FrameNo
  y : Nat
  bytes : List Byte
  at' : Nat
  deriving DecidableEq, Repr

/-- A queued adjustment (R169). -/
structure AdjQ where
  number : Nat
  target : Nat
  bytes : List Byte
  deriving DecidableEq, Repr

/-- A stream frame in a camera pipe (R176-R183). -/
structure CampRun where
  frame : FrameNo
  /-- Lines whose pass has ended: number and bytes. -/
  rows : List (Nat × List Byte)
  /-- Passes ended, flush passes among them. -/
  passes : Nat
  /-- Flush passes ended. -/
  flushed : Nat
  /-- OVERRUN, or discarded for another reason (R182). -/
  discarded : Bool
  /-- Output rows written, per output. -/
  written : List Nat
  /-- Adjustment in force for the frame and whether it came late (R170). -/
  adj : Nat × List Byte
  adjLate : Bool
  /-- Lines counted, and lines lost or discarded (R178). -/
  lines : Nat
  lost : Nat
  /-- The statistics record has been written or dropped (R177). -/
  statsDone : Bool
  /-- Most line slots occupied (R192). -/
  most : Nat
  deriving DecidableEq, Repr

/-- A stream frame that has begun and delivered no line. -/
def CampRun.start (n : FrameNo) : CampRun where
  frame := n
  rows := []
  passes := 0
  flushed := 0
  discarded := false
  written := [0, 0, 0, 0]
  adj := (0, [])
  adjLate := false
  lines := 0
  lost := 0
  statsDone := false
  most := 0

/-- A pipe slot (R153, R180). -/
structure CampSlot where
  /-- Lines on their way from ingress. -/
  inbound : List CampLine
  /-- Occupied line slots, oldest first. -/
  held : List CampLine
  /-- Frames in processing, oldest first. -/
  runs : List CampRun
  inForce : Nat × List Byte
  queue : List AdjQ
  nextNumber : Nat
  lastTarget : Option Nat
  /-- Statistics records written since LOAD (R178). -/
  sequence : Nat
  deriving DecidableEq, Repr

/-- A pipe slot after reset. -/
def CampSlot.reset : CampSlot := ⟨[], [], [], (0, []), [], 1, none, 0⟩

/-- What a pass processes: a line of pipe slot k, or a flush of its oldest ended frame (R181, R183). -/
inductive Pass where
  | line (k : Nat)
  | flush (k : Nat)
  deriving DecidableEq, Repr

/-- The camera pipes: slots by pipe × 8 + slot, and the pass each pipe runs. -/
structure CampState where
  slots : List CampSlot
  pass : List (Option Pass)
  deriving DecidableEq, Repr

/-- The camera pipes after reset. -/
def CampState.reset : CampState := ⟨List.replicate 32 CampSlot.reset, List.replicate 4 none⟩

/-- A vision job that has started (R194, R195). -/
structure VisRun where
  cls : Nat
  inst : Nat
  quay : Nat
  frame : FrameNo
  /-- STAGES entry index. -/
  idx : Nat
  /-- Descriptors read at the start, in the order the job needs them. -/
  descs : List Desc
  startedAt : Nat
  /-- Warp bands completed (R212). -/
  band : Nat
  /-- Statuses met so far. -/
  statuses : List Status
  deriving DecidableEq, Repr

/-- Where an operand's addresses lie (R307-R309, R314): the core's tile store, a frame slot of a handle, the quay's virtual addresses,
the chain space. -/
inductive Space where
  | tile
  | slot (h k : Nat)
  | va
  | chain
  deriving DecidableEq, Repr

/-- An owner table as the engine read it (R358). -/
structure Owners where
  bases : List Nat
  entries : List Nat
  deriving DecidableEq, Repr

/-- An operand as its command read it at issue (R308, R360). -/
structure OpRef where
  d : Desc
  space : Space
  own : Option Owners
  deriving DecidableEq, Repr

/-- The operands of a command; `sa` is a's scale, or ATTN's mask, and `sb` b's scale. -/
structure Refs where
  a : Option OpRef
  b : Option OpRef
  c : Option OpRef
  dst : Option OpRef
  sa : Option OpRef
  sb : Option OpRef
  deriving DecidableEq, Repr

/-- A transfer in an ELV transfer queue (R303, R311): its stage, its command and its operands. -/
structure ElvXfer where
  idx : Nat
  frame : FrameNo
  cmd : TCmd
  refs : Refs
  deriving DecidableEq, Repr

/-- A stage running on an ELV or LAYOUT instance (R311, R318, R361). -/
structure ProgRun where
  quay : Nat
  frame : FrameNo
  idx : Nat
  /-- Next command, within the stage. -/
  pc : Nat
  /-- Layers opened, and the current layer's command. -/
  layer : Nat
  layerCmd : Option TCmd
  /-- It waits at the Bollard (R115). -/
  waiting : Bool
  /-- A Tandem layer of it is running: its bound and when it was issued (R318). -/
  tandem : Option (Nat × Nat)
  statuses : List Status
  startedAt : Nat
  deriving DecidableEq, Repr

/-- The tensor and layout engines. -/
structure ProgState where
  /-- Running stages of each ELV instance, the primary first (R318). -/
  elv : List (List ProgRun)
  xfers : List (List ElvXfer)
  /-- Running and waiting stages of each LAYOUT instance, in dispatch order (R361). -/
  lay : List (List ProgRun)
  /-- Instances whose Chain shard has been filled since START or UNDOCK (R314). -/
  chainFilled : List Nat
  deriving DecidableEq, Repr

/-- The tensor and layout engines after reset. -/
def ProgState.reset : ProgState := ⟨List.replicate 12 [], List.replicate 12 [], List.replicate 2 [], []⟩

end Sys2Proof.Machine
end

