-- ==== Sys2Proof/Machine/State.lean ====
section
/-! DEFINITION. The machine's state: everything the spec gives the device, as plain data, and the state right after
cold reset. -/
namespace Sys2Proof.Machine

/-- Why the machine stops. -/
inductive Fault where
  /-- Raised by no command: every behaviour the spec gives has a next state. Safe. -/
  | unreachable
  deriving DecidableEq, Repr

/-- Why a command has no meaning. -/
inductive Refusal where
  /-- Raised by a dispatch arm whose command has no meaning yet. Safe: nothing is claimed of it. -/
  | notModelled (mnemonic : String)
  deriving DecidableEq, Repr

/-- Harbour time and its discipline (R40, R41). -/
structure TimeState where
  /-- Harbour time in ns. -/
  now : Nat
  locked : Bool
  slewing : Bool
  /-- A step that is needed and held: its size in ns (R41). -/
  step : Option Int
  /-- Phase correction still to be slewed, in ns (R41). -/
  slew : Int
  /-- Fraction of a ns of slewing not yet applied, in units of 10^-6 ns. -/
  slewFrac : Nat
  deriving DecidableEq, Repr

/-- The machine. -/
structure State where
  /-- The register file: registers that hold their own value, by control-window address (R10, R11). -/
  regs : Tab Word
  /-- Captured 64-bit values, by address of the _LO register (R20). -/
  captures : Tab (Option Nat)
  /-- Held writes to _LO halves (R20). -/
  heldLo : Tab (Option Word)
  time : TimeState
  /-- Outputs of the most recent command, oldest first. -/
  out : List Emission
  /-- Outcome of the most recent access or request. -/
  reply : Option Reply
  /-- Interrupts pending in the cores' IMSIC files: hart, supervisor file, identity (R518, R519). -/
  imsic : List (Nat × Bool × Nat)
  quays : Vector Quay 4
  faultFifo : List FaultEntry
  mem : MemState
  salv : Vector Salv 4
  /-- Shadow entries of the units (R501). -/
  shadows : List Shadow
  customs : CustomsState
  /-- Camera ingress and sensor control (R123-R152). -/
  cam : CamState
  /-- The camera pipes (R153-R193). -/
  camp : CampState
  /-- Vision jobs that have started (R194-R266). -/
  vis : List VisRun
  ledger : LedgerState
  snd : SndState
  edge : EdgeState
  /-- The tensor and layout engines (R303-R368). -/
  prog : ProgState
  /-- Tender's 32 channels (R422-R441). -/
  tender : List TChan
  /-- Harbour time up to which the firings of each Tender timer have been served (R428). -/
  timers : List Nat
  onnak : OnnakState
  eth : EthState
  gptp : GptpState
  /-- Coastguard (R470-R497). -/
  cg : CgState
  pmc : PmcState
  /-- PORST_N is low: the device is held in cold reset (R557). -/
  coldHeld : Bool
  /-- A device warm reset is in progress or held: only Coastguard and the time base run (R536, R557). -/
  warmHeld : Bool
  /-- The model's own counter of free values (log entry 10). -/
  free : Nat
  /-- Commands waiting, first in, first out. -/
  pending : List Instr
  deriving DecidableEq, Repr

/-- Customs right after cold reset: the boot ROM has not started; fuses as manufactured (log entry 40). -/
def CustomsState.reset : CustomsState where
  fuses := Fuses.blank
  keys := List.replicate 12 none
  phase := .held
  lastStep := 0
  failCode := 0#8
  recovery := false
  warm := false
  mediumEmmc := false
  strapSrc := false
  strapRecovery := false
  nodeId := 0
  medium := []
  image := []
  imageVersion := 0
  imageDigest := []
  received := []
  mailbox := none
  nonce := []
  debugEnabled := false
  lastUnlock := 0#8
  rejected := 0
  trained := [none, none]
  lastAnnounce := 0

/-- The machine right after cold reset: registers at their reset values, every table empty, PORST_N high and the boot ROM
about to start. -/
def State.reset : State where
  regs := []
  captures := []
  heldLo := []
  time := ⟨0, false, false, none, 0, 0⟩
  out := []
  reply := none
  imsic := []
  quays := Vector.replicate 4 Quay.reset
  faultFifo := []
  mem := MemState.reset
  salv := Vector.replicate 4 Salv.reset
  shadows := []
  customs := CustomsState.reset
  cam := CamState.reset
  camp := CampState.reset
  vis := []
  ledger := LedgerState.reset
  snd := SndState.reset
  edge := EdgeState.reset
  prog := ProgState.reset
  tender := List.replicate 32 TChan.reset
  timers := List.replicate 8 0
  onnak := OnnakState.reset
  eth := EthState.reset
  gptp := GptpState.reset
  cg := CgState.reset
  pmc := PmcState.reset
  coldHeld := false
  warmHeld := false
  free := 0
  pending := []

end Sys2Proof.Machine
end

