-- ==== Sys2Proof/Machine/Ops.lean ====
section
/-! DEFINITION. The named operations over registers, events and outputs that every command's meaning is built from
(R10-R25, R518, R519). -/
namespace Sys2Proof.Machine

/-- What every meaning answers. -/
abbrev Res := Host.Outcome State Fault Refusal

/-- A register's own stored value. -/
def State.reg (s : State) (a : Nat) : Word := Tab.get regReset s.regs a

/-- Store a register's value. -/
def State.setReg (s : State) (a : Nat) (v : Word) : State := { s with regs := Tab.set regReset s.regs a v }

/-- Store a 64-bit quantity in the pair at `a` (R20). -/
def State.setReg64 (s : State) (a v : Nat) : State := (s.setReg a (w32 v)).setReg (a + 4) (w32 (v / 2 ^ 32))

/-- The 64-bit quantity stored in the pair at `a`. -/
def State.reg64 (s : State) (a : Nat) : Nat := (s.reg a).toNat + 2 ^ 32 * (s.reg (a + 4)).toNat

/-- The 48-bit address stored in the pair at `a`. -/
def State.addr48 (s : State) (a : Nat) : Nat := (s.reg a).toNat + 2 ^ 32 * fld (s.reg (a + 4)) 15 0

/-- Store a natural number in a register. -/
def State.put (s : State) (a v : Nat) : State := s.setReg a (w32 v)

/-- Advance a saturating counter by `n`. -/
def State.bumpBy (s : State) (a n : Nat) : State := s.setReg a (satInc (s.reg a) n)

/-- Advance a saturating counter. -/
def State.bump (s : State) (a : Nat) : State := s.bumpBy a 1

/-- Advance a wrapping counter by `n`. -/
def State.wrapBy (s : State) (a n : Nat) : State := s.setReg a (s.reg a + w32 n)

/-- Replace bits [hi:lo] of a register. -/
def State.setBits (s : State) (a hi lo v : Nat) : State := s.setReg a (setFld (s.reg a) hi lo v)

/-- Append an output. -/
def State.emit (s : State) (e : Emission) : State := { s with out := s.out ++ [e] }

/-- Draw a free value: advance the counter (log entry 10). -/
def State.draw (s : State) : Nat × State := (Config.freeValue s.free, { s with free := s.free + 1 })

/-- Send vector v's MSI to the file its TOP_MSI register names (R518, R537). -/
def State.sendMsi (s : State) (v : Nat) : State :=
  let t := s.reg (Reg.TOP_MSI v)
  let who := (fld t 4 1, flag t 5, fld t 16 6)
  { s with imsic := addNew who s.imsic, out := s.out ++ [.msi v (fld t 16 1)] }

/-- An event of source v: one MSI when its vector is enabled, its pending bit otherwise (R519). Reserved sources are
never raised (R518). -/
def State.raiseMsi (s : State) (v : Nat) : State :=
  if v ≥ 82 then s
  else if flag (s.reg (Reg.TOP_MSI v)) 0 then s.sendMsi v
  else
    let a := Reg.TOP_MSI_PENDING (v / 32)
    s.setReg a (s.reg a ||| w32 (2 ^ (v % 32)))

/-- Is the register at `a` a W1C register whose name ends in EVENT (R14)? Every W1C register is, but for
TOP_MSI_PENDING, the only one of block TOP, and PMC_SERVICE_LATCHED. -/
def isEventReg (a : Nat) : Bool :=
  match regRow a with
  | some (r, _) => decide (r.acc = .w1c ∧ blockOf a ≠ 0 ∧ a ≠ Reg.PMC_SERVICE_LATCHED)
  | none => false

/-- Hardware sets bits of a W1C register; a bit that goes from 0 to 1 in a register whose name ends in EVENT raises
the block's event source while <P>_EVENT_MSI.enable is 1 (R14, R518). -/
def State.setEvent (s : State) (a bits : Nat) : State :=
  let old := s.reg a
  let new := old ||| w32 bits
  let s1 := s.setReg a new
  if new ≠ old ∧ flag (s.reg (Reg.EVENT_MSI (blockOf a))) 0 ∧ isEventReg a then s1.raiseMsi (24 + blockOf a) else s1

/-- Count an ignored write (R14): the counter and the last offset. -/
def State.ignoredWrite (s : State) (a : Nat) : State :=
  let b := blockOf a
  (s.bump (Reg.IGNORED_WRITE_COUNT b)).put (Reg.LAST_IGNORED_OFFSET b) (offOf a)

/-- Count a same-cycle collision (R16, R17, R18). -/
def State.collide (s : State) (a : Nat) : State := s.bump (Reg.COLLIDE_COUNT (blockOf a))

/-- Replace quay q's record. -/
def State.setQuay (s : State) (q : Fin 4) (x : Quay) : State := { s with quays := s.quays.set q x }

/-- Update quay q's record. -/
def State.modQuay (s : State) (q : Fin 4) (f : Quay → Quay) : State := s.setQuay q (f s.quays[q])

/-- Update quay q's Salvage record. -/
def State.modSalv (s : State) (q : Fin 4) (f : Salv → Salv) : State := { s with salv := s.salv.set q (f s.salv[q]) }

/-- Update the memory system. -/
def State.modMem (s : State) (f : MemState → MemState) : State := { s with mem := f s.mem }

/-- The reply of the command's access. -/
def State.answer (s : State) (st : Status) (data : Nat := 0) (bytes : List Byte := []) (poison : Bool := false) : State :=
  { s with reply := some ⟨st, data, bytes, poison⟩ }

/-- Begin a command: the outputs and the reply are its own. -/
def State.begin (s : State) : State := { s with out := [], reply := none }

/-- A command answers the state `t`; the queue is as it was, for a command changes everything but the queue. -/
def done (s t : State) : Res := .next { t with pending := s.pending }

/-- A command answers the state `t`, and harbour time is as it was: only the time base's own cycle and a held step move it (R40, R41). -/
def keepNow (s t : State) : Res := done s { t with time := { t.time with now := s.time.now } }

/-- A command answers the state `t`, and so is the cold reset as it was: only PORST_N and the loss of rails 12 and 13 assert it (R557, R562). -/
def keep (s t : State) : Res := keepNow s { t with coldHeld := s.coldHeld }

/-- The state `t` with what no command but the time base's and the resets' changes as it is in `s`: harbour time, the cold reset, the queue. -/
def State.after (s t : State) : State :=
  { t with time := { t.time with now := s.time.now }, coldHeld := s.coldHeld, pending := s.pending }

/-- A command's effect `f`, absorbed while the device is held in cold reset or in a device warm reset (R536, R557). -/
def act (f : State → State) (s : State) : Res :=
  keep s (if s.coldHeld || s.warmHeld then s.begin else f s.begin)

/-- The effect of a command that Coastguard or the time base carries out: a device warm reset does not stop it (R471,
R536). -/
def actAlive (f : State → State) (s : State) : Res :=
  keep s (if s.coldHeld then s.begin else f s.begin)

/-- All four quays. -/
def allQuays : List (Fin 4) := [0, 1, 2, 3]

/-- A quay index from a number. -/
def quayOf? (n : Nat) : Option (Fin 4) := if h : n < 4 then some ⟨n, h⟩ else none

/-- The quay that holds instance `inst` of engine class `cls` (R47). -/
def State.ownerOf (s : State) (cls inst : Nat) : Option (Fin 4) :=
  allQuays.find? (fun q => match s.quays[q].chart with
    | some c => c.engines.any (fun e => e.cls = cls && e.inst = inst)
    | none => false)

/-- EDGE_N is asserted (R293, R294, R302): quay 0 is not RUNNING, a region is tripped, a disagreement is latched or
EDGE_TEST forces it. -/
def State.edgeN (s : State) : Bool :=
  decide (s.quays[(0 : Fin 4)].st ≠ .running) || s.edge.disagree || flag (s.reg Reg.EDGE_TEST) 0 ||
    s.edge.srcs.any (fun e => e.regions.any (fun r => r.tripped))

/-- The regions tripped: bit 8s + r for region r of source s (R302). -/
def State.edgeBits (s : State) : Nat :=
  sumNat ((enum s.edge.srcs).flatMap (fun e => (enum e.2.regions).map (fun r => bitAt r.2.tripped (8 * e.1 + r.1))))

/-- EDGE_N's level was `was` before a change: an assertion or release reaches the pin, EDGE_EVENT and Coastguard (R293). -/
def State.edgeSettle (s : State) (was : Bool) : State :=
  let now := s.edgeN
  if now = was then s
  else
    let s := if now then s.setReg64 Reg.EDGE_LAST_TRIP_TIME_LO s.time.now else s
    ((s.emit (.pin "EDGE_N" (!now))).emit (.note "EDGE_N" (b2n now) s.edgeBits)).setEvent Reg.EDGE_EVENT (if now then 1 else 2)

/-- Some quay satisfies `p`. -/
def State.anyQuay (s : State) (p : Quay → Bool) : Bool := allQuays.any (fun q => p s.quays[q])

/-- The quay is RUNNING, DOCKING or DOCKED. -/
def QState.active : QState → Bool
  | .running => true
  | .docking => true
  | .docked => true
  | _ => false

/-- An RWD register may be written (R11, R80). -/
def QState.rwdOpen : QState → Bool
  | .docked => true
  | .empty => true
  | _ => false

end Sys2Proof.Machine
end

