-- ==== Sys2Proof/Machine/Mem.lean ====
section
/-! DEFINITION. The device address space: its map (R396, R399, R400), byte stores with poison marks (R350, R376, R405),
page tables and translation (R411-R413), HBM frames (R399, R412), and berths, banks and tags (R369-R377). -/
namespace Sys2Proof.Machine

/-- What lies at a device address (R396). -/
inductive Region where
  | hbm (stack : Nat)
  | spad
  /-- The scratchpad window above the populated berths (R369). -/
  | spadHole
  | ledger
  | pcie
  | control
  | onnak (node : Nat)
  | none
  deriving DecidableEq, Repr

/-- The device address map (R396, R369). -/
def regionOf (a : Nat) : Region :=
  if a ≤ 0x0008FFFFFFFF then .hbm 0
  else if 0x001000000000 ≤ a ∧ a ≤ 0x00100BFFFFFF then .spad
  else if 0x00100C000000 ≤ a ∧ a ≤ 0x00100FFFFFFF then .spadHole
  else if 0x001010000000 ≤ a ∧ a ≤ 0x001010FFFFFF then .ledger
  else if 0x001100000000 ≤ a ∧ a ≤ 0x0019FFFFFFFF then .hbm 1
  else if 0x003000000000 ≤ a ∧ a ≤ 0x003FFFFFFFFF then .pcie
  else if 0x004000000000 ≤ a ∧ a ≤ 0x0040016FFFFF then .control
  else if 0x008000000000 ≤ a ∧ a ≤ 0x00FFFFFFFFFF then .onnak ((a - 0x008000000000) / 0x001000000000)
  else .none

/-! HBM groups and frames (R398-R400). -/

/-- Bytes in a pseudo-channel group: 4.5 GiB (R399). -/
def groupBytes : Nat := 0x120000000
/-- Bytes in an HBM frame: 2 MiB. -/
def frameBytes : Nat := 0x200000

/-- Device address of group g (R399). -/
def groupBase (g : Nat) : Nat := (if g < 8 then Addr.hbm0 else Addr.hbm1) + (g % 8) * groupBytes

/-- The group an HBM address lies in (R399). -/
def groupOf (a : Nat) : Option Nat :=
  match regionOf a with
  | .hbm 0 => some (a / groupBytes)
  | .hbm _ => some (8 + (a - Addr.hbm1) / groupBytes)
  | _ => none

/-- The pseudo-channel and pseudo-channel address of offset a in group g (R399). -/
def pchOf (g a : Nat) : Nat × Nat := (4 * g + (a >>> 8) % 4, ((a >>> 10) <<< 8) ||| (a % 256))

/-- Groups that HBMC_SYSTEM_GROUPS names (R400). -/
def State.systemGroups (s : State) : List Nat :=
  (List.range 16).filter (fun g => flag (s.reg Reg.HBMC_SYSTEM_GROUPS) g)

/-- Base of the protected area: the lowest-numbered system group (R400). -/
def State.protBase (s : State) : Nat := groupBase ((s.systemGroups.head?).getD 0)

/-- The address lies in the protected area: the first 160 MiB (R400). -/
def State.isProtected (s : State) (a : Nat) : Bool :=
  decide (s.protBase ≤ a ∧ a < s.protBase + 160 * 0x100000)

/-- Table area of quay q (R400). -/
def State.tableBase (s : State) (q : Nat) : Nat := s.protBase + (64 + q * 24) * 0x100000

/-- Chart store of quay q (R49, R400). -/
def State.chartStore (s : State) (q : Nat) : Nat := s.protBase + q * 16 * 0x100000

/-- The address lies in a system group. -/
def State.inSystemGroup (s : State) (a : Nat) : Bool :=
  match groupOf a with
  | some g => s.systemGroups.elem g
  | none => false

/-! Berths and banks (R369, R371). -/

/-- Device address of berth b. -/
def berthAddr (b : Nat) : Nat := Addr.spad + 4096 * b

/-- The berth a scratchpad address lies in. -/
def berthOf (a : Nat) : Nat := (a - Addr.spad) / 4096

/-- The bank of berth b (R369). -/
def bankOf (b : Nat) : Nat :=
  let d := b / 24576
  let g := (b % 24576) / 3072
  64 * d + 8 * g + b % 8

/-- A berth tag's fields (R371). -/
def tagFull (t : Word) : Bool := flag t 0
def tagStatic (t : Word) : Bool := flag t 1
def tagFrame (t : Word) : Nat := fld t 5 2
def tagTide (t : Word) : Nat := fld t 13 6
def tagQuay (t : Word) : Nat := fld t 15 14
def tagOwned (t : Word) : Bool := flag t 16
def tagPoisoned (t : Word) : Bool := flag t 17

/-- A berth tag from its fields (R371). -/
def mkTag (full static : Bool) (frame : Nat) (tide : Tide) (quay : Nat) (owned poisoned : Bool) : Word :=
  w32 (bitAt full 0 + bitAt static 1 + (frame % 16) * 4 + tide.toNat * 64 + (quay % 4) * 2 ^ 14 + bitAt owned 16
    + bitAt poisoned 17)

/-- Berth b's tag. -/
def State.tag (s : State) (b : Nat) : Word := Tab.get tag0 s.mem.tags b

/-- Set berth b's tag. -/
def State.setTag (s : State) (b : Nat) (t : Word) : State :=
  s.modMem (fun m => { m with tags := Tab.set tag0 m.tags b t })

/-- The bank is power-gated. -/
def State.isGated (s : State) (bank : Nat) : Bool := s.mem.gated.elem bank || s.mem.waking.elem bank

/-! Byte stores. -/

/-- One byte of HBM or scratchpad as stored. -/
def State.byte (s : State) (a : Nat) : Byte := Tab.get byte0 s.mem.bytes a

/-- `n` bytes as stored. -/
def State.bytesAt (s : State) (a n : Nat) : List Byte := (List.range n).map (fun i => s.byte (a + i))

/-- A little-endian number of `n` bytes in memory. -/
def State.natAt (s : State) (a n : Nat) : Nat := leNat (s.bytesAt a n)

/-- Line number `l` carries the poison mark (R376). -/
def MemState.isMarked (m : MemState) (l : Nat) : Bool :=
  Tab.get mark0 m.poison l || m.spans.any (fun e => decide (e.1 ≤ l ∧ l < e.2))

/-- What is left of the run [a, b) without the lines [lo, hi). -/
def cutSpan (lo hi : Nat) (e : Nat × Nat) : List (Nat × Nat) :=
  [(e.1, min e.2 lo), (max e.1 hi, e.2)].filter (fun x => x.1 < x.2)

/-- Set the mark of a line. -/
def MemState.mark (m : MemState) (l : Nat) : MemState := { m with poison := Tab.set mark0 m.poison l true }

/-- Clear the mark of a line. -/
def MemState.unmark (m : MemState) (l : Nat) : MemState :=
  { m with
    poison := Tab.set mark0 m.poison l false
    spans := if m.spans.any (fun e => decide (e.1 ≤ l ∧ l < e.2)) then m.spans.flatMap (cutSpan l (l + 1)) else m.spans }

/-- The line that holds `a` carries the poison mark (R376). -/
def State.marked (s : State) (a : Nat) : Bool := s.mem.isMarked (a / 64)

/-- The lines that [a, a + n) touches. -/
def linesOf (a n : Nat) : List Nat :=
  if n = 0 then [] else (List.range ((a + n - 1) / 64 + 1 - a / 64)).map (fun i => a / 64 + i)

/-- Some line of [a, a + n) carries the poison mark. -/
def State.anyMarked (s : State) (a n : Nat) : Bool := (linesOf a n).any s.mem.isMarked

/-- Store bytes with the poison mark or without. A line stored whole without the mark loses it; a line partly stored
keeps it (R376, R405). -/
def MemState.store (m : MemState) (a : Nat) (bs : List Byte) (poison : Bool) : MemState :=
  let n := bs.length
  let m := (linesOf a n).foldl (fun m l =>
    if poison then m.mark l
    else if a ≤ 64 * l ∧ 64 * l + 64 ≤ a + n then m.unmark l
    else m) m
  { m with bytes := Tab.setAll byte0 m.bytes a bs }

/-- Store bytes. -/
def State.store (s : State) (a : Nat) (bs : List Byte) (poison : Bool := false) : State :=
  s.modMem (fun m => m.store a bs poison)

/-- Store the enabled bytes of one line (R350, R351): bit i of `en` enables byte i. -/
def MemState.storeMasked (m : MemState) (line : Nat) (bs : List Byte) (en : Nat) (poison : Bool) : MemState :=
  let whole := (List.range 64).all (fun i => en.testBit i)
  let by' := (enum (bs.take 64)).foldl (fun t e => if en.testBit e.1 then Tab.set byte0 t (line + e.1) e.2 else t) m.bytes
  let m := { m with bytes := by' }
  if poison then m.mark (line / 64) else if whole then m.unmark (line / 64) else m

/-- Store the enabled bytes of one line. -/
def State.storeMasked (s : State) (line : Nat) (bs : List Byte) (en : Nat) (poison : Bool) : State :=
  s.modMem (fun m => m.storeMasked line bs en poison)

/-- The running stage has written the lines of [a, a + n) (R377). -/
def MemState.touch (m : MemState) (a n : Nat) : MemState :=
  { m with fresh := (linesOf a n).foldl (fun t l => Tab.set mark0 t l true) m.fresh }

/-- Forget which lines of [a, a + n) have been written (R377). -/
def MemState.unfresh (m : MemState) (a n : Nat) : MemState :=
  { m with fresh := m.fresh.filter (fun e => e.1 < a / 64 || (a + n + 63) / 64 ≤ e.1) }

/-- Clear every byte and mark of [a, a + n). -/
def MemState.wipe (m : MemState) (a n : Nat) : MemState :=
  { m.unfresh a n with
    bytes := m.bytes.filter (fun e => e.1 < a || a + n ≤ e.1)
    poison := m.poison.filter (fun e => e.1 < a / 64 || (a + n + 63) / 64 ≤ e.1)
    spans := m.spans.flatMap (cutSpan (a / 64) ((a + n + 63) / 64)) }

/-- A byte of instance i's tile store. -/
def State.tileByte (s : State) (i o : Nat) : Byte := Tab.get byte0 s.mem.tile (i * 0x200000 + o)

/-- The tile-store line carries the poison mark. -/
def State.tileMarked (s : State) (i o : Nat) : Bool := Tab.get mark0 s.mem.tilePoison ((i * 0x200000 + o) / 64)

/-- Store bytes in instance i's tile store. -/
def State.tileStore (s : State) (i o : Nat) (bs : List Byte) (poison : Bool) : State :=
  let a := i * 0x200000 + o
  let n := bs.length
  let lines := linesOf a n
  s.modMem (fun m =>
    let p := lines.foldl (fun p l =>
      if poison then Tab.set mark0 p l true
      else if a ≤ 64 * l ∧ 64 * l + 64 ≤ a + n then Tab.set mark0 p l false
      else p) m.tilePoison
    { m with tile := Tab.setAll byte0 m.tile a bs, tilePoison := p })

/-! Device accesses by firmware, Tender, the Harbourmaster and other users of device addresses (R369, R375, R391,
R396, R400). -/

/-- The initiator may write the protected area (R400). -/
def State.mayWriteProtected (s : State) (ini : Initiator) (a : Nat) : Bool :=
  match ini with
  | .hm => true
  | .mc => allQuays.any (fun q => decide (s.tableBase q ≤ a ∧ a < s.tableBase q + 24 * 0x100000) &&
      (match s.quays[q].chart with | some c => c.cfg.piloted | none => false))
  | _ => false

/-- A device read of `n` bytes: status, data, poison mark. The Track Ledger and the control window have reads of their
own; the PCIe and remote windows answer through their links. -/
def State.devRead (s : State) (a n : Nat) : Status × List Byte × Bool :=
  let zeros := List.replicate n 0#8
  match regionOf a with
  | .hbm _ =>
    let p := s.anyMarked a n
    (if p then St.POISON else St.OK, s.bytesAt a n, p)
  | .spad =>
    let b := berthOf a
    if s.isGated (bankOf b) then (St.FENCED, zeros, false)
    else if !tagOwned (s.tag b) then (St.OK, zeros, false)
    else
      let p := s.anyMarked a n
      (if p then St.POISON else St.OK, s.bytesAt a n, p)
  | .ledger => (St.OK, zeros, false)
  | .control => (St.OK, zeros, false)
  | .pcie => (St.OK, zeros, false)
  | .onnak _ => (St.OK, zeros, false)
  | _ => (St.OOB, zeros, false)

/-- A device write of bytes: the state after it and its status. -/
def State.devWrite (s : State) (ini : Initiator) (a : Nat) (bs : List Byte) (poison : Bool := false) : State × Status :=
  match regionOf a with
  | .hbm _ =>
    if s.isProtected a && !s.mayWriteProtected ini a then (s.bump Reg.XLT_TABLE_WRITE_DROP_COUNT, St.FENCED)
    else (s.store a bs poison, St.OK)
  | .spad =>
    let b := berthOf a
    let t := s.tag b
    if s.isGated (bankOf b) then (s.bump Reg.QUAY_BANK_LATE_WRITE_COUNT, St.FENCED)
    else if !tagOwned t then (s, St.FENCED)
    else
      let q := tagQuay t
      match quayOf? q with
      | none => (s, St.FENCED)
      | some qi =>
        if s.quays[qi].st = .loaded ∨ s.quays[qi].st = .docked then (s.store a bs poison, St.OK)
        else (s.bump (Reg.QUAY_SPAD_FENCED_COUNT q), St.FENCED)
  | .ledger => (s, St.FENCED)
  | .pcie => (s, St.OK)
  | .onnak _ => (s, St.OK)
  | .control => (s, St.OK)
  | _ => (s, St.OOB)

/-! Page tables and translation (R411-R413). -/

/-- What a walk answers: the device address, the page kind of XLT_PROBE_PA_HI and the leaf, or a fault kind. -/
inductive WalkRes where
  | ok (pa kind leaf : Nat)
  | fault (kind : Nat)
  deriving DecidableEq, Repr

/-- The table index of a virtual address at a level (R411). -/
def vaIndex (va level : Nat) : Nat := (va >>> (48 - 9 * level)) % 512

/-- Reserved bits of an entry are zero (R411). -/
def entryFormed (e : Nat) : Bool := decide (bitsOf e 11 7 = 0 ∧ bitsOf e 63 48 = 0)

/-- The physical page address field of an entry. -/
def entryAddr (e : Nat) : Nat := bitsOf e 47 12 * 4096

/-- Page size of a leaf at a level. -/
def leafSize (level e : Nat) : Nat :=
  match level with
  | 2 => 0x40000000
  | 3 => 0x200000
  | _ => if bitOf e 4 then 0x10000 else 0x1000

/-- Page kind code of a leaf (R421). -/
def leafKind (level e : Nat) : Nat :=
  match level with
  | 2 => 3
  | 3 => 2
  | _ => if bitOf e 4 then 1 else 0

/-- The sixteen entries of a 64 KiB group agree (R411). -/
def State.c64Consistent (s : State) (table idx : Nat) : Bool :=
  let i0 := idx / 16 * 16
  let e0 := s.natAt (table + 8 * i0) 8
  decide (entryAddr e0 % 0x10000 = 0) &&
    (List.range 16).all (fun j =>
      let e := s.natAt (table + 8 * (i0 + j)) 8
      bitOf e 0 && bitOf e 1 && bitOf e 4 && decide (entryAddr e = entryAddr e0 + j * 4096 ∧ e % 4096 = e0 % 4096))

/-- Walk from `level`: the leaf, its level, its table and whether every entry on the way was well formed. None where no
valid leaf exists; `some none` where a table could not be used (R413). -/
def State.walkFrom (s : State) (va : Nat) : Nat → Nat → Nat → Bool → Option (Option (Nat × Nat × Nat × Bool))
  | 0, _, _, _ => none
  | fuel + 1, level, table, formed =>
    let a := table + 8 * vaIndex va level
    if s.marked a then some none
    else
      let e := s.natAt a 8
      if !bitOf e 0 then none
      else
        let formed := formed && entryFormed e
        if bitOf e 1 then (if level = 1 then some none else some (some (e, level, table, formed)))
        else if level ≥ 4 then some none
        else State.walkFrom s va fuel (level + 1) (entryAddr e) formed

/-- A remote leaf lies in the window of a node the quay's FLEET section names; a local leaf in a group the quay holds,
outside the protected area (R413). -/
def State.leafOwned (s : State) (q : Fin 4) (e pa : Nat) : Bool :=
  if bitOf e 5 then
    match regionOf pa, s.quays[q].chart with
    | .onnak n, some c => c.fleet.any (fun f => f.node = n)
    | _, _ => false
  else
    match groupOf pa with
    | some g => s.quays[q].groups.elem g && !s.isProtected pa
    | none => false

/-- A page walk with the checks of R413 in its order. -/
def State.walk (s : State) (q : Fin 4) (va : Nat) (write : Bool) : WalkRes :=
  let root := s.addr48 (Reg.XLT_QUAY_ROOT_LO q)
  if root = 0 ∨ va ≥ 2 ^ 48 then .fault 1
  else match s.walkFrom va 4 1 root true with
    | none => .fault 1
    | some none => .fault 4
    | some (some (e, level, table, formed)) =>
      let size := leafSize level e
      let page := if level = 4 ∧ bitOf e 4 then entryAddr e / 0x10000 * 0x10000 else entryAddr e
      let pa := page + va % size
      if !(if write then bitOf e 3 else bitOf e 2) then .fault 2
      else if !s.leafOwned q e pa then .fault 3
      else if !formed || (level = 4 && bitOf e 4 && !s.c64Consistent table (vaIndex va 4)) || (level < 4 && bitOf e 4)
        || decide (page % size ≠ 0) then .fault 4
      else .ok pa (leafKind level e) e

/-- One leaf to be written: level, virtual address and entry. -/
structure Leaf where
  level : Nat
  va : Nat
  entry : Nat
  deriving DecidableEq, Repr

/-- The tables built so far: (level, prefix) in order of first need, and the entries to store. -/
structure TableSet where
  tables : List (Nat × Nat)
  entries : Tab Nat
  deriving DecidableEq, Repr

/-- The prefix of a virtual address that names a table of `level`. -/
def vaPrefix (va level : Nat) : Nat := va >>> (57 - 9 * level)

/-- The number of the table of a level and prefix, allotted in order of first need; linking it from its parent. -/
def TableSet.table (base : Nat) (t : TableSet) (va : Nat) : Nat → Nat × TableSet
  | 0 => (0, t)
  | 1 => (0, t)
  | level + 1 =>
    let (parent, t) := TableSet.table base t va level
    let key := (level + 1, vaPrefix va (level + 1))
    match findIdx (fun k => decide (k = key)) t.tables with
    | some i => (i, t)
    | none =>
      let i := t.tables.length
      let a := base + 4096 * parent + 8 * vaIndex va level
      (i, { tables := t.tables ++ [key], entries := Tab.set nat0 t.entries a (base + 4096 * i + 1) })

/-- Add one leaf. -/
def TableSet.addLeaf (base : Nat) (t : TableSet) (l : Leaf) : TableSet :=
  let (i, t) := TableSet.table base t l.va l.level
  { t with entries := Tab.set nat0 t.entries (base + 4096 * i + 8 * vaIndex l.va l.level) l.entry }

/-- The leaves of a handle's region backed by 2 MiB frames, with the frames left over (R412). `bits` holds the
access, remote and movable bits. Blocks are the 2 MiB-aligned spans the region touches. -/
def hbmLeaves (va len bits : Nat) : Nat → Nat → List Nat → List Leaf × List Nat
  | 0, _, frames => ([], frames)
  | fuel + 1, blk, frames =>
    let b := blk * frameBytes
    if b ≥ va + len then ([], frames)
    else match frames with
      | [] => ([], [])
      | f :: fs =>
        let lo := max va b
        let hi := min (va + len) (b + frameBytes)
        let here :=
          if lo = b ∧ hi = b + frameBytes then [⟨3, b, f + bits + 3⟩]
          else ((List.range 512).filter (fun i => lo ≤ b + 4096 * i && b + 4096 * i + 4096 ≤ hi)).map (fun i =>
            let c := b + (i / 16) * 0x10000
            let c64 := decide (lo ≤ c ∧ c + 0x10000 ≤ hi)
            (⟨4, b + 4096 * i, f + 4096 * i + bits + 3 + bitAt c64 4⟩ : Leaf))
        let rest := hbmLeaves va len bits fuel (blk + 1) fs
        (here ++ rest.1, rest.2)

/-- The 2 MiB spans and pieces a region takes (R412). -/
def framesNeeded (va len : Nat) : Nat := (va + len - 1) / frameBytes + 1 - va / frameBytes

/-- The leaves of a remote-window handle: 1 GiB pages where aligned, then 2 MiB, then 4 KiB (R412). -/
def remoteLeaves (pa bits : Nat) : Nat → Nat → Nat → List Leaf
  | 0, _, _ => []
  | fuel + 1, va, len =>
    if len = 0 then []
    else
      let fit := fun sz => decide (va % sz = 0 ∧ (pa + va) % sz = 0 ∧ sz ≤ len)
      let (level, sz) := if fit 0x40000000 then (2, 0x40000000) else if fit 0x200000 then (3, 0x200000) else (4, 0x1000)
      ⟨level, va, pa + va + bits + 3⟩ :: remoteLeaves pa bits fuel (va + sz) (len - sz)

/-! Handles (R99, R378). -/

/-- A handle-table entry by handle number. -/
def Quay.handle? (x : Quay) (h : Nat) : Option HandleT := x.handles.find? (fun e => e.handle = h)

/-- The bytes of one frame slot of a handle. -/
def HandleT.slotBytes (h : HandleT) (fif : Nat) : Nat := if h.rotated then h.length / fif * 4096 else h.length * 4096

/-- The first berth, or the virtual address, of frame slot `slot` of a handle. -/
def HandleT.slotBase (h : HandleT) (fif slot : Nat) : Nat :=
  let n := if h.rotated then slot * (h.length / fif) else 0
  if h.kind = 0 then h.base + n else h.base + 4096 * n

/-- frames_in_flight of a quay, 1 without a chart. -/
def Quay.fif (x : Quay) : Nat := match x.chart with | some c => max 1 c.cfg.fif | none => 1

/-- The device address of byte `o` of a handle's frame slot, or the status that stops the access (R378, R413). -/
inductive Located where
  | at (pa : Nat)
  /-- Kind or access bits do not permit it (R378). -/
  | oob
  | fenced
  /-- Translation fault kind and virtual address. -/
  | fault (kind va : Nat)
  deriving DecidableEq, Repr

/-- Locate a byte through a handle. -/
def State.locate (s : State) (q : Fin 4) (h slot o : Nat) (write : Bool) : Located :=
  let x := s.quays[q]
  match x.handle? h with
  | none => .oob
  | some e =>
    if e.fenced then .fenced
    else if !(if write then bitOf e.access 1 else bitOf e.access 0) then .oob
    else if o ≥ e.slotBytes x.fif then .oob
    else if e.kind = 0 then .at (berthAddr (e.slotBase x.fif slot) + o)
    else if e.kind = 3 then .oob
    else
      let va := e.slotBase x.fif slot + o
      match s.walk q va write with
      | .ok pa _ _ => .at pa
      | .fault k => .fault k va

/-- The berths of one frame slot of a berth-group handle. -/
def Quay.slotBerths (x : Quay) (h slot : Nat) : List Nat :=
  match x.handle? h with
  | some e => if e.kind = 0 then (List.range (if e.rotated then e.length / x.fif else e.length)).map (· + e.slotBase x.fif slot) else []
  | none => []

end Sys2Proof.Machine
end

