-- ==== Sys2Proof/Machine/RingOps.lean ====
section
/-! DEFINITION. Rings in system groups (R520): the completion rings (R523, R524) and the producer and consumer rule that the
other rings share (R179). -/
namespace Sys2Proof.Machine

/-- A ring's base address, from its LO register and bits [15:0] of its HI register. -/
def State.ringBase (s : State) (lo : Nat) : Nat := s.addr48 lo

/-- The k of a ring's HI register, bits [19:16]. -/
def State.ringK (s : State) (hi : Nat) : Nat := fld (s.reg hi) 19 16

/-- Advancing the producer would make it equal to the consumer (R179, R520). -/
def ringFull (size producer consumer : Nat) : Bool := decide ((producer + 1) % size = consumer)

/-- Write one 64-byte entry to completion ring n, or drop and count it (R524). Answers whether it was written. -/
def State.cringPut (s : State) (n : Nat) (entry : List Byte) : State × Bool :=
  let k := s.ringK (Reg.HM_CRING_BASE_HI n)
  let size := 2 ^ k
  let p := fld (s.reg (Reg.HM_CRING_PRODUCER n)) 11 0
  let c := fld (s.reg (Reg.HM_CRING_CONSUMER n)) 11 0
  if k = 0 || ringFull size p c then (s.bump (Reg.HM_CRING_DROP_COUNT n), false)
  else ((s.store (s.ringBase (Reg.HM_CRING_BASE_LO n) + 64 * p) entry).put (Reg.HM_CRING_PRODUCER n) ((p + 1) % size), true)

/-- Completion ring n is enabled and its class mask has the class's bit (R524). -/
def State.cringTakes (s : State) (n cls : Nat) : Bool :=
  let f := s.reg (Reg.HM_CRING_FILTER n)
  s.ringK (Reg.HM_CRING_BASE_HI n) ≠ 0 && flag f 0 && flag f cls

/-- The completion rings an entry goes to: those that take the descriptor's class, ring 0 when none does, and ring 0 for a
completion record (R524). -/
def State.cringsFor (s : State) (q : Nat) (cls : Option Nat) : List Nat :=
  match cls with
  | none => [4 * q]
  | some c =>
    let rs := ((List.range 4).map (fun i => 4 * q + i)).filter (fun n => s.cringTakes n c)
    if rs.isEmpty then [4 * q] else rs

/-- Write entries to the completion rings of quay q, each with the class of its producer (none for a completion record). Every
ring that advanced raises its interrupt once (R46, R518). -/
def State.cringAll (s : State) (q : Nat) (es : List (Option Nat × List Byte)) : State :=
  let r := es.foldl (fun (a : State × List Nat) e =>
    (a.1.cringsFor q e.1).foldl (fun (b : State × List Nat) n =>
      let (t, ok) := b.1.cringPut n e.2
      (t, if ok then addNew n b.2 else b.2)) a) (s, [])
  r.2.foldl (fun t n => t.raiseMsi (4 + n)) r.1

/-- A completion record (R523). -/
def Request.record (r : Request) (q : Nat) (status : Status) (now seq : Nat) : List Byte :=
  natLE 1 0x81 ++ natLE 1 q ++ natLE 1 r.tide.toNat ++ natLE 1 status.toNat ++ natLE 4 r.frame.toNat ++ natLE 8 r.tag ++
    natLE 8 now ++ natLE 2 r.stage ++ natLE 2 (match r.voyage with | some v => v % 4096 | none => 0xFFFF) ++ natLE 4 seq ++
    natLE 32 0

/-- The completion record of a command-ring entry goes to ring 0 of its quay (R523). -/
def State.requestRecord (s : State) (q : Fin 4) (r : Request) (status : Status) : State :=
  let seq := s.quays[q].records
  (s.modQuay q (fun x => { x with records := (seq + 1) % 2 ^ 32 })).cringAll q [(none, r.record q status s.time.now seq)]

/-- An accepted request completes with a status (R523). -/
def State.completeRequest (s : State) (q : Fin 4) (r : Request) (status : Status) : State :=
  (s.modQuay q (fun x => { x with requests := x.requests.erase r })).requestRecord q r status

end Sys2Proof.Machine
end

