-- ==== Sys2Proof/Machine/SafeMsgs.lean ====
section
/-! DEFINITION. This node's identity (R465), ETH_MGMT's gates (R469), and the safety messages (R489, R493, R494). -/
namespace Sys2Proof.Machine

/-- This node's id (R465, R537). -/
def State.nodeId (s : State) : Nat := s.customs.nodeId

/-- The MAC address of a fleet port, in transmit order: the fuse block's, with the port added to the last byte (R465). -/
def State.portMac (s : State) (p : Nat) : List Byte :=
  let m := s.customs.fuses.macBytes
  m.take 5 ++ [BitVec.ofNat 8 (((m.getD 5 0#8).toNat + p) % 256)]

/-- A class's gate is open: no gate list governs, or the present entry opens it. -/
def State.gateOpen (s : State) (cls : Nat) : Bool :=
  match s.eth.active with
  | none => true
  | some g => !flag (s.reg Reg.ETH_MGMT_CTRL) 4 || bitOf ((g.entries.getD s.eth.entry (0xFF, 0)).1) cls

/-- Put a safety message's frame on ETH_MGMT (R494). -/
def State.sendEthMsg (s : State) (m : CgMsg) : State :=
  let dst := natLE 4 (s.reg Reg.CG_ETH_DST_LO).toNat ++ natLE 2 (fld (s.reg Reg.CG_ETH_DST_HI) 15 0)
  let tci := 7 * 8192 + fld (s.reg Reg.CG_MSG_CTRL) 15 4
  s.emit (.eth (dst ++ s.portMac 4 ++ [0x81#8, 0x00#8] ++ natBE 2 tci ++ [0x88#8, 0xB6#8] ++ m.bytes ++ m.payload.drop 24))

/-- Safety messages that wait for class 7 leave, in order, while it is open (R443, R494). -/
def State.drainClass7 (s : State) : State :=
  if !s.gateOpen 7 || !s.eth.up then s
  else s.cg.queue.foldl (fun (s : State) m => s.sendEthMsg m) { s with cg := { s.cg with queue := [] } }

/-! Safety messages (R493, R494). -/

/-- Bytes 0x00 to 0x3F of a safety message: kind, frame, time, sequence, stage, flags, status, length and payload. -/
def State.safetyMsg (s : State) (kind : Nat) (frame : FrameNo) (time seq stage flags status : Nat) (payload : List Byte) : List Byte :=
  let b := natLE 1 1 ++ natLE 1 kind ++ natLE 1 (b2n s.cg.safe) ++ natLE 1 s.nodeId ++ natLE 4 frame.toNat ++ natLE 8 time ++ natLE 2 seq ++
    natLE 2 stage ++ natLE 1 flags ++ natLE 1 status ++ natLE 2 (s.cg.active % 4096) ++ natLE 4 s.edgeBits ++ natLE 2 payload.length ++
    natLE 2 0 ++ slice payload 0 24 ++ natLE 4 (if payload.isEmpty then 0 else crc32c payload)
  b ++ natLE 4 (crc32c b)

/-- Interfaces that are enabled: 0 and 1 the CAN FD buses, 2 ETH_MGMT (R496). -/
def State.safetyIfs (s : State) : List Nat :=
  let c := s.reg Reg.CG_MSG_CTRL
  (if flag c 1 then [0] else []) ++ (if flag c 2 then [1] else []) ++ (if flag c 0 then [2] else [])

/-- The next sequence number of an interface and kind, and the state that has used it (R493). -/
def State.nextSeq (s : State) (i kind : Nat) : Nat × State :=
  let e := s.cg.seqs.getD i (0, 0)
  let n := if kind = 1 then e.1 else e.2
  let e' := if kind = 1 then ((n + 1) % 0x10000, e.2) else (e.1, (n + 1) % 0x10000)
  (n, { s with cg := { s.cg with seqs := setAt s.cg.seqs i e' } })

/-- Send a safety message on an interface (R494): `slot` is the forwarding slot of a RESULT, 16 for a NOTICE. A NOTICE preempts the RESULTs that wait for
class 7 (R490). -/
def State.sendSafety (s : State) (i slot : Nat) (m : List Byte) (payload : List Byte) : State :=
  if i = 2 then
    let s : State := if slot = 16 then
        let dropped := (s.cg.queue.filter (fun m => m.slot ≠ 16)).length
        ({ s with cg := { s.cg with queue := s.cg.queue.filter (fun m => m.slot = 16) } } : State).bumpBy Reg.CG_MSG_DROP_COUNT dropped
      else s
    ({ s with cg := { s.cg with queue := s.cg.queue ++ [⟨slot, m, payload⟩] } } : State).drainClass7
  else
    let ident := if slot = 16 then s.reg Reg.CG_CAN_ID_NOTICE
      else setFld (s.reg Reg.CG_CAN_ID_RESULT) 28 0 ((fld (s.reg Reg.CG_CAN_ID_RESULT) 28 0 + slot) % 2 ^ 29)
    s.emit (.can i ident m)

/-- A NOTICE on every enabled interface (R489, R493). -/
def State.notice (s : State) : State :=
  let s := { s with cg := { s.cg with noticeAt := s.time.now } }
  s.safetyIfs.foldl (fun (s : State) i =>
    let (n, s) := s.nextSeq i 2
    s.sendSafety i 16 (s.safetyMsg 2 (s.reg (Reg.HM_QUAY_FRAME 0)) s.time.now n 0 0 0 []) []) s

/-- The level driven on SAFE_N (R489). -/
def State.driveSafe (s : State) (asserted : Bool) : State :=
  if s.cg.safeN = asserted then s
  else ({ s with cg := { s.cg with safeN := asserted } } : State).emit (.pin "SAFE_N" (!asserted))

/-- The decision unit acts on a fault signal (R486, R488, R489): the cause is active, the safe state is entered, and a NOTICE goes. -/
def State.decide' (s : State) (cause : Nat) (frame : FrameNo) : State :=
  let isFrame := decide (cause = Cause.LIGHTHOUSE_FAIL ∨ cause = Cause.UNCOVERED ∨ cause = Cause.INVALID)
  let s := { s with cg := { s.cg with
    active := Nat.lor s.cg.active (2 ^ cause)
    causeFrames := if isFrame then addNew (cause, frame) s.cg.causeFrames else s.cg.causeFrames
    safe := true } }
  let s := (s.setEvent Reg.CG_CAUSE_EVENT (2 ^ cause)).bump Reg.CG_DECISION_COUNT
  let s := (s.setReg64 Reg.CG_LAST_DECISION_TIME_LO s.time.now).setReg Reg.CG_LAST_DECISION_FRAME (s.reg (Reg.HM_QUAY_FRAME 0))
  (s.driveSafe true).notice

/-- A self-fault asserts SAFE_N and holds it until cold reset (R473). -/
def State.selfFaulted (s : State) : State :=
  if s.cg.selfFault then s else ({ s with cg := { s.cg with selfFault := true } } : State).decide' Cause.CG_SELF 0#32

end Sys2Proof.Machine
end

