-- ==== Sys2Proof/Machine/HmBase.lean ====
section
/-! DEFINITION. What the Harbourmaster, the Salvage unit and Coastguard's decision unit share: quay states and command
completion (R70, R71, R77, R78), the device fault FIFO (R106), progress events (R500), fault signals (R486) and the
declaration of a hung quay (R498). -/
namespace Sys2Proof.Machine

/-- Number `n` without bit `i`. -/
def clearBit (n i : Nat) : Nat := if n.testBit i then n - 2 ^ i else n

/-- Send a fault signal to the decision unit (R486, R488). -/
def State.cgSignal (s : State) (cause : Nat) (frame : FrameNo := 0#32) : State :=
  { s with cg := { s.cg with signals := addNew (cause, frame) s.cg.signals } }

/-- A condition cause whose condition has ended is no longer active; a change of the causes sends a NOTICE (R486, R489). -/
def State.cgClear (s : State) (cause : Nat) : State :=
  let was := s.cg.active
  let s := { s with cg := { s.cg with active := clearBit was cause, signals := s.cg.signals.filter (fun e => e.1 ≠ cause) } }
  if s.cg.active = was then s else s.notice

/-- NOT_RUNNING is signalled where quay 0 enters the condition, not again while the cause is active (R486, log entry 64). -/
def State.notRunning (s : State) : State := if s.cg.active.testBit Cause.NOT_RUNNING then s else s.cgSignal Cause.NOT_RUNNING

/-- A quay enters a state: state_changed is set (R91), and for quay 0 the conditions of R486 follow. -/
def State.setQState (s : State) (q : Fin 4) (st : QState) : State :=
  if s.quays[q].st = st then s
  else
    let was := s.edgeN
    let s := (s.modQuay q (fun x => { x with st := st })).setEvent (Reg.HM_QUAY_EVENT q) 2
    if q ≠ 0 then s
    else
      let s := s.edgeSettle was
      let s := if st = .running then s.cgClear Cause.NOT_RUNNING else s.notRunning
      if st = .faulted then s.cgSignal Cause.QUAY_FAULT else s

/-- A progress event of the quay restarts its no-progress timer (R500). -/
def State.progress (s : State) (q : Fin 4) : State := s.modSalv q (fun v => { v with progressAt := s.time.now })

/-- The command in progress completes (R77). -/
def State.completeCmd (s : State) (q : Fin 4) (status : Status) : State :=
  match s.quays[q].busy with
  | none => s
  | some c =>
    ((((s.modQuay q (fun x => { x with busy := none, lastOp := c.code, lastStatus := status })).setEvent
      (Reg.HM_QUAY_EVENT q) 1).raiseMsi q).progress q)

/-- Enter an ended stage in the device fault FIFO (R106). -/
def State.pushFault (s : State) (q : Fin 4) (stage : Nat) (status : Status) (frame : FrameNo) : State :=
  let s := s.bump (Reg.HM_QUAY_STAGE_FAULT_COUNT q)
  if s.faultFifo.length ≥ 32 then s.bump Reg.HM_FAULT_LOST_COUNT
  else { s with faultFifo := s.faultFifo ++ [⟨stage, status, q, frame⟩] }

/-- STAGES entry `i` of a quay's chart. -/
def Quay.stageE (x : Quay) (i : Nat) : StageE :=
  match x.chart with
  | some c => c.stages.getD i ⟨0xFFFF, 0, 0xFFFF, [], [], 0, 0, false, false, false, 0⟩
  | none => ⟨0xFFFF, 0, 0xFFFF, [], [], 0, 0, false, false, false, 0⟩

/-- The engine instance of STAGES entry `i`. -/
def Quay.engineE (x : Quay) (i : Nat) : EngineE :=
  match x.chart with
  | some c => c.engines.getD (x.stageE i).engine ⟨0, 0, false, false, 0xFFFF⟩
  | none => ⟨0, 0, false, false, 0xFFFF⟩

/-- A stage has been dispatched, has started and has not completed. -/
def StageRun.running (r : StageRun) : Bool := r.dispatched && !r.held && decide (r.status = none)

/-- The frame in flight with a number. -/
def Quay.frame? (x : Quay) (n : FrameNo) : Option FrameRec := x.frames.find? (fun f => f.num = n)

/-- Update the frame in flight with a number. -/
def Quay.modFrame (x : Quay) (n : FrameNo) (g : FrameRec → FrameRec) : Quay :=
  { x with frames := x.frames.map (fun f => if f.num = n then g f else f) }

/-- Update one stage of a frame. -/
def FrameRec.modStage (f : FrameRec) (i : Nat) (g : StageRun → StageRun) : FrameRec :=
  { f with stages := f.stages.map (fun r => if r.idx = i then g r else r) }

/-- Update one stage of a frame of quay q. -/
def State.modStage (s : State) (q : Fin 4) (n : FrameNo) (i : Nat) (g : StageRun → StageRun) : State :=
  s.modQuay q (fun x => x.modFrame n (fun f => f.modStage i g))

/-- One stage of a frame of quay q. -/
def State.stageRun? (s : State) (q : Fin 4) (n : FrameNo) (i : Nat) : Option StageRun :=
  match s.quays[q].frame? n with
  | some f => f.stages.find? (fun r => r.idx = i)
  | none => none

/-- Engine instances of a chart in order of class code and instance (R502). -/
def Chart.instances (c : Chart) : List UnitId :=
  (List.range 16).flatMap (fun k => ((List.range (clsCount k)).filter (fun i =>
    c.engines.any (fun e => e.cls = k && e.inst = i))).map (fun i => (k, i)))

/-- The units of a quay in the dump's reading order (R502). -/
def State.quayUnits (s : State) (q : Fin 4) : List UnitId :=
  let x := s.quays[q]
  let eng := match x.chart with | some c => c.instances | none => []
  [(0x10, 0)] ++ eng ++ (List.range 6).map (fun p => (0x11, p)) ++ (List.range 2).map (fun p => (0x12, p)) ++
    (List.range 2).map (fun p => (0x13, p)) ++
    ((List.range 8).filter (fun n => ((s.onnak.binds.getD (q * 8 + n) Binding.reset).st) ≠ .none)).map (fun n => (0x14, n))

/-- Begin a dump with a reason (R502, R503). -/
def State.beginDump (s : State) (q : Fin 4) (reason : Nat) (cycle : List UnitId) (suspects : Nat) : State :=
  let units := s.quayUnits q
  let size := (s.reg (Reg.SALVAGE_QUAY_DUMP_SIZE q)).toNat % 0x10000
  let held := s.salv[q].held
  let d : Dump := {
    reason := reason, declaredAt := s.time.now, todo := units, cycle := cycle, needed := units.length, written := 0,
    tide := s.quays[q].tide, frame := s.reg (Reg.HM_QUAY_FRAME q), published := s.reg (Reg.HM_QUAY_PUBLISHED q),
    suspects := suspects, writing := !held && decide (64 ≤ size), truncated := false, overtaken := false }
  let s := s.modSalv q (fun v => { v with
    dump := some d
    dumpWritten := if d.writing then 0 else v.dumpWritten
    dumpTrunc := if d.writing then false else v.dumpTrunc
    held := v.held || d.writing })
  if held then s.setEvent (Reg.SALVAGE_QUAY_EVENT q) 4 else s

/-- A replayed voyage is the culprit (R511, R514). -/
def State.culprit (s : State) (q : Fin 4) (r : Request) : State :=
  let a := Reg.SALVAGE_QUAY_CULPRIT q
  let n := fld (s.reg a) 31 16
  (s.put a (r.voyage.getD 0 % 4096 + min (n + 1) 0xFFFF * 0x10000)).setEvent (Reg.SALVAGE_QUAY_EVENT q) 0x80

/-- A replay has ended (R511): it counts when its stage completed before its window closed. -/
def State.replayEnded (s : State) (q : Fin 4) (counted : Bool) : State :=
  let s := s.modSalv q (fun v => { v with replay := none, phase := if v.suspects.isEmpty ∧ v.phase = .replaying then .idle else v.phase })
  if counted then s.bump (Reg.SALVAGE_QUAY_REPLAY_COUNT q) else s

/-- The Salvage unit declares a quay hung, if it is in a state that allows it (R498, R512). -/
def State.declareHung (s : State) (q : Fin 4) (reason : Nat) (cycle : List UnitId) : State :=
  let x := s.quays[q]
  if !x.st.active then s
  else
    let s := match s.salv[q].replay with
      | some r => ((s.completeRequest q r St.HANG).culprit q r).modSalv q (fun v => { v with replay := none })
      | none => s
    let running := x.frames.flatMap (fun f => (f.stages.filter StageRun.running).map (fun r => (f.num, r.idx)))
    let suspects := s.quays[q].requests.filter (fun r => r.voyage.isSome)
    let kept := s.quays[q].requests.filter (fun r => r.voyage.isNone)
    let s := s.setQState q .faulted
    let s := s.completeCmd q St.HANG
    let s := running.foldl (fun s e => s.pushFault q (x.stageE e.2).stage St.HANG e.1) s
    let s := s.bump (Reg.SALVAGE_QUAY_HANG_COUNT q)
    let s := s.setEvent (Reg.SALVAGE_QUAY_EVENT q) 1
    let recent := (s.time.now :: s.salv[q].declared).filter (fun t => s.time.now < t + 1000000000)
    let auto := flag (s.reg (Reg.SALVAGE_QUAY_CTRL q)) 0
    let s := s.modSalv q (fun v => { v with
      phase := .dumping
      reason := reason
      hungFor := reason
      declared := recent
      recovering := auto && decide (recent.length < 4)
      gaveUp := auto && decide (4 ≤ recent.length)
      suspects := suspects.filter (fun e => v.replay ≠ some e) ++ v.suspects
      kept := kept
      nextFrameAt := (x.nextFrame, s.reg64 (Reg.HM_QUAY_TICK_LO q))
      periodNs := match x.chart with | some c => c.cfg.periodUs * 1000 | none => 0 })
    s.beginDump q reason cycle suspects.length

end Sys2Proof.Machine
end

