-- ==== Sys2Proof/Machine/Slots.lean ====
section
/-! DEFINITION. How a stage reads and writes the frame slots of its handles: tag judgement and tag writes (R372-R374), poisoned
outputs (R105, R377), and translation faults (R416-R418). -/
namespace Sys2Proof.Machine

/-- The tag that the accesses of STAGES entry `idx` carry for frame `f` (R112, R118, R371). -/
def State.tagFor (s : State) (q : Fin 4) (f : FrameRec) (idx : Nat) : ReqTag :=
  let x := s.quays[q]
  let slot := f.k % x.fif
  ⟨q, x.tide, 0xFFFF, idx, f.num, slot, x.gens.getD slot 0⟩

/-- The quay index a tag carries. -/
def ReqTag.q (t : ReqTag) : Fin 4 := (quayOf? t.quay).getD 0

/-- One fault record (R417). -/
def State.faultRecord (s : State) (t : ReqTag) (kind va : Nat) (write : Bool) (desc : Nat) (idxs : List Nat) : List Byte :=
  let e := (s.quays[t.q]).engineE t.stage
  let id := ((s.quays[t.q]).stageE t.stage).stage
  natLE 1 1 ++ natLE 1 t.quay ++ natLE 1 t.tide.toNat ++ natLE 1 kind ++ natLE 4 t.frame.toNat ++ natLE 8 va ++
    natLE 1 e.cls ++ natLE 1 e.inst ++ natLE 2 id ++ natLE 1 (b2n write) ++ natLE 3 0 ++ natLE 8 desc ++
    (List.range 6).flatMap (fun i => natLE 4 (idxs.getD i 0)) ++ natLE 8 s.time.now

/-- A fault record goes to its quay's fault ring, and is counted (R417). -/
def State.faultRing (s : State) (q : Fin 4) (rec' : List Byte) : State :=
  let k := s.ringK (Reg.XLT_QUAY_FAULT_RING_HI q)
  let size := 2 ^ k
  let p := fld (s.reg (Reg.XLT_QUAY_FAULT_PRODUCER q)) 11 0
  let c := fld (s.reg (Reg.XLT_QUAY_FAULT_CONSUMER q)) 11 0
  let s := s.bump (Reg.XLT_QUAY_FAULT_COUNT q)
  if k < 4 ∨ 12 < k then s
  else if ringFull size p c then s.bump (Reg.XLT_QUAY_FAULT_DROP_COUNT q)
  else (s.store (s.ringBase (Reg.XLT_QUAY_FAULT_RING_LO q) + 64 * p) rec').put (Reg.XLT_QUAY_FAULT_PRODUCER q) ((p + 1) % size)

/-- A translation fault of a stage: its record, count and event, and in a Moored quay the signals to Coastguard and the Salvage
unit (R417, R418, R486, R498). -/
def State.xltFault (s : State) (t : ReqTag) (kind va : Nat) (write : Bool) (desc : Nat) (idxs : List Nat) : State :=
  let q := t.q
  let s := s.faultRing q (s.faultRecord t kind va write desc idxs)
  let moored := match (s.quays[q]).chart with | some ch => !ch.cfg.piloted | none => false
  let s := s.setEvent Reg.XLT_EVENT (2 ^ q.val + bitAt moored (4 + q.val))
  if !moored then s
  else
    let s := if q = 0 then s.cgSignal Cause.QUAY_FAULT t.frame else s
    s.declareHung q 3 []

/-! Reads. -/

/-- The delivered remote line at a device address for a stage. -/
def State.remoteLine? (s : State) (t : ReqTag) (pa : Nat) : Option RemoteLine :=
  s.mem.delivered.find? (fun l => l.tag.quay = t.quay && l.tag.frame = t.frame && l.tag.stage = t.stage && l.pa = pa / 64 * 64)

/-- What a byte at a device address reads as for a stage: its value and poison mark (R377, R391, R416). -/
def State.engineByte (s : State) (t : ReqTag) (pa : Nat) : Byte × Bool :=
  match regionOf pa with
  | .onnak _ =>
    match s.remoteLine? t pa with
    | some l => (l.data.getD (pa % 64) 0#8, l.poison)
    | none => (0#8, true)
  | .spad => if s.isGated (bankOf (berthOf pa)) then (0#8, false) else (s.byte pa, s.marked pa)
  | _ => (s.byte pa, s.marked pa)

/-- The bytes of a handle's frame slot as a stage reads them: a byte that cannot be reached reads as 0 with the mark. -/
def State.srcOf (s : State) (t : ReqTag) (h slot : Nat) : SrcBytes := fun o =>
  match s.locate t.q h slot o false with
  | .at pa => s.engineByte t pa
  | _ => (0#8, true)

/-- Slot offsets at which [off, off + n) enters a 4 KiB page. -/
def pageStarts (off n : Nat) : List Nat :=
  if n = 0 then []
  else off :: (List.range ((off + n - 1) / 4096 - off / 4096)).map (fun i => (off / 4096 + 1 + i) * 4096)

/-- What stops an access. -/
structure Blocked where
  status : Status
  /-- A translation fault: its kind and virtual address. -/
  fault : Option (Nat × Nat)
  deriving DecidableEq, Repr

/-- The first thing that stops an access to [off, off + n) of a slot. -/
def State.blockedAt (s : State) (t : ReqTag) (h slot off n : Nat) (write : Bool) : Option Blocked :=
  (pageStarts off n).findSome? (fun o =>
    match s.locate t.q h slot o write with
    | .at pa =>
      match regionOf pa with
      | .spad => if s.isGated (bankOf (berthOf pa)) then some ⟨St.FENCED, none⟩ else none
      | _ => none
    | .oob => some ⟨St.OOB, none⟩
    | .fenced => some ⟨St.FENCED, none⟩
    | .fault k va => some ⟨St.FAULT, some (k, va)⟩)

/-- Record what stopped an access: a FENCED request is counted (R379), a translation fault recorded (R417). -/
def State.noteBlocked (s : State) (t : ReqTag) (b : Blocked) (write : Bool) (desc : Nat) (idxs : List Nat) : State :=
  let s := if b.status = St.FENCED then s.bump (Reg.QUAY_SPAD_FENCED_COUNT t.q) else s
  match b.fault with
  | some (k, va) => s.xltFault t k va write desc idxs
  | none => s

/-- A read of [off, off + n) of a slot: the state after any fault record, and the statuses met (R378, R379, R416). -/
def State.readSlot (s : State) (t : ReqTag) (h slot off n : Nat) (desc : Nat := 0) : State × List Status :=
  match s.blockedAt t h slot off n false with
  | none => (s, [])
  | some b => (s.noteBlocked t b false desc [], [b.status])

/-- A berth of a slot may be read for frame `n`: FULL with its frame tag, or static (R372). -/
def State.berthReady (s : State) (b : Nat) (n : FrameNo) : Bool :=
  let g := s.tag b
  tagFull g && (tagStatic g || tagFrame g = n.toNat % 16)

/-- Every byte of [off, off + n) of a slot may be read now: its berths are ready, its remote lines delivered (R372, R456). `fr` is
the frame whose slot it is. -/
def State.slotReady (s : State) (t : ReqTag) (h slot : Nat) (fr : FrameNo) (off n : Nat) : Bool :=
  let x := s.quays[t.q]
  match x.handle? h with
  | none => true
  | some e =>
    if e.kind = 0 then
      (pageStarts off n).all (fun o =>
        o ≥ e.slotBytes x.fif || s.berthReady (e.slotBase x.fif slot + o / 4096) fr)
    else if e.kind = 2 then
      (linesOf off n).all (fun l =>
        match s.locate t.q h slot (64 * l) false with
        | .at pa => (s.remoteLine? t pa).isSome
        | _ => true)
    else true

/-- A tensor descriptor at byte offset `o` of a slot, and whether it is poisoned. -/
def descAt (src : SrcBytes) (o : Nat) : Desc × Bool :=
  let b := (List.range 128).map (fun i => src (o + i))
  (Desc.ofBytes (b.map (·.1)), b.any (·.2))

/-! Writes. -/

/-- The outcome of a write against a berth's tag (R373). -/
inductive WriteJudge where
  | store | reopen | late | mismatch
  deriving DecidableEq, Repr

/-- Judge a write (R373). -/
def judgeWrite (g : Word) (t : ReqTag) : WriteJudge :=
  if !tagOwned g || tagQuay g ≠ t.quay || tagTide g ≠ t.tide.toNat then .mismatch
  else if !tagFull g then .store
  else if tagStatic g then .late
  else if tagNewer (t.frame.toNat % 16) (tagFrame g) then .reopen
  else .late

/-- Some line of the berth carries the mark. -/
def State.berthMarked (s : State) (b : Nat) : Bool := s.anyMarked (berthAddr b) 4096

/-- Set a tag's poisoned bit to what the berth's lines show (R371). -/
def State.retagPoison (s : State) (b : Nat) : State :=
  let g := s.tag b
  s.setTag b (mkTag (tagFull g) (tagStatic g) (tagFrame g) (BitVec.ofNat 8 (tagTide g)) (tagQuay g) (tagOwned g) (s.berthMarked b))

/-- An engine's write to a berth: the enabled bytes of one line (R350, R373, R391). -/
def State.berthWrite (s : State) (t : ReqTag) (b off : Nat) (bs : List Byte) (en : Nat) (poison : Bool) : State × Status :=
  if s.isGated (bankOf b) then (s.bump Reg.QUAY_BANK_LATE_WRITE_COUNT, St.FENCED)
  else
    let g := s.tag b
    let put := fun (s : State) =>
      let s := s.setTag b (mkTag false (tagStatic g) t.frame.toNat t.tide t.quay true (tagPoisoned g))
      let line := berthAddr b + off / 64 * 64
      let s := s.storeMasked line bs en poison
      (s.modMem (fun m => m.touch line 64)).retagPoison b
    match judgeWrite g t with
    | .mismatch => (s.bump (Reg.HM_QUAY_STALE_DROP_COUNT t.q), St.STALE_TIDE)
    | .late => (s.bump (Reg.QUAY_SPAD_LATE_WRITE_COUNT t.q), St.FAULT)
    | .store => (put s, St.OK)
    | .reopen => (put (s.modMem (fun m => m.unfresh (berthAddr b) 4096)), St.OK)

/-- Byte enables of `n` bytes from byte `o` of a line. -/
def enables (o n : Nat) : Nat := (2 ^ n - 1) <<< o

/-- A run of bytes cut at line boundaries: offset of the line, first byte in it, bytes. -/
def cutLines (off : Nat) (bs : List Byte) : List (Nat × Nat × List Byte) :=
  (linesOf off bs.length).map (fun l =>
    let lo := max off (64 * l)
    let hi := min (off + bs.length) (64 * l + 64)
    (64 * l, lo - 64 * l, (bs.drop (lo - off)).take (hi - lo)))

/-- One line of a run: offset of the line, first byte in it, bytes. -/
def State.putLine (s : State) (t : ReqTag) (loc : State → Nat → Located) (h : Nat) (bad : Bool) (e : Nat × Nat × List Byte) : State × Option Blocked :=
  let (o, first, bs) := e
  match loc s (o + first) with
  | .at pa =>
    match regionOf pa with
    | .spad =>
      let (s, st) := s.berthWrite t (berthOf pa) (pa % 4096) (List.replicate first 0#8 ++ bs) (enables first bs.length) bad
      (s, if st = St.OK then none else some ⟨st, none⟩)
    | .onnak _ => ({ s with onnak := { s.onnak with packs := s.onnak.packs ++
        [⟨(pa - Addr.onnak) / 0x1000000000, t, h, pa % 0x1000000000, bs, s.time.now, bad⟩] } }, none)
    | _ =>
      let line := pa / 64 * 64
      let s := s.storeMasked line (List.replicate first 0#8 ++ bs) (enables first bs.length) bad
      (s.modMem (fun m => m.touch line 64), none)
  | .oob => (s, some ⟨St.OOB, none⟩)
  | .fenced => (s, some ⟨St.FENCED, none⟩)
  | .fault k va => (s, some ⟨St.FAULT, some (k, va)⟩)

/-- Write one run of bytes through a locator; `h` names the stream. -/
def State.putRun (s : State) (t : ReqTag) (loc : State → Nat → Located) (h : Nat) (c : Chunk) : State × Option Blocked :=
  (cutLines c.off c.bytes).foldl (fun (a : State × Option Blocked) e =>
    match a.2 with
    | some b => if b.fault.isSome then a else
      let r := a.1.putLine t loc h c.bad e; (r.1, some b)
    | none => a.1.putLine t loc h c.bad e) (s, none)

/-- Write runs through a locator; once a translation faults, every remaining element is dropped (R416). Answers the statuses met. -/
def State.putChunks (s : State) (t : ReqTag) (loc : State → Nat → Located) (h : Nat) (cs : List Chunk) (desc : Nat) : State × List Status :=
  let r := cs.foldl (fun (a : State × List Status × Bool) c =>
    if a.2.2 then a
    else
      let (s, b) := a.1.putRun t loc h c
      match b with
      | none => (s, a.2)
      | some b => (s.noteBlocked t b true desc [], addNew b.status a.2.1, b.fault.isSome)) (s, [], false)
  (r.1, r.2.1)

/-- Write runs to a slot of an output handle. -/
def State.putSlot (s : State) (t : ReqTag) (h slot : Nat) (cs : List Chunk) (desc : Nat := 0) : State × List Status :=
  s.putChunks t (fun s o => s.locate t.q h slot o true) h cs desc

/-- A tag write: the berth becomes FULL with the writer's frame tag and tide and its signal is emitted; a late write or a
mismatch is dropped and counted (R373, R374, R97). -/
def State.setFull (s : State) (t : ReqTag) (h b : Nat) (poison : Bool := false) : State × Status :=
  let g := s.tag b
  if !tagOwned g || tagQuay g ≠ t.quay || tagTide g ≠ t.tide.toNat then
    (s.bump (Reg.HM_QUAY_STALE_DROP_COUNT t.q), St.STALE_TIDE)
  else if tagFull g && (tagStatic g || !tagNewer (t.frame.toNat % 16) (tagFrame g)) then
    (s.bump (Reg.QUAY_SPAD_LATE_WRITE_COUNT t.q), St.FAULT)
  else
    let s := s.setTag b (mkTag true false t.frame.toNat t.tide t.quay true (poison || tagPoisoned g))
    let s := if poison then s.bump (Reg.QUAY_SPAD_POISON_COUNT t.q) else s
    let s := s.modMem (fun m => { m with signals := m.signals ++ [⟨t.quay, t.tide, h, b, t.slot, t.frame⟩] })
    (s.progress t.q, St.OK)

/-- The berth is FULL for the writer's frame. -/
def State.isFullFor (s : State) (b : Nat) (n : FrameNo) : Bool :=
  let g := s.tag b
  tagFull g && tagFrame g = n.toNat % 16

/-- Set full the berths of a slot that a predicate on their number in the slot selects and that are not yet full. -/
def State.fullBerths (s : State) (t : ReqTag) (h slot : Nat) (p : Nat → Bool) : State :=
  (enum ((s.quays[t.q]).slotBerths h slot)).foldl (fun s e =>
    if p e.1 && !s.isFullFor e.2 t.frame then (s.setFull t h e.2).1 else s) s

/-- Set full every berth of a slot that is not yet full. -/
def State.fillSlot (s : State) (t : ReqTag) (h slot : Nat) : State := s.fullBerths t h slot (fun _ => true)

/-- Set the mark on every line of a berth that is not yet written, then its tag FULL with poisoned set (R377). -/
def State.poisonBerth (s : State) (t : ReqTag) (h b : Nat) : State :=
  let g := s.tag b
  let all := tagFull g
  let lines := linesOf (berthAddr b) 4096
  let s := s.modMem (fun m => lines.foldl (fun m l => if all || !Tab.get mark0 m.fresh l then m.mark l else m) m)
  (s.setFull t h b true).1

/-- The device-address runs that back a span of virtual addresses, leaf by leaf. -/
def State.leafRuns (s : State) (q : Fin 4) : Nat → Nat → Nat → List (Nat × Nat)
  | 0, _, _ => []
  | fuel + 1, va, len =>
    if len = 0 then []
    else match s.walk q va true with
      | .ok pa kind _ =>
        let size := match kind with | 0 => 0x1000 | 1 => 0x10000 | 2 => 0x200000 | _ => 0x40000000
        let n := min len (size - va % size)
        (pa, n) :: State.leafRuns s q fuel (va + n) (len - n)
      | .fault _ =>
        let n := min len (0x1000 - va % 0x1000)
        State.leafRuns s q fuel (va + n) (len - n)

/-- Mark the lines of a device-address run that the running stage has not written (R105). -/
def MemState.markRun (m : MemState) (a n : Nat) : MemState :=
  let lo := a / 64
  let hi := (a + n) / 64
  let kept := (m.fresh.filter (fun e => lo ≤ e.1 && e.1 < hi)).foldl (fun sp e => sp.flatMap (cutSpan e.1 (e.1 + 1))) [(lo, hi)]
  { m with spans := m.spans ++ kept }

/-- The outputs of a stage that ended with a status other than OK are poisoned (R105). -/
def State.poisonOutputs (s : State) (t : ReqTag) : State :=
  let x := s.quays[t.q]
  (x.stageE t.stage).outs.foldl (fun s h =>
    match x.handle? h with
    | none => s
    | some e =>
      if e.kind = 0 then
        (x.slotBerths h t.slot).foldl (fun s b => if s.isFullFor b t.frame then s else s.poisonBerth t h b) s
      else if e.kind = 1 then
        let runs := s.leafRuns t.q (e.length + 1) (e.slotBase x.fif t.slot) (e.slotBytes x.fif)
        runs.foldl (fun s r => s.modMem (fun m => m.markRun r.1 r.2)) s
      else s) s

/-- At dispatch, no line of the stage's HBM outputs has been written for the frame yet (R377). -/
def State.clearFresh (s : State) (t : ReqTag) : State :=
  let x := s.quays[t.q]
  (x.stageE t.stage).outs.foldl (fun s h =>
    match x.handle? h with
    | none => s
    | some e =>
      if e.kind = 1 then
        (s.leafRuns t.q (e.length + 1) (e.slotBase x.fif t.slot) (e.slotBytes x.fif)).foldl
          (fun s r => s.modMem (fun m => m.unfresh r.1 r.2)) s
      else s) s

/-- The slot offset of a descriptor's data: its base less the slot's device or virtual address; beyond every slot where the base lies
below it. -/
def State.dataOff (s : State) (q : Fin 4) (h slot : Nat) (d : Desc) : Nat :=
  let x := s.quays[q]
  match x.handle? h with
  | some e =>
    let b := if e.kind = 0 then berthAddr (e.slotBase x.fif slot) else e.slotBase x.fif slot
    if d.base < b then 2 ^ 48 else d.base - b
  | none => 0

/-- The address that a slot's own descriptors name: device address of a berth slot, virtual address otherwise (R175). -/
def State.slotAddr (s : State) (q : Fin 4) (h slot : Nat) : Nat :=
  let x := s.quays[q]
  match x.handle? h with
  | some e => if e.kind = 0 then berthAddr (e.slotBase x.fif slot) else e.slotBase x.fif slot
  | none => 0

end Sys2Proof.Machine
end

