-- ==== Sys2Proof/Machine/TenderOps.lean ====
section
/-! DEFINITION. Tender's channels: programming, triggers and blocks, the running check, and the four commands (R422-R439). The
commands that move data are in Machine/Tender.lean. -/
namespace Sys2Proof.Machine

/-- A channel. -/
def State.chan (s : State) (n : Nat) : TChan := s.tender.getD n TChan.reset

/-- Update a channel. -/
def State.modChan (s : State) (n : Nat) (f : TChan → TChan) : State := { s with tender := modAt s.tender n f }

/-- The quay that holds channel n (R424). -/
def State.chanOwner (s : State) (n : Nat) : Option (Fin 4) := s.ownerOf Cls.TENDER n

/-- How a channel moves its data: from CTRL, BLOCK and TRIG, or from a held channel's VISION entry. -/
structure ChanCfg where
  srcMode : Nat
  dstMode : Nat
  srcRing : Nat
  dstRing : Nat
  check : Nat
  keep : Bool
  store : Bool
  retry : Nat
  again : Bool
  block : Nat
  trig : Nat
  index : Nat
  deriving DecidableEq, Repr

/-- The VISION entry of a held channel (R438). -/
def Quay.chanEntry (x : Quay) (n : Nat) : Option (List Byte) :=
  match x.chart with
  | some c => (c.params.find? (fun p => match c.engines[p.engine]? with
      | some e => e.cls = Cls.TENDER && e.inst = n
      | none => false)).map (·.bytes)
  | none => none

/-- A channel's configuration. -/
def State.chanCfg (s : State) (n : Nat) : ChanCfg :=
  match s.chanOwner n with
  | some q =>
    let b := (s.quays[q].chanEntry n).getD []
    ⟨0, 0, 0, 0, leAt b 0x0A 1, false, bitOf (leAt b 0x18 1) 0, leAt b 0x0B 1, false, 0, 4, 0⟩
  | none =>
    let c := s.reg (Reg.TENDER_CH_CTRL n)
    let t := s.reg (Reg.TENDER_CH_TRIG n)
    ⟨fld c 1 0, fld c 3 2, fld c 8 4, fld c 13 9, fld c 15 14, flag c 16, flag c 17, fld c 20 18, flag c 21,
      (s.reg (Reg.TENDER_CH_BLOCK n)).toNat, fld t 2 0, fld t 7 3⟩

/-- The address of position j of a side (R425). -/
def sideAddr (mode ring addr j : Nat) : Nat :=
  match mode with
  | 1 => addr
  | 2 => let m := 2 ^ ring; addr / m * m + (addr % m + j) % m
  | _ => addr + j

/-- A fixed side lies in the control register range, word aligned, with COUNT a multiple of 4 (R425). -/
def fixedOk (mode addr count : Nat) : Bool :=
  mode ≠ 1 || (decide (regionOf addr = .control) && addr % 4 = 0 && count % 4 = 0)

/-- A ring side's size is in range (R427). -/
def ringOk (mode ring : Nat) : Bool := mode ≠ 2 || (6 ≤ ring && ring ≤ 24)

/-- The start command's check (R427). A mode of 3 is no mode of R425 and fails it. -/
def ChanCfg.ok (c : ChanCfg) (n src dst count : Nat) (held : Bool) : Bool :=
  count ≠ 0 && c.srcMode ≠ 3 && c.dstMode ≠ 3 && fixedOk c.srcMode src count && fixedOk c.dstMode dst count &&
    ringOk c.srcMode c.srcRing && ringOk c.dstMode c.dstRing && c.block ≤ count && c.trig ≤ 4 &&
    !(c.trig = 2 && c.index = n) && !(c.trig = 4 && !held) && (c.trig ≠ 1 || c.index < 8) && (c.trig ≠ 3 || c.index < 16)

/-- The check accumulator's start (R430). -/
def checkInit (check : Nat) : Nat := if check = 2 then 0xFFFFFFFF else 0

/-- Add bytes to the accumulator, `n` bytes already taken (R430). -/
def checkAdd (check acc n : Nat) (bs : List Byte) : Nat :=
  match check with
  | 1 => ((enum bs).foldl (fun a e => a + e.2.toNat * 256 ^ ((n + e.1) % 4)) acc) % 2 ^ 32
  | 2 => crcRun polyC acc bs
  | _ => acc

/-- The finished check value (R430). -/
def checkValue (check acc : Nat) : Nat := match check with | 1 => acc | 2 => acc ^^^ 0xFFFFFFFF | _ => 0

/-- The next line of a block: up to the next line of the destination, or one word on a fixed side. -/
def ChanCfg.lineLen (c : ChanCfg) (dst off limit : Nat) : Nat :=
  if c.srcMode = 1 ∨ c.dstMode = 1 then min 4 (limit - off)
  else
    let a := sideAddr c.dstMode c.dstRing dst off
    min (64 - a % 64) (limit - off)

/-- Issue reads while the channel's part of the staging buffer has a free line (R422). -/
def TChan.issue (cfg : ChanCfg) : Nat → TChan → TChan
  | 0, t => t
  | fuel + 1, t =>
    if t.issued < t.blockEnd ∧ t.lines.length < 32 then
      let n := cfg.lineLen t.dst t.issued t.blockEnd
      TChan.issue cfg fuel { t with lines := t.lines ++ [⟨t.issued, n, 0, false, none⟩], issued := t.issued + n }
    else t

/-- Begin the next block of an armed channel (R428). -/
def TChan.block (cfg : ChanCfg) (t : TChan) : TChan :=
  TChan.issue cfg 32 { t with
    st := .running
    blockEnd := if cfg.block = 0 then t.count else min (t.written + cfg.block) t.count }

/-- A trigger is lost (R429). -/
def State.trigLost (s : State) (n : Nat) : State :=
  (s.bump (Reg.TENDER_CH_TRIG_LOST_COUNT n)).setEvent (Reg.TENDER_CH_EVENT n) 8

/-- A trigger arrives at a channel (R429). -/
def State.trigger (s : State) (n : Nat) : State :=
  let t := s.chan n
  match t.st with
  | .armed => s.modChan n (TChan.block (s.chanCfg n))
  | .running => if t.trig then s.trigLost n else s.modChan n (fun t => { t with trig := true })
  | .pausing => if t.trig then s.trigLost n else s.modChan n (fun t => { t with trig := true })
  | .paused => if t.trig then s.trigLost n else s.modChan n (fun t => { t with trig := true })
  | .idle => s.trigLost n
  | .halted => s.trigLost n
  | .halting => s.trigLost n
  | .aborting => s.trigLost n

/-- An armed channel whose next block follows at once: a software source, or a pending trigger (R428, R429). -/
def TChan.followOn (cfg : ChanCfg) (t : TChan) : TChan :=
  if t.st ≠ .armed then t
  else if cfg.trig = 0 then t.block cfg
  else if t.trig then ({ t with trig := false } : TChan).block cfg
  else t

/-- Arm a channel with a transfer (R428, R430). -/
def TChan.arm (cfg : ChanCfg) (src dst count : Nat) (tag : Option ReqTag) (t : TChan) : TChan :=
  { t with
    st := .armed, trig := false, src := src, dst := dst, count := count, issued := 0, written := 0, blockEnd := 0, lines := [],
    early := [], stored := false, haltCode := 0#8, failOff := 0, cut := false, tag := tag,
    poison := false
    acc := if cfg.keep then t.acc else checkInit cfg.check
    accBytes := if cfg.keep then t.accBytes else 0 }

/-- A command's rejection with BAD_STATE (R435). -/
def State.chanBadState (s : State) (n : Nat) : State :=
  (((s.bump Reg.TENDER_BAD_STATE_COUNT).modChan n (fun t => { t with cmdStatus := St.BAD_STATE })).answer St.BAD_STATE)

/-- A command is accepted: cmd_status records OK. -/
def State.chanOk (s : State) (n : Nat) : State := (s.modChan n (fun t => { t with cmdStatus := St.OK })).answer St.OK

/-- A write to a held channel's CMD or programming registers is ignored and counted (R424). -/
def State.chanIgnored (s : State) (a : Nat) : State := (s.ignoredWrite a).answer St.OK

/-- start (R427, R428, R435). -/
def State.chanStart (s : State) (n : Nat) : State :=
  if (s.chanOwner n).isSome then s.chanIgnored (Reg.TENDER_CH_CMD n)
  else
    let t := s.chan n
    if t.st ≠ .idle ∧ t.st ≠ .halted then s.chanBadState n
    else
      let cfg := s.chanCfg n
      let src := s.addr48 (Reg.TENDER_CH_SRC_LO n)
      let dst := s.addr48 (Reg.TENDER_CH_DST_LO n)
      let count := (s.reg (Reg.TENDER_CH_COUNT n)).toNat
      if !cfg.ok n src dst count false then
        (s.modChan n (fun t => { t with cmdStatus := St.REFUSED })).answer St.REFUSED
      else (s.modChan n (fun t => (t.arm cfg src dst count none).followOn cfg)).chanOk n

/-- Lines whose data have been read, which a pause still lets write (R436). -/
def TChan.readLines (t : TChan) : List TLine := t.lines.filter (fun l => l.data.isSome)

/-- Lines whose write is under way: what an abort or a halt waits for, reissuing nothing (R433, R435). -/
def TChan.flying (t : TChan) : List TLine := t.lines.filter (fun l => l.data.isSome && !l.waiting)

/-- pause (R435, R436). -/
def State.chanPause (s : State) (n : Nat) : State :=
  if (s.chanOwner n).isSome then s.chanIgnored (Reg.TENDER_CH_CMD n)
  else match (s.chan n).st with
    | .armed => (s.modChan n (fun t => { t with st := .paused, cut := false })).chanOk n
    | .running => (s.modChan n (fun t => { t with st := .pausing, lines := t.readLines })).chanOk n
    | _ => s.chanBadState n

/-- After a line, a running channel whose block is written: the next block may follow, and at the end of the data the check value is
issued as one more write (R428, R431). -/
def TChan.settle (cfg : ChanCfg) (t : TChan) : TChan :=
  if t.st ≠ .running ∨ t.lines ≠ [] ∨ t.written < t.blockEnd then t
  else if t.written < t.count then ({ t with st := .armed } : TChan).followOn cfg
  else if cfg.store && !t.stored then { t with lines := [⟨t.count, 4, 0, false, some (natLE 4 (checkValue cfg.check t.acc), false)⟩] }
  else t

/-- Continue a transfer from its first byte not yet written (R436). -/
def TChan.continue (cfg : ChanCfg) (t : TChan) : TChan :=
  (TChan.issue cfg 32 { t with st := .running, issued := t.written, lines := [], early := [], cut := false }).settle cfg

/-- resume (R435). -/
def State.chanResume (s : State) (n : Nat) : State :=
  if (s.chanOwner n).isSome then s.chanIgnored (Reg.TENDER_CH_CMD n)
  else match (s.chan n).st with
    | .paused =>
      (s.modChan n (fun t => if t.cut then t.continue (s.chanCfg n)
        else ({ t with st := .armed } : TChan).followOn (s.chanCfg n))).chanOk n
    | .halted => (s.modChan n (fun t => t.continue (s.chanCfg n))).chanOk n
    | _ => s.chanBadState n

/-- The channel stops with ABORTED (R435). -/
def State.chanAborted (s : State) (n : Nat) : State :=
  (s.modChan n (fun t => { t with st := .idle, lastStatus := St.ABORTED, lines := [], trig := false, tag := none })).setEvent
    (Reg.TENDER_CH_EVENT n) 16

/-- Stop a channel's issue (R435, R439): ABORTING while writes are outstanding. -/
def State.chanStop (s : State) (n : Nat) : State :=
  match (s.chan n).st with
  | .idle => s
  | .aborting => s
  | .armed => s.chanAborted n
  | .paused => s.chanAborted n
  | .halted => s.chanAborted n
  | _ => s.modChan n (fun t => { t with st := .aborting, lines := t.flying })

/-- abort (R435). -/
def State.chanAbort (s : State) (n : Nat) : State :=
  if (s.chanOwner n).isSome then s.chanIgnored (Reg.TENDER_CH_CMD n)
  else match (s.chan n).st with
    | .idle => s.chanBadState n
    | .aborting => s.chanBadState n
    | _ => (s.chanStop n).chanOk n

/-- Dispatch of a held channel's stage arms the channel and triggers its one block (R428, R439). -/
def State.chanDispatch (s : State) (n : Nat) (t : ReqTag) : State :=
  let b := (s.quays[t.q].chanEntry n).getD []
  let cfg := s.chanCfg n
  let s := if (s.chan n).st = .aborting then s.chanAborted n else s
  (s.modChan n (fun c => c.arm cfg (leAt b 0x0C 4) (leAt b 0x10 4) (leAt b 0x14 4) (some t))).trigger n

/-- Positions of CUR_SRC, CUR_DST and REMAIN: the first byte not yet written, or the failing line of a halted channel. -/
def TChan.at' (t : TChan) : Nat := if t.st = .halted then t.failOff else t.written

end Sys2Proof.Machine
end

