-- ==== Sys2Proof/Machine/EndStage.lean ====
section
/-! DEFINITION. The end of a stage: its engine's registers, its poisoned outputs and fault entry (R104-R106), and the payload of
its result (R90). -/
namespace Sys2Proof.Machine

/-- The compute die of an engine instance (R27). -/
def engineDie (cls inst : Nat) : Nat :=
  match cls with
  | 11 => inst / 6
  | 9 => 1
  | 10 => 0
  | _ => inst

/-- The core clock of a compute die in MHz now; during a change the lower of the two frequencies (R542). -/
def State.coreMhz (s : State) (d : Nat) : Nat :=
  match s.pmc.changing.getD d none with
  | some (a, b) => min a b
  | none => s.pmc.core.getD d 900

/-- Core cycles of a die in an interval of harbour time. -/
def State.cyclesSince (s : State) (die since : Nat) : Nat := (s.time.now - since) * s.coreMhz die / 1000

/-- A drawn number at most `n`: a count that the spec bounds and does not give (log entry 11). -/
def State.drawUpTo (s : State) (n : Nat) : Nat × State :=
  let (v, s) := s.draw
  (v % (n + 1), s)

/-- The registers of a vision class whose jobs end: busy, stall, job count, shape count, last job and event register. -/
structure JobRegs where
  busy : Nat
  stall : Nat
  jobs : Nat
  shape : Nat
  last : Nat
  event : Nat
  deriving DecidableEq, Repr

/-- The job registers of an instance (R219, R220, R243, R244, R267). -/
def jobRegs (cls i : Nat) : Option JobRegs :=
  match cls with
  | 3 => some ⟨Reg.PYR_BUSY_CLOCKS i, Reg.PYR_STALL_CLOCKS i, Reg.PYR_JOB_COUNT i, Reg.PYR_SHAPE_COUNT i, Reg.PYR_LAST_JOB i, Reg.PYR_EVENT i⟩
  | 4 => some ⟨Reg.WARP_BUSY_CLOCKS i, Reg.WARP_STALL_CLOCKS i, Reg.WARP_JOB_COUNT i, Reg.WARP_SHAPE_COUNT i, Reg.WARP_LAST_JOB i, Reg.WARP_EVENT i⟩
  | 5 => some ⟨Reg.STEREO_BUSY_CLOCKS i, Reg.STEREO_STALL_CLOCKS i, Reg.STEREO_JOB_COUNT i, Reg.STEREO_SHAPE_COUNT i, Reg.STEREO_LAST_JOB i, Reg.STEREO_EVENT i⟩
  | 6 => some ⟨Reg.FLOW_BUSY_CLOCKS i, Reg.FLOW_STALL_CLOCKS i, Reg.FLOW_JOB_COUNT i, Reg.FLOW_SHAPE_COUNT i, Reg.FLOW_LAST_JOB i, Reg.FLOW_EVENT i⟩
  | 7 => some ⟨Reg.FEAT_BUSY_CLOCKS i, Reg.FEAT_STALL_CLOCKS i, Reg.FEAT_JOB_COUNT i, Reg.FEAT_SHAPE_COUNT i, Reg.FEAT_LAST_JOB i, Reg.FEAT_EVENT i⟩
  | _ => none

/-- The value of a LAST_JOB register. -/
def lastJob (stage : Nat) (status : Status) : Nat := stage % 65536 + status.toNat * 65536

/-- The registers that the end of a job or stage updates on its instance: counts, last job, events and busy clocks. -/
def State.engineEnded (s : State) (cls i stage : Nat) (status : Status) (startedAt : Nat) : State :=
  let busy := s.cyclesSince (engineDie cls i) startedAt
  match jobRegs cls i with
  | some r =>
    let (stall, s) := s.drawUpTo busy
    let s := ((((s.wrapBy r.busy busy).wrapBy r.stall stall).bump r.jobs)).put r.last (lastJob stage status)
    let s := if status = 0x80#8 then s.bump r.shape else s
    let s := if cls = 6 ∧ status = 0x82#8 then s.bump (Reg.FLOW_NO_HISTORY_COUNT i) else s
    s.setEvent r.event (bitAt (decide (status = 0x80#8)) 0 + bitAt (decide (status = St.POISON)) 1 +
      bitAt (decide (status = St.STALE_TIDE)) 2 + bitAt (decide (status = St.TIMEOUT)) 3 +
      bitAt (decide (cls = 6 ∧ status = 0x82#8)) 4)
  | none =>
    if cls = Cls.SND then
      let s := ((s.wrapBy Reg.SND_BUSY_CLOCKS busy).bump Reg.SND_JOB_COUNT).put Reg.SND_LAST_JOB (lastJob stage status)
      let s := if status = 0x81#8 ∨ status = 0x82#8 ∨ status = 0x83#8 then s.bump Reg.SND_SKIP_JOB_COUNT else s
      s.setEvent Reg.SND_EVENT (bitAt (decide (status = 0x81#8)) 2 + bitAt (decide (status = 0x83#8)) 3 +
        bitAt (decide (status = St.TIMEOUT)) 5 + bitAt (decide (status = 0x82#8)) 6)
    else if cls = Cls.ELV then
      let (b, s) := s.drawUpTo busy
      let (stall, s) := s.drawUpTo busy
      ((((s.wrapBy (Reg.ELV_BUSY_CLOCKS i) b).wrapBy (Reg.ELV_STALL_CLOCKS i) stall).put (Reg.ELV_LAST_JOB i) (lastJob stage status)).setEvent
        (Reg.ELV_EVENT i) (bitAt (decide (status = 0x81#8)) 0 + bitAt (decide (status = St.POISON)) 1 +
          bitAt (decide (status = St.STALE_TIDE)) 2 + bitAt (decide (status = St.TIMEOUT)) 3 + bitAt (decide (status = 0x80#8)) 6))
    else if cls = Cls.LAYOUT then
      let (b, s) := s.drawUpTo busy
      let (stall, s) := s.drawUpTo busy
      ((((s.wrapBy (Reg.LAYOUT_BUSY_CLOCKS i) b).wrapBy (Reg.LAYOUT_STALL_CLOCKS i) stall).put (Reg.LAYOUT_LAST_JOB i) (lastJob stage status)).setEvent
        (Reg.LAYOUT_EVENT i) (bitAt (decide (status = 0x81#8)) 0 + bitAt (decide (status = St.POISON)) 1 +
          bitAt (decide (status = St.STALE_TIDE)) 2 + bitAt (decide (status = St.TIMEOUT)) 3 + bitAt (decide (status = 0x80#8)) 4))
    else s

/-- The lowest-numbered status that applies, OK when none does (R24). -/
def worst (xs : List Status) : Status :=
  (xs.filter (fun x => x ≠ St.OK ∧ x ≠ St.CLAMPED)).foldl (fun a x => if a = St.OK ∨ x.toNat < a.toNat then x else a) St.OK

/-- Address, length and CRC of a stage's result (R90). -/
structure Payload where
  tensor : Nat
  length : Nat
  crc : Option Nat
  /-- A poisoned line lies in it. -/
  bad : Bool
  deriving DecidableEq, Repr

/-- A result without payload. -/
def Payload.none : Payload := ⟨0, 0, Option.none, false⟩

/-- The payload of a stage that ended with a status (R90): the head of its first output and the run its descriptor spans. -/
def State.payload (s : State) (t : ReqTag) (status : Status) : Payload :=
  let x := s.quays[t.q]
  let e := x.stageE t.stage
  match e.outs.head? with
  | none => Payload.none
  | some h =>
    if status ≠ St.OK ∧ status ≠ St.POISON ∧ status ≠ St.OOB then Payload.none
    else
      match s.locate t.q h t.slot 0 false with
      | .at pa =>
        let (d, _) := descAt (s.srcOf t h t.slot) 0
        let (a, n) := d.byteSpan
        if n = 0 then ⟨pa, 0, none, false⟩
        else
          let o := ((s.dataOff t.q h t.slot d : Int) + (a - (d.base : Int))).toNat
          let src := s.srcOf t h t.slot
          let bs := (List.range n).map (fun i => src (o + i))
          let crc := if e.crc && !bs.any (·.2) then some (crc32c (bs.map (·.1))) else none
          ⟨pa, n, crc, bs.any (·.2)⟩
      | _ => Payload.none

/-- What a stage leaves behind in its engine, the memory system and its channel when it ends or is squashed (R104, R111, R372). -/
def State.dropWork (s : State) (q : Fin 4) (n : FrameNo) (i : Nat) : State :=
  let mine := fun (t : ReqTag) => t.quay = q.val && t.frame = n && t.stage = i
  let s := s.modMem (fun m => { m with
    heldReads := m.heldReads.filter (fun r => !mine r.tag)
    delivered := m.delivered.filter (fun r => !mine r.tag)
    drlWait := m.drlWait.filter (fun w => match w with | .mem r => !mine r.tag | .berth r => !mine r.tag | .fleet _ _ _ => true)
    walks := m.walks.filter (fun r => !mine r.tag) })
  let run := fun (r : ProgRun) => r.quay = q.val && r.frame = n && r.idx = i
  let mapping := s.vis.any (fun v => v.cls = Cls.SND && v.quay = q.val && v.frame = n && v.idx = i)
  let s := if mapping then ({ s with snd := { s.snd with done := none } } : State).wrapBy Reg.SND_MAP_GEN 1 else s
  { s with
    vis := s.vis.filter (fun v => !(v.quay = q.val && v.frame = n && v.idx = i))
    prog := { s.prog with
      elv := s.prog.elv.map (fun rs => rs.filter (fun r => !run r))
      xfers := (enum s.prog.xfers).map (fun e =>
        if (s.prog.elv.getD e.1 []).any run then e.2.filter (fun x => !(x.frame = n && x.idx = i)) else e.2)
      lay := s.prog.lay.map (fun rs => rs.filter (fun r => !run r)) } }

/-- The parameter entry of an engine instance of a quay's chart, as applied (R59). -/
def Quay.paramOf (x : Quay) (cls inst : Nat) : Option (List Byte) :=
  match x.chart with
  | none => none
  | some c => (c.params.find? (fun p => match c.engines[p.engine]? with
      | some g => g.cls = cls && g.inst = inst
      | none => false)).map (·.bytes)

/-- First job record and record size of a class's entry (R216, R234, R266, R287). -/
def jobLayout (cls : Nat) : Nat × Nat :=
  match cls with
  | 4 => (0x10, 128)
  | 9 => (0x50, 64)
  | _ => (0x10, 64)

/-- The job record of STAGES entry i: its index in the entry and its bytes (R194). -/
def Quay.jobOf (x : Quay) (i : Nat) : Option (Nat × List Byte) :=
  let e := x.engineE i
  let id := (x.stageE i).stage
  match x.paramOf e.cls e.inst with
  | none => none
  | some bs =>
    let (o, n) := jobLayout e.cls
    ((List.range (leAt bs 8 1)).map (fun k => (k, slice bs (o + n * k) n))).find? (fun r => leAt r.2 0 2 = id)

/-- A FEAT job's frame tag becomes void in the blocks of its pool (R263). -/
def State.voidPool (s : State) (q : Fin 4) (n : FrameNo) (i : Nat) : State :=
  match s.quays[q].jobOf i with
  | none => s
  | some (_, b) => { s with ledger := ((⟨b⟩ : FeatJob).pool).foldl (fun l k => l.voidTag k n.toNat) s.ledger }

/-- A stage of a frame ends with a status (R104-R106, R90). -/
def State.endStage (s : State) (q : Fin 4) (n : FrameNo) (i : Nat) (status : Status) : State :=
  match s.quays[q].frame? n, s.stageRun? q n i with
  | some f, some r =>
    if r.status.isSome then s
    else
      let x := s.quays[q]
      let e := x.engineE i
      let id := (x.stageE i).stage
      let t := s.tagFor q f i
      let s := if r.running then s.engineEnded e.cls e.inst id status r.startedAt else s
      let s := if status = St.OK then s else (s.poisonOutputs t).pushFault q id status n
      let s := if e.cls = Cls.FEAT ∧ status ≠ St.OK then s.voidPool q n i else s
      let p := s.payload t status
      let s := s.dropWork q n i
      let s := s.modStage q n i (fun r => { r with dispatched := true, held := false, status := some status })
      let s := if !(x.stageE i).result then s
        else s.modQuay q (fun x => x.modFrame n (fun f => { f with
          results := f.results ++ [⟨i, status, p.tensor, p.length, p.crc, r.request, p.bad, false⟩] }))
      let s := if r.request.isSome ∧ s.salv[q].replay = r.request then s.replayEnded q (!r.closed) else s
      s.progress q
  | _, _ => s

end Sys2Proof.Machine
end

