-- ==== Sys2Proof/Machine/CgOps.lean ====
section
/-! DEFINITION. Service codes (R550), Lighthouse verdicts and fences (R481, R483), and the coverage of results (R482). -/
namespace Sys2Proof.Machine

/-- SERVICE_REQ_N follows the set of active codes; a change of its level is an event (R550, R552). -/
def State.serviceLevel (s : State) (was : Word) : State :=
  let now := s.reg Reg.PMC_SERVICE_ACTIVE
  if (was = 0#32) = (now = 0#32) then s
  else ((s.emit (.pin "SERVICE_REQ_N" (decide (now = 0#32)))).raiseMsi 47).setEvent Reg.PMC_EVENT 8

/-- Raise a service code: condition codes 0x04, 0x05 and 0x0A are active only, the others also latched (R550). -/
def State.service (s : State) (code : Nat) : State :=
  let was := s.reg Reg.PMC_SERVICE_ACTIVE
  let bit := w32 (2 ^ code)
  let last := s.reg Reg.PMC_SERVICE_LAST
  let s := s.setReg Reg.PMC_SERVICE_ACTIVE (was ||| bit)
  let s := if code = 4 ∨ code = 5 ∨ code = 0x0A then s
    else s.setReg Reg.PMC_SERVICE_LATCHED (s.reg Reg.PMC_SERVICE_LATCHED ||| bit)
  let s := s.put Reg.PMC_SERVICE_LAST (code + 256 * min (fld last 31 8 + 1) 0xFFFFFF)
  s.serviceLevel was

/-- A service code is no longer active. -/
def State.serviceEnd (s : State) (code : Nat) : State :=
  let was := s.reg Reg.PMC_SERVICE_ACTIVE
  (s.setReg Reg.PMC_SERVICE_ACTIVE (was &&& ~~~(w32 (2 ^ code)))).serviceLevel was

/-- Lighthouse slot j. -/
def State.lh (s : State) (j : Nat) : LhSlot := s.cg.slots.getD j LhSlot.reset

/-- The instance is fenced (R483). -/
def State.isFenced (s : State) (cls inst : Nat) : Bool :=
  match lhSlot cls inst with
  | some j => (s.lh j).fenced
  | none => false

/-- An instance's outcome in a frame, from the outcome of its runs so far and a new verdict (R481). -/
def joinVerdict (a b : Nat) : Nat := if a = 2 ∨ b = 2 then 2 else if a = 3 ∨ b = 3 then 3 else 1

/-- A FAIL in frame n fences: the frame before failed too, or it is the third FAIL within fewer than 1,000 frames (R483). -/
def LhSlot.fences (l : LhSlot) (n : FrameNo) : Bool :=
  l.fails.elem (n - 1#32) ||
    (match (l.fails.filter (fun f => f ≠ n))[1]? with
     | some f => decide ((n - f).toNat < 1000)
     | none => false)

/-- A verdict reaches the Harbourmaster and the decision unit (R481, R483): 1 PASS, 2 FAIL, 3 UNLIT. -/
def State.verdict (s : State) (j : Nat) (n : FrameNo) (v : Nat) : State :=
  let l := s.lh j
  let old := l.outcome n
  let v' := if l.fenced then 2 else if old = 0 then v else joinVerdict old v
  let outs := ((n, v') :: l.outs.filter (fun e => e.1 ≠ n)).take 5
  let fence := decide (v = 2) && !l.fenced && l.fences n
  let l' : LhSlot := {
    outs := outs
    fails := if v = 2 then (n :: l.fails.filter (fun f => f ≠ n)).take 3 else l.fails
    fenced := l.fenced || fence }
  let s := { s with cg := { s.cg with slots := setAt s.cg.slots j l' } }
  let s := if v = 2 then (s.bump (Reg.CG_LH_FAIL_COUNT j)).cgSignal Cause.LIGHTHOUSE_FAIL n else s
  let s := if v = 3 then s.bump (Reg.CG_LH_UNLIT_COUNT j) else s
  let s := if v = 1 ∧ l.fails.elem (n - 1#32) then s.bump (Reg.CG_LH_TRANSIENT_COUNT j) else s
  if fence then (s.cgSignal Cause.FENCE n).service 3 else s

/-- Stages from which stage i reads a handle, transitively, i included; previous-frame inputs among them if `prev` (R482). -/
def Chart.upstream (c : Chart) (prev : Bool) : Nat → List Nat → List Nat
  | 0, seen => seen
  | fuel + 1, seen =>
    let next := seen.flatMap (fun i => ((c.stageAt i).ins.zipIdx.filter (fun e => prev || !c.isPrev i e.2)).flatMap (fun e => c.producers e.1))
    let new := dedup (next.filter (fun j => !seen.elem j))
    if new.isEmpty then seen else Chart.upstream c prev fuel (seen ++ new)

/-- The safety path of a stage, as Lighthouse slots (R482). -/
def Chart.safetyPath (c : Chart) (i : Nat) : List Nat :=
  dedup ((c.upstream true c.stages.length [i]).filterMap (fun k =>
    let e := c.stageEngine k
    if e.safety then lhSlot e.cls e.inst else none))

/-- Slots that the chart's LIGHTHOUSE entries name. -/
def Chart.lightSlots (c : Chart) : List Nat :=
  dedup (c.lights.filterMap (fun l => let e := c.engineAt l.engine; lhSlot e.cls e.inst))

/-- The result of stage i of frame n is covered (R482). -/
def State.covered (s : State) (c : Chart) (i : Nat) (n : FrameNo) (first : Bool) : Bool :=
  (c.safetyPath i).all (fun j => (s.lh j).outcome n = 1 || (!first && (s.lh j).outcome (n - 1#32) = 1)) &&
    c.lightSlots.all (fun j => (s.lh j).outcome n ≠ 2)

end Sys2Proof.Machine
end

