-- ==== Sys2Proof/Machine/Programs.lean ====
section
/-! DEFINITION. Tensor and layout programs as they lie in memory (R305-R308, R361), and the checks of START: program digests
(R74), programs and tile needs (R306), and Lighthouse headers (R478, R479). -/
namespace Sys2Proof.Machine

/-- Bytes [off, off + n) of frame slot 0 of a handle, zero where nothing can be read. -/
def State.handleBytes (s : State) (q : Fin 4) (h off n : Nat) : List Byte :=
  (pageStarts off n).flatMap (fun o =>
    let m := min (off + n) ((o / 4096 + 1) * 4096) - o
    match s.locate q h 0 o false with
    | .at pa => s.bytesAt pa m
    | _ => List.replicate m 0#8)

/-- The TENSOR entries of a chart with their indices (R59). -/
def Chart.tensorEntries (c : Chart) : List (Nat × ParamE) := enum (c.params.filter (fun p => p.sec = 0x0C))

/-- Handle, length and digest of a TENSOR entry (R59). -/
def ParamE.program (p : ParamE) : Nat := leAt p.bytes 8 2
def ParamE.progLength (p : ParamE) : Nat := leAt p.bytes 0x0C 4
def ParamE.progDigest (p : ParamE) : List Byte := slice p.bytes 0x10 64

/-- A 32-byte stage-table entry (R305). -/
structure ProgStage where
  bytes : List Byte
  deriving DecidableEq, Repr

def ProgStage.stage (p : ProgStage) : Nat := leAt p.bytes 0 2
def ProgStage.voyage (p : ProgStage) : Nat := leAt p.bytes 2 2
def ProgStage.flags (p : ProgStage) : Nat := leAt p.bytes 4 1
def ProgStage.isChain (p : ProgStage) : Bool := bitOf p.flags 0
def ProgStage.isRequest (p : ProgStage) : Bool := bitOf p.flags 1
def ProgStage.layers (p : ProgStage) : Nat := leAt p.bytes 6 2
def ProgStage.first (p : ProgStage) : Nat := leAt p.bytes 8 4
def ProgStage.cmds (p : ProgStage) : Nat := leAt p.bytes 0x0C 4
def ProgStage.tileBase (p : ProgStage) : Nat := leAt p.bytes 0x10 4
def ProgStage.tileBytes (p : ProgStage) : Nat := leAt p.bytes 0x14 4
def ProgStage.chainBytes (p : ProgStage) : Nat := leAt p.bytes 0x18 4
def ProgStage.chainSrc (p : ProgStage) : Nat := leAt p.bytes 0x1C 2

/-- A program's header and stage table, at a byte offset of a handle (R305; a golden program lies within its part, R478). -/
structure Prog where
  handle : Nat
  at' : Nat
  header : List Byte
  table : List ProgStage
  deriving DecidableEq, Repr

def Prog.stages (p : Prog) : Nat := leAt p.header 5 1
def Prog.descCount (p : Prog) : Nat := leAt p.header 8 2
def Prog.descOffset (p : Prog) : Nat := leAt p.header 0x0C 4
def Prog.cmdOffset (p : Prog) : Nat := leAt p.header 0x10 4
def Prog.cmdCount (p : Prog) : Nat := leAt p.header 0x14 4

/-- Read a program's header and stage table. -/
def State.progAt (s : State) (q : Fin 4) (h off : Nat) : Prog :=
  let header := s.handleBytes q h off 64
  let n := min 8 (leAt header 5 1)
  ⟨h, off, header, (List.range n).map (fun k => ⟨s.handleBytes q h (off + 0x40 + 32 * k) 32⟩)⟩

/-- Command `i` of a program (R308). -/
def State.progCmd (s : State) (q : Fin 4) (p : Prog) (i : Nat) : TCmd :=
  ⟨s.handleBytes q p.handle (p.at' + p.cmdOffset + 64 * i) 64⟩

/-- Descriptor `i` of a program's table; the core substitutes the quay and tide of its latch (R307). -/
def State.progDesc (s : State) (q : Fin 4) (p : Prog) (i : Nat) : Desc :=
  Desc.ofBytes (s.handleBytes q p.handle (p.at' + p.descOffset + 128 * i) 128)

/-- The program of a quay's ELV or LAYOUT instance. -/
def State.programOf (s : State) (q : Fin 4) (cls inst : Nat) : Option Prog :=
  match s.quays[q].chart with
  | none => none
  | some c => (c.tensorEntries.find? (fun e => match c.engines[e.2.engine]? with
      | some g => g.cls = cls && g.inst = inst
      | none => false)).map (fun e => s.progAt q e.2.program 0)

/-- The stage-table entry of a stage id. -/
def Prog.entryOf (p : Prog) (stage : Nat) : Option ProgStage := p.table.find? (fun e => e.stage = stage)

/-- The stage-table entry of STAGES entry i, for a stage bound to an ELV or LAYOUT instance. -/
def State.progStage (s : State) (q : Fin 4) (i : Nat) : Option ProgStage :=
  let e := s.quays[q].engineE i
  if e.cls = Cls.ELV ∨ e.cls = Cls.LAYOUT then
    match s.programOf q e.cls e.inst with
    | some p => p.entryOf (s.quays[q].stageE i).stage
    | none => none
  else none

/-- Stage i of the quay is request-driven (R305). -/
def State.requestDriven (s : State) (q : Fin 4) (i : Nat) : Bool :=
  match s.progStage q i with
  | some e => e.isRequest
  | none => false

/-! The checks of R306. -/

/-- Magic of a program of a class. -/
def progMagic (cls : Nat) : List Byte :=
  if cls = Cls.LAYOUT then [0x4C#8, 0x41#8, 0x59#8, 0x50#8] else [0x45#8, 0x4C#8, 0x56#8, 0x50#8]

/-- Byte offsets of the header fields out of range (R305). -/
def Prog.headerFaults (p : Prog) (cls : Nat) : List Nat :=
  let h := p.header
  let put := fun (o : Nat) (ok : Bool) => if ok then [] else [o]
  put 0 (slice h 0 4 = progMagic cls) ++ put 4 (leAt h 4 1 = 1) ++ put 5 (1 ≤ p.stages && p.stages ≤ 8) ++ put 6 (leAt h 6 2 = 0) ++
    put 8 (p.descCount ≤ 4096) ++ put 0x0A (leAt h 0x0A 2 = 0) ++ put 0x0C (p.descOffset % 128 = 0) ++
    put 0x10 (p.cmdOffset % 64 = 0) ++ put 0x14 (1 ≤ p.cmdCount && p.cmdCount ≤ 1048576) ++ put 0x18 (leAt h 0x18 40 = 0)

/-- What the ranges of a stage-table entry depend on. -/
structure ProgCtx where
  cls : Nat
  /-- Stage ids bound to the instance. -/
  bound : List Nat
  voyages : Nat
  piloted : Bool
  /-- Handles of kind HBM region. -/
  regions : List Nat
  deriving DecidableEq, Repr

/-- Offsets within the entry of the fields out of range (R305, R306, R361): `lastOp` is the opcode of the last command of its
range, `earlier` the stages of earlier entries, `ranges` their tile ranges. A golden program's entry is stage 0xFFFF (R478). -/
def ProgStage.faults (e : ProgStage) (c : ProgCtx) (cmdCount lastOp : Nat) (earlier : List Nat) (ranges : List (Nat × Nat)) : List Nat :=
  let put := fun (o : Nat) (ok : Bool) => if ok then [] else [o]
  let lay := decide (c.cls = Cls.LAYOUT)
  let inRange := decide (e.first + e.cmds ≤ cmdCount ∧ e.first < cmdCount)
  let tile := if lay then decide (e.tileBytes = 0)
    else decide (64 ≤ e.tileBytes ∧ e.tileBytes % 64 = 0 ∧ e.tileBase + e.tileBytes ≤ 2097152)
  let clear := ranges.all (fun r => e.tileBase + e.tileBytes ≤ r.1 || r.1 + r.2 ≤ e.tileBase)
  put 0 (c.bound.elem e.stage && !earlier.elem e.stage) ++ put 2 (e.voyage < c.voyages) ++
    put 4 (e.flags < 4 && !(lay && e.isChain) && !(e.isRequest && !c.piloted)) ++ put 5 (leAt e.bytes 5 1 = 0) ++
    put 6 (e.layers ≠ 0) ++ put 8 (decide (e.first < cmdCount)) ++
    put 0x0C (e.cmds ≠ 0 && (!decide (e.first < cmdCount) || (inRange && lastOp = 0x0A))) ++
    put 0x10 (if lay then e.tileBase = 0 else e.tileBase % 64 = 0 && clear) ++ put 0x14 tile ++
    put 0x18 (if e.isChain && !lay then e.chainBytes ≤ e.tileBytes else e.chainBytes = 0) ++
    put 0x1C (if e.isChain && !lay then c.regions.elem e.chainSrc else e.chainSrc = 0xFFFF) ++ put 0x1E (leAt e.bytes 0x1E 2 = 0)

/-- Faults of the entries of a stage table, as byte offsets in the program. Ranges that overlap are a fault of the later entry
while the need fits; a need that does not fit ends START with NO_ROOM instead (R306). -/
def State.tableFaults (s : State) (q : Fin 4) (p : Prog) (c : ProgCtx) (fits : Bool) : Nat → List ProgStage → List Nat → List (Nat × Nat) → List Nat
  | _, [], _, _ => []
  | k, e :: es, seen, ranges =>
    let lastOp := (s.progCmd q p (e.first + e.cmds - 1)).op
    ((e.faults c p.cmdCount lastOp seen (if fits then ranges else [])).map (· + (0x40 + 32 * k))) ++
      State.tableFaults s q p c fits (k + 1) es (seen ++ [e.stage]) (ranges ++ [(e.tileBase, e.tileBytes)])

/-- The context of an instance's program. -/
def Chart.progCtx (c : Chart) (cls inst : Nat) : ProgCtx :=
  { cls := cls
    bound := (c.allStages.filter (fun i => (c.stageEngine i).cls = cls && (c.stageEngine i).inst = inst)).map (fun i => (c.stageAt i).stage)
    voyages := c.cfg.voyages
    piloted := c.cfg.piloted
    regions := (c.handles.filter (fun h => h.kind = 1)).map (·.handle) }

/-- The golden programs of an instance (R478): entry index, offset of part 0 and program. -/
def State.goldens (s : State) (q : Fin 4) (c : Chart) (cls inst : Nat) : List (Nat × Prog) :=
  if cls ≠ Cls.ELV ∧ cls ≠ Cls.LAYOUT then []
  else ((enum c.lights).filter (fun l => let g := c.engineAt l.2.engine; g.cls = cls && g.inst = inst)).map (fun l =>
    (l.1, s.progAt q l.2.input (leAt (s.handleBytes q l.2.input 0 64) 0x08 4)))

/-- One FIELD entry of the START report. -/
def fieldRep (sec id off : Nat) : RepEntry := ⟨sec, Why.FIELD, id, off, 0⟩

/-- Faults of one instance's program and of its golden programs (R306, R478). -/
def State.programFaults (s : State) (q : Fin 4) (c : Chart) (fits : Bool) (ti : Nat) (t : ParamE) : List RepEntry :=
  let g := c.engineAt t.engine
  let p := s.progAt q t.program 0
  let cx := c.progCtx g.cls g.inst
  let table := if 1 ≤ p.stages ∧ p.stages ≤ 8 then p.table else []
  let absent := cx.bound.any (fun id => !table.any (fun e => e.stage = id)) && decide (1 ≤ p.stages ∧ p.stages ≤ 8)
  let own := p.headerFaults g.cls ++ s.tableFaults q p cx fits 0 table [] [] ++ (if absent then [5] else [])
  let ranges := table.map (fun e => (e.tileBase, e.tileBytes))
  let gold := (s.goldens q c g.cls g.inst).flatMap (fun e =>
    let gc := { cx with bound := [0xFFFF], piloted := false }
    let es := e.2.table.take 1
    let one : List Nat := if e.2.stages = 1 then [] else [5]
    let chain := if es.any (fun x => x.isChain) then [0x44] else []
    (dedup (e.2.headerFaults g.cls ++ one ++ chain ++ s.tableFaults q e.2 gc fits 0 es [] ranges)).map (fun o =>
      fieldRep 0x08 (e.1 * 64 + 4) (e.2.at' + o)))
  (dedup own).map (fieldRep 0x0C ti) ++ gold

/-- Chain voyages whose members name different windows or layer counts (R306): the entries that differ from the first member. -/
def State.chainMismatch (s : State) (q : Fin 4) (c : Chart) : List RepEntry :=
  let members := (List.range 12).flatMap (fun inst => (c.tensorEntries.filter (fun t =>
      let g := c.engineAt t.2.engine; g.cls = Cls.ELV && g.inst = inst)).flatMap (fun t =>
    (enum (s.progAt q t.2.program 0).table).filterMap (fun e => if e.2.isChain then some (t.1, e.1, e.2) else none)))
  let windowOf : Nat → Nat := fun id => match c.stageIdx id with | some i => (c.stageAt i).window | none => 0xFFFF
  members.flatMap (fun m =>
    match members.find? (fun x => x.2.2.voyage = m.2.2.voyage) with
    | none => []
    | some f =>
      (if windowOf f.2.2.stage = windowOf m.2.2.stage then [] else [fieldRep 0x0C m.1 (0x40 + 32 * m.2.1)]) ++
        (if f.2.2.layers = m.2.2.layers then [] else [fieldRep 0x0C m.1 (0x40 + 32 * m.2.1 + 6)]))

/-- An instance's tile need (R306, R478). -/
def State.tileNeed (s : State) (q : Fin 4) (c : Chart) (t : ParamE) : Nat :=
  let g := c.engineAt t.engine
  if g.cls ≠ Cls.ELV then 0
  else sumNat ((s.progAt q t.program 0).table.map ProgStage.tileBytes) +
    sumNat ((s.goldens q c g.cls g.inst).map (fun e => sumNat (e.2.table.map ProgStage.tileBytes)))

/-- Faults of the input header of a LIGHTHOUSE entry (R478): byte offsets. -/
def lightInputFaults (c : Chart) (l : LightE) (h : List Byte) (len : Nat) : List Nat :=
  let put := fun (o : Nat) (ok : Bool) => if ok then [] else [o]
  let g := c.engineAt l.engine
  let parts := leAt h 5 1
  let job := leAt h 6 2
  let jobOk : Bool :=
    if g.cls = Cls.ELV ∨ g.cls = Cls.LAYOUT then decide (job = 0xFFFF)
    else if g.cls = Cls.EDGE then (c.params.any (fun p => p.sec = 0x0D && decide (job < leAt p.bytes 8 1)))
    else match c.stageIdx job with
      | some i => decide ((c.stageEngine i).cls = g.cls ∧ (c.stageEngine i).inst = g.inst)
      | none => false
  put 0 (slice h 0 4 = [0x53#8, 0x4B#8, 0x4C#8, 0x48#8]) ++ put 4 (leAt h 4 1 = 1) ++ put 5 (1 ≤ parts && parts ≤ 4) ++ put 6 jobOk ++
    (List.range 4).flatMap (fun k =>
      let o := leAt h (8 + 8 * k) 4
      let n := leAt h (12 + 8 * k) 4
      if k < parts then put (8 + 8 * k) (o % 4096 = 0 && decide (o + n ≤ len))
      else put (8 + 8 * k) (o = 0) ++ put (12 + 8 * k) (n = 0)) ++
    put 0x28 (leAt h 0x28 24 = 0)

/-- Faults of the reference header (R479). -/
def lightRefFaults (h : List Byte) (len : Nat) : List Nat :=
  let put := fun (o : Nat) (ok : Bool) => if ok then [] else [o]
  let mode := leAt h 5 1
  let f := leAt h 6 1
  let bytes := leAt h 8 8
  let data := leAt h 0x14 4
  put 0 (slice h 0 4 = [0x53#8, 0x4B#8, 0x4C#8, 0x52#8]) ++ put 4 (leAt h 4 1 = 1) ++ put 5 (mode ≤ 1) ++
    put 6 (if mode = 1 then 0x0A ≤ f && f ≤ 0x0E else f = 0) ++ put 7 (mode = 1 || leAt h 7 1 = 0) ++
    put 0x10 (mode = 0 || leAt h 0x10 4 = 0) ++
    put 0x14 (if mode = 1 then data % 4096 = 0 && decide (data + bytes ≤ len) else data = 0) ++ put 0x18 (leAt h 0x18 40 = 0)

/-- The Lighthouse headers' faults (R479). -/
def State.lightFaults (s : State) (q : Fin 4) (c : Chart) : List RepEntry :=
  (enum c.lights).flatMap (fun l =>
    let len := fun (h : Nat) => match s.quays[q].handle? h with | some e => e.length * 4096 | none => 0
    ((lightInputFaults c l.2 (s.handleBytes q l.2.input 0 64) (len l.2.input)).map (fieldRep 0x08 (l.1 * 64 + 4))) ++
      ((lightRefFaults (s.handleBytes q l.2.reference 0 64) (len l.2.reference)).map (fieldRep 0x08 (l.1 * 64 + 6))))

/-- Outcome and tile need of each ELV program as START found them (R306, R323). -/
def State.showPrograms (s : State) (needs : List (Nat × Nat × Status)) : State :=
  needs.foldl (fun s n => s.put (Reg.ELV_PROG_STATUS n.1) (n.2.2.toNat + min (n.2.1 / 64) 0xFFFFFF * 256)) s

/-- The checks of START in order, before any clock raise (R74, R306, R479): the status, its report entries and the state with
ELV_PROG_STATUS. -/
def State.checkStart (s : State) (q : Fin 4) (c : Chart) : State × Status × List RepEntry :=
  let ts := c.tensorEntries
  let auth := ts.filter (fun t => sha512 (s.handleBytes q t.2.program 0 t.2.progLength) ≠ t.2.progDigest)
  if !auth.isEmpty then
    (s, St.AUTH, auth.map (fun t => ⟨0x0C, Why.DIGEST, t.1, t.2.progLength, 0⟩))
  else
    let faults := ts.map (fun t => (t, s.programFaults q c (decide (s.tileNeed q c t.2 ≤ 2097152)) t.1 t.2))
    let chain := s.chainMismatch q c
    let needs := (ts.filter (fun t => (c.engineAt t.2.engine).cls = Cls.ELV)).map (fun t => (t, s.tileNeed q c t.2))
    let outcome := fun (ti need : Nat) =>
      if faults.any (fun f => f.1.1 = ti && !f.2.isEmpty) || chain.any (fun e => e.field = ti) then St.REFUSED
      else if need > 2097152 then St.NO_ROOM else St.OK
    let s := s.showPrograms (needs.map (fun n => ((c.engineAt n.1.2.engine).inst, n.2, outcome n.1.1 n.2)))
    let all := (faults.map (·.2)).flatten ++ chain
    let most := (needs.map (·.2)).foldl max 0
    if !all.isEmpty then (s, St.REFUSED, all)
    else if most > 2097152 then (s, St.NO_ROOM, [⟨0, Why.SHORTFALL, 4, most, 2097152⟩])
    else
      let lf := s.lightFaults q c
      if lf.isEmpty then (s, St.OK, []) else (s, St.REFUSED, lf)

end Sys2Proof.Machine
end

