-- ==== Sys2Proof/Machine/SndStart.lean ====
section
/-! DEFINITION. The start of a Soundings job (R194, R271, R275, R283): one job at a time, its pose latched, the map header checked. -/
namespace Sys2Proof.Machine

/-- The map part of the quay that holds SND (R287). -/
def Quay.sndMap (x : Quay) : Option SndMap := (x.paramOf Cls.SND 0).map (fun b => ⟨b⟩)

/-- An SND job runs. -/
def State.sndBusy (s : State) : Bool := s.vis.any (fun v => v.cls = Cls.SND)

/-- A job starts unless another runs (R194): SND_MAP_GEN becomes odd, the pose for its frame is latched and older ones discarded;
without a pose, or with a header that fails its check, the job ends at once (R271, R275, R283). -/
def State.sndStart (s : State) (q : Fin 4) (n : FrameNo) (i : Nat) : State :=
  if s.sndBusy then s
  else
    match s.quays[q].frame? n, s.quays[q].jobOf i, s.quays[q].sndMap with
    | some f, some (k, _), some m =>
      let t := s.tagFor q f i
      let pose := s.snd.poses.find? (fun p => p.job = k && p.target = n.toNat)
      let left := s.snd.poses.filter (fun p => !(decide (p.job = k) && frameAtOrBefore (BitVec.ofNat 32 p.target) n))
      let s : State := { s with
        snd := { s.snd with
          poses := left, latched := s.snd.latched.filter (fun l => l.1 ≠ k) ++ [(k, n.toNat, pose)], done := none }
        vis := s.vis ++ [{ cls := Cls.SND, inst := 0, quay := q.val, frame := n, idx := i, descs := [], startedAt := s.time.now
                           band := 0, statuses := [] }] }
      let s := s.wrapBy Reg.SND_MAP_GEN 1
      let (s, st) := s.readSlot t m.mapHandle 0 0 0x40
      let bad := st ++ (if pose.isNone then [0x81#8] else []) ++
        (if st.isEmpty && !m.headerOk (s.srcOf t m.mapHandle 0) then [0x82#8] else [])
      if bad.isEmpty then s else s.endStage q n i (worst bad)
    | _, _, _ => s

/-- The next SND job that waits for the engine starts: the earliest dispatched, in frame and STAGES order among equals (R194). -/
def State.sndNext (s : State) (q : Fin 4) : State :=
  if s.sndBusy then s
  else
    let x := s.quays[q]
    let all := x.frames.flatMap (fun f => (f.stages.filter (fun r =>
      r.running && !r.draining && decide ((x.engineE r.idx).cls = Cls.SND))).map (fun r => (f.num, r)))
    let first := all.foldl (fun (a : Option (FrameNo × StageRun)) b =>
      match a with
      | some c => if b.2.startedAt < c.2.startedAt then some b else a
      | none => some b) none
    match first with
    | some (n, r) => s.sndStart q n r.idx
    | none => s

end Sys2Proof.Machine
end

