-- ==== Sys2Proof/Machine/Frames.lean ====
section
/-! DEFINITION. Frames in flight (R45, R75, R99, R107-R113): opening, dispatch of stages and Lighthouse runs (R93-R95, R239, R314,
R428, R481), release of held stages (R104, R109), window closes (R104), confirmation, squash, publication and commit. -/
namespace Sys2Proof.Machine

/-! The quay's streams. -/

/-- The camera contexts a quay's CAMERAS section assigns to it (R107, R126, R129). -/
def Quay.streamCtxs (x : Quay) : List Nat :=
  match x.chart with
  | none => []
  | some c => (c.params.filter (fun p => p.sec = 0x0A)).flatMap (fun p =>
      let g := c.engineAt p.engine
      if g.cls = Cls.CAMRX then ((List.range 3).filter (fun k => bitOf (leAt p.bytes 0x0C 1) k)).map (fun k => 3 * g.inst + k) else [])

/-- The CAMP stream records of a quay: instance, pipe slot and record (R153). -/
def Quay.campRecs (x : Quay) : List (Nat × Nat × List Byte) :=
  match x.chart with
  | none => []
  | some c => (c.params.filter (fun p => p.sec = 0x0B && (c.engineAt p.engine).cls = Cls.CAMP)).flatMap (fun p =>
      (List.range (leAt p.bytes 8 1)).map (fun k => ((c.engineAt p.engine).inst, k, slice p.bytes (0x10 + 3728 * k) 3728)))

/-- The context whose stream record drives a CAMP stage. -/
def Quay.campCtx (x : Quay) (stage : Nat) : Option Nat :=
  (x.campRecs.find? (fun r => leAt r.2.2 8 2 = stage)).map (fun r => leAt r.2.2 0 1)

/-- The mid-exposure of the inputs of STAGES entry i of a frame, the earliest of its streams (R131). -/
def FrameRec.captureOf (f : FrameRec) (x : Quay) (i : Nat) : Option Nat :=
  match x.chart with
  | none => none
  | some c =>
    let ctxs := (c.upstream false c.stages.length [i]).filterMap (fun k =>
      if (c.stageEngine k).cls = Cls.CAMP then x.campCtx (c.stageAt k).stage else none)
    let mids := (f.streams.filter (fun r => ctxs.isEmpty || ctxs.elem r.ctx)).filterMap (·.mid)
    match mids with
    | [] => none
    | m :: ms => some (ms.foldl min m)

/-- The Ledger blocks a quay's chart claims (R57). -/
def Quay.ledgerBlocks (x : Quay) : List Nat :=
  match x.chart with
  | none => []
  | some c => (c.engines.filter (fun e => e.cls = Cls.LEDGER)).map (·.inst)

/-! Dispatch. -/

/-- Older frames of the quay that are not published. -/
def Quay.olderOpen (x : Quay) (n : FrameNo) : Bool := (x.frames.takeWhile (fun f => f.num ≠ n)).any (fun f => !f.committed)

/-- A stage waits before it starts: behind an older unpublished frame unless it may run ahead, and an SND stage also for
confirmation (R104, R109). -/
def Quay.mustHold (x : Quay) (f : FrameRec) (i : Nat) : Bool :=
  let older := x.olderOpen f.num
  (!(x.stageE i).ahead && older) || (decide ((x.engineE i).cls = Cls.SND) && (!f.confirmed || older))

/-- Another stage runs on the instance of STAGES entry i. -/
def Quay.instanceBusy (x : Quay) (n : FrameNo) (i : Nat) : Bool :=
  let e := (x.stageE i).engine
  x.frames.any (fun f => f.stages.any (fun r => r.running && decide ((x.stageE r.idx).engine = e) && !(decide (f.num = n) && decide (r.idx = i))))

/-- The vector and confidence planes of a FLOW job without history: their slots' chunks (R222, R239, R240). -/
def FlowJob.noHistoryChunks (j : FlowJob) (q : Nat) (tide : Tide) (a0 a1 : Nat) : List (List Chunk) :=
  let w := levelSize j.w j.outLevel
  let h := levelSize j.h j.outLevel
  let rows := flowNoHistory w h
  let d0 := imageDesc q tide 0x13 5 (a0 + 4096) w h 2 2 0
  let d1 := imageDesc q tide 0x02 0 (a1 + 4096) w h 1 1 0
  [⟨0, d0.bytes, false⟩ :: valueChunks 2 w rows] ++ (if j.confOut then [⟨0, d1.bytes, false⟩ :: confChunks w rows] else [])

/-- Write chunks to output k of a stage and set its berths full (R176). -/
def State.writeOutput (s : State) (t : ReqTag) (k : Nat) (cs : List Chunk) : State × List Status :=
  match ((s.quays[t.q]).stageE t.stage).outs[k]? with
  | none => (s, [])
  | some h =>
    let (s, st) := s.putSlot t h t.slot cs
    (s.fillSlot t h t.slot, st)

/-- Write several outputs in order. -/
def State.writeOutputs (s : State) (t : ReqTag) : Nat → List (List Chunk) → State × List Status
  | _, [] => (s, [])
  | k, c :: cs =>
    let (s, a) := s.writeOutput t k c
    let (s, b) := State.writeOutputs s t (k + 1) cs
    (s, a ++ b)

/-- The slot address of output k of a stage (R175). -/
def State.outAddr (s : State) (t : ReqTag) (k : Nat) : Nat :=
  match ((s.quays[t.q]).stageE t.stage).outs[k]? with
  | some h => s.slotAddr t.q h t.slot
  | none => 0

/-- A FLOW job without history (R239): every pixel invalid, status NO_HISTORY. -/
def State.flowNoHist (s : State) (q : Fin 4) (n : FrameNo) (i : Nat) : State :=
  match s.quays[q].frame? n, s.quays[q].jobOf i with
  | some f, some (_, b) =>
    let t := s.tagFor q f i
    let j : FlowJob := ⟨b⟩
    let (s, st) := s.writeOutputs t 0 (j.noHistoryChunks q t.tide (s.outAddr t 0) (s.outAddr t 1))
    s.endStage q n i (worst (0x82#8 :: st))
  | _, _ => s

/-- Key of a Chain member's stage in the list of filled shards. -/
def chainKey (inst stage : Nat) : Nat := inst * 65536 + stage

/-- Fill a Chain member's shard at its first dispatch since START or UNDOCK (R314). -/
def State.chainFill (s : State) (q : Fin 4) (f : FrameRec) (i : Nat) : State :=
  let e := s.quays[q].engineE i
  let id := (s.quays[q].stageE i).stage
  match s.progStage q i with
  | none => s
  | some p =>
    if !p.isChain || s.prog.chainFilled.elem (chainKey e.inst id) then s
    else
      let t := s.tagFor q f i
      let (s, st) := s.readSlot t p.chainSrc 0 0 p.chainBytes
      let src := s.srcOf t p.chainSrc 0
      let s := (linesOf 0 p.chainBytes).foldl (fun s l =>
        let bs := (List.range 64).map (fun k => src (64 * l + k))
        let m := min 64 (p.chainBytes - 64 * l)
        s.tileStore e.inst (p.tileBase + 64 * l) ((bs.take m).map (·.1)) ((bs.take m).any (·.2))) s
      let s := { s with prog := { s.prog with chainFilled := s.prog.chainFilled ++ [chainKey e.inst id] } }
      s.modStage q f.num i (fun r => { r with gathered := r.gathered ++ st })

/-- A stage whose dispatch takes effect now: its channel is armed (R428), its program begins (R311, R361), a FLOW job learns
whether its previous frame is usable (R239). -/
def State.startStage (s : State) (q : Fin 4) (n : FrameNo) (i : Nat) : State :=
  match s.quays[q].frame? n with
  | none => s
  | some f =>
    let e := s.quays[q].engineE i
    let s := s.modStage q n i (fun r => { r with held := false, startedAt := s.time.now })
    let run : ProgRun := ⟨q, n, i, 0, 0, none, false, none, [], s.time.now⟩
    if e.cls = Cls.TENDER then s.chanDispatch e.inst (s.tagFor q f i)
    else if e.cls = Cls.SND then s.sndStart q n i
    else if e.cls = Cls.FLOW ∧ f.noPrev then
      if s.quays[q].instanceBusy n i then s.modStage q n i (fun r => { r with gathered := addNew 0x82#8 r.gathered })
      else s.flowNoHist q n i
    else if e.cls = Cls.ELV then
      let s := s.chainFill q f i
      { s with prog := { s.prog with elv := modAt s.prog.elv e.inst (fun rs => rs ++ [run]) } }
    else if e.cls = Cls.LAYOUT then
      { s with prog := { s.prog with lay := modAt s.prog.lay e.inst (fun rs => rs ++ [run]) } }
    else s

/-- Dispatch STAGES entry i for frame n (R93, R94): a fenced instance ends it at once (R483); a stage that must wait is held. -/
def State.dispatchStage (s : State) (q : Fin 4) (n : FrameNo) (i : Nat) : State :=
  match s.quays[q].frame? n with
  | none => s
  | some f =>
    let x := s.quays[q]
    let e := x.engineE i
    let s := s.clearFresh (s.tagFor q f i)
    let hold := x.mustHold f i
    let s := s.modStage q n i (fun r => { r with dispatched := true, held := hold, startedAt := s.time.now })
    if s.isFenced e.cls e.inst then s.endStage q n i St.FENCED
    else if hold then s
    else s.startStage q n i

/-- Start every held stage that need not wait any longer (R109). -/
def State.releaseHeld (s : State) (q : Fin 4) : State :=
  s.quays[q].frames.foldl (fun s f => f.stages.foldl (fun s r =>
    match s.quays[q].frame? f.num, s.stageRun? q f.num r.idx with
    | some f', some r' =>
      if r'.held && !f'.squashed && !s.quays[q].mustHold f' r.idx then s.startStage q f.num r.idx else s
    | _, _ => s) s) s

/-- A fenced instance's Lighthouse outcome stays FAIL (R483). -/
def State.lhStay (s : State) (j : Nat) (n : FrameNo) : State :=
  let l := s.lh j
  { s with cg := { s.cg with slots := setAt s.cg.slots j { l with outs := ((n, 2) :: l.outs.filter (fun e => e.1 ≠ n)).take 5 } } }

/-- Dispatch the LIGHTHOUSE entries of a window (R481). -/
def State.openLights (s : State) (q : Fin 4) (n : FrameNo) (w : Nat) : State :=
  match s.quays[q].chart with
  | none => s
  | some c => (enum c.lights).foldl (fun s l =>
      let g := c.engineAt l.2.engine
      if l.2.window ≠ w then s
      else if s.isFenced g.cls g.inst then (match lhSlot g.cls g.inst with | some j => s.lhStay j n | none => s)
      else { s with cg := { s.cg with runs := s.cg.runs ++ [⟨l.1, n, w⟩] } }) s

/-- A window of frame n opens (R93-R95): each of its stages that the window dispatches is dispatched, in STAGES order. -/
def State.openWindow (s : State) (q : Fin 4) (n : FrameNo) (w : Nat) : State :=
  match s.quays[q].frame? n, s.quays[q].chart with
  | some f, some c =>
    let s := s.modQuay q (fun x => x.modFrame n (fun f => { f with opened := addNew w f.opened }))
    let s := s.openLights q n w
    if f.squashed then s
    else
      let due := c.allStages.filter (fun i => decide ((c.stageAt i).window = w) && !s.requestDriven q i)
      due.foldl (fun s i =>
        match s.stageRun? q n i with
        | some r => if r.dispatched || r.closed then s else s.dispatchStage q n i
        | none => s) s
  | _, _ => s

/-! The close of a window. -/

/-- Stop what a stage left in its camera pipe and its channel (R104, R111, R439). -/
def State.stopEngine (s : State) (q : Fin 4) (n : FrameNo) (i : Nat) : State :=
  let x := s.quays[q]
  let e := x.engineE i
  let id := (x.stageE i).stage
  if e.cls = Cls.TENDER then
    match (s.chan e.inst).tag with
    | some t => if t.quay = q.val ∧ t.frame = n ∧ t.stage = i then s.chanStop e.inst else s
    | none => s
  else if e.cls = Cls.CAMP then
    x.campRecs.foldl (fun s r =>
      if r.1 = e.inst ∧ leAt r.2.2 8 2 = id then
        { s with camp := { s.camp with slots := modAt s.camp.slots (8 * r.1 + r.2.1) (fun c =>
          { c with runs := c.runs.map (fun u => if u.frame = n then { u with discarded := true } else u) }) } }
      else s) s
  else s

/-- A stage is stopped with TIMEOUT (R104). -/
def State.timeoutStage (s : State) (q : Fin 4) (n : FrameNo) (i : Nat) : State :=
  let s := s.stopEngine q n i
  let s := (s.endStage q n i St.TIMEOUT).sndNext q
  s.modQuay q (fun x => x.modFrame n (fun f => { f with
    results := f.results.map (fun r => if r.idx = i then { r with late := true } else r) }))

/-- The Lighthouse runs of a window that are not complete are UNLIT at its close (R481). -/
def State.closeLights (s : State) (q : Fin 4) (n : FrameNo) (w : Nat) : State :=
  if q ≠ 0 then s
  else
    let mine := s.cg.runs.filter (fun r => r.frame = n && r.window = w)
    let s := { s with cg := { s.cg with runs := s.cg.runs.filter (fun r => !(r.frame = n && r.window = w)) } }
    match s.quays[q].chart with
    | none => s
    | some c => mine.foldl (fun s r =>
        let g := c.engineAt ((c.lights.getD r.entry ⟨0, 0, 0, 0, 0⟩).engine)
        match lhSlot g.cls g.inst with
        | some j => s.verdict j n 3
        | none => s) s

/-- The close of STAGES entry i's window for frame n (R104). -/
def State.closeStage (s : State) (q : Fin 4) (n : FrameNo) (i : Nat) : State :=
  match s.stageRun? q n i, s.quays[q].chart with
  | some r, some c =>
    let s := s.modStage q n i (fun r => { r with closed := true })
    if r.status.isSome then s
    else if c.cfg.piloted && decide ((c.stageAt i).bound = 0) then s
    else if s.requestDriven q i && !r.dispatched then s
    else s.timeoutStage q n i
  | _, _ => s

/-! Confirmation, squash and publication. -/

/-- Every stream of the frame has ended without an invalidating error (R107). -/
def FrameRec.sound (f : FrameRec) : Bool := f.streams.all (fun r => r.ended && !r.invalid)

/-- Confirm frames in frame order (R107). -/
def State.confirmWalk (s : State) (q : Fin 4) : List FrameRec → State
  | [] => s
  | f :: fs =>
    if f.squashed ∨ f.confirmed then State.confirmWalk s q fs
    else if f.sound then
      let s := (s.modQuay q (fun x => x.modFrame f.num (fun g => { g with confirmed := true }))).setReg (Reg.HM_QUAY_CONFIRMED q) f.num
      State.confirmWalk s q fs
    else s

/-- Drop everything of a frame that is squashed (R111, R112, R257): its stages' work, its slot's generation, its predictions and
its Ledger tags. -/
def State.squashOne (s : State) (q : Fin 4) (f : FrameRec) (byDock : Bool) : State :=
  let s : State := f.stages.foldl (fun (s : State) r =>
    if r.status.isSome then s else (s.stopEngine q f.num r.idx).dropWork q f.num r.idx) s
  let x := s.quays[q]
  let slot := f.k % x.fif
  let blocks := x.ledgerBlocks
  let led := blocks.foldl (fun (l : LedgerState) b => l.voidTag b f.num.toNat) s.ledger
  let s : State := { s with ledger := { led with
    preds := led.preds.filter (fun p => !(p.quay = q.val && p.target = f.num.toNat))
    sweeps := blocks.foldl (fun a b => addNew (b / 8, q.val) a) led.sweeps } }
  let drop := fun (u : CampRun) => if u.frame = f.num then { u with discarded := true } else u
  let s : State := x.campRecs.foldl (fun (s : State) r =>
    { s with camp := { s.camp with slots := modAt s.camp.slots (8 * r.1 + r.2.1) (fun c => { c with runs := c.runs.map drop }) } }) s
  let s : State := if f.stages.any (fun (r : StageRun) => r.request.isSome && decide (s.salv[q].replay = r.request)) then s.replayEnded q false else s
  (s.modQuay q (fun x => { x.modFrame f.num (fun g => { g with squashed := true, byDock := byDock, results := [] }) with
    gens := modAt x.gens slot (fun g => (g + 1) % 16), squashing := true, prevSquashed := true })).progress q

/-- Squash the frames in flight that a predicate selects (R76, R108, R111). -/
def State.squashWhere (s : State) (q : Fin 4) (p : FrameRec → Bool) (byDock : Bool) : State :=
  (s.quays[q].frames.filter (fun f => p f && !f.squashed && !f.committed)).foldl (fun s f => s.squashOne q f byDock) s

/-- Frame n is invalidated: it and every younger frame in flight are squashed (R108). -/
def State.invalidate (s : State) (q : Fin 4) (n : FrameNo) : State :=
  match s.quays[q].frame? n with
  | none => s
  | some f =>
    if f.confirmed ∨ f.squashed ∨ f.committed then s
    else s.squashWhere q (fun g => g.num = n || frameLater g.num n) false

/-- Flags of a result descriptor (R89): VALID, POISON, LATE, STALE, UNCOVERED, CLAMPED, CRC. -/
structure ResFlags where
  poison : Bool
  late : Bool
  stale : Bool
  uncovered : Bool
  clamped : Bool
  crc : Bool
  deriving DecidableEq, Repr

/-- VALID (R89). -/
def ResFlags.valid (f : ResFlags) (status : Status) : Bool :=
  decide (status = St.OK) && !f.poison && !f.late && !f.stale && !f.uncovered

/-- Byte 3 of a descriptor. -/
def ResFlags.byte (f : ResFlags) (status : Status) : Nat :=
  bitAt (f.valid status) 0 + bitAt f.poison 1 + bitAt f.late 2 + bitAt f.stale 3 + bitAt f.uncovered 4 + bitAt f.clamped 5 + bitAt f.crc 6

/-- A descriptor ready to be written. -/
structure ResDesc where
  idx : Nat
  cls : Nat
  bytes : List Byte
  valid : Bool
  flags : ResFlags
  status : Status
  capture : Nat
  publish : Nat
  tensor : Nat
  request : Option Request
  deriving DecidableEq, Repr

/-- The result descriptor of a result of frame f (R88-R90, R108). -/
def State.resultDesc (s : State) (q : Fin 4) (f : FrameRec) (r : Result) : State × ResDesc :=
  let x := s.quays[q]
  let st := x.stageE r.idx
  let e := x.engineE r.idx
  let squashed := f.squashed
  let (capture, s) := match f.captureOf x r.idx with
    | some m => (m, s)
    | none => if squashed then (0, s) else let (v, s) := s.draw; (v % 2 ^ 64, s)
  let now := s.time.now
  let age := match x.chart with
    | some c => c.ages.any (fun a => a.stage = st.stage && decide (a.maxAgeUs * 1000 < now - capture))
    | none => false
  let fl : ResFlags :=
    let clamped := match x.chart with | some c => c.clamped | none => false
    if squashed then ⟨false, false, false, false, clamped, false⟩
    else
      { poison := decide (r.status = St.POISON) || r.poison
        late := r.late || age
        stale := f.stale
        uncovered := decide (q = 0) && (match x.chart with | some c => !s.covered c r.idx f.num f.first | none => false)
        clamped := clamped
        crc := r.crc.isSome }
  let status := if squashed then St.SQUASHED else r.status
  let voyage := match r.request with
    | some v => v.voyage.getD 0
    | none => match s.progStage q r.idx with | some p => p.voyage | none => 0
  let bs := natLE 1 2 ++ natLE 1 q ++ natLE 1 x.tide.toNat ++ natLE 1 (fl.byte status) ++ natLE 4 f.num.toNat ++ natLE 8 capture ++
    natLE 8 now ++ natLE 1 e.cls ++ natLE 1 e.inst ++ natLE 2 st.stage ++ natLE 2 (voyage % 4096) ++ natLE 1 status.toNat ++ natLE 1 0 ++
    natLE 8 (if squashed then 0 else r.tensor) ++ natLE 4 (if squashed then 0 else r.length) ++
    natLE 4 (if squashed then 0 else r.crc.getD 0) ++ natLE 4 x.sequence ++ natLE 12 0
  (s.modQuay q (fun x => { x with sequence := (x.sequence + 1) % 2 ^ 32 }),
    ⟨r.idx, e.cls, bs, fl.valid status, fl, status, capture, now, r.tensor, r.request⟩)

/-- The descriptors of several results, in order. -/
def State.resultDescs (s : State) (q : Fin 4) (f : FrameRec) : List Result → State × List ResDesc
  | [] => (s, [])
  | r :: rs =>
    let (s, d) := s.resultDesc q f r
    let (s, ds) := State.resultDescs s q f rs
    (s, d :: ds)

/-- The age counters that VALID results set (R484, R485). -/
def State.setAges (s : State) (c : Chart) (ds : List ResDesc) : State :=
  let s := (enum c.ages).foldl (fun s a =>
    match ds.find? (fun d => decide ((c.stageAt d.idx).stage = a.2.stage) && d.valid) with
    | some d =>
      let v := ceilDiv (d.publish - d.capture) 10000
      { s with cg := { s.cg with
        ages := setAt s.cg.ages a.1 (some v)
        overAge := if v ≤ a.2.maxAgeUs / 10 then s.cg.overAge.filter (fun k => k ≠ a.1) else s.cg.overAge } }
    | none => s) s
  if s.cg.overAge.isEmpty then s.cgClear Cause.AGE else s

/-- Frame causes of older frames become inactive at quay 0's publish point of frame n unless they are raised for it (R486). -/
def State.endFrameCauses (s : State) (n : FrameNo) : State :=
  let keep := fun (e : Nat × FrameNo) => !frameLater n e.2
  let left := s.cg.causeFrames.filter keep
  let raised := fun (b : Nat) => left.any (fun e => e.1 = b) || s.cg.signals.any (fun e => e.1 = b && keep e)
  let was := s.cg.active
  let s := { s with cg := { s.cg with
    causeFrames := left
    active := [Cause.LIGHTHOUSE_FAIL, Cause.UNCOVERED, Cause.INVALID].foldl (fun a b => if raised b then a else clearBit a b) was } }
  if s.cg.active = was then s else s.notice

/-- What Coastguard sees of a publish point of quay 0 (R484-R487). -/
def State.cgPublish (s : State) (f : FrameRec) (ds : List ResDesc) : State :=
  match s.quays[0].chart with
  | none => s
  | some c =>
    let s := ds.foldl (fun s d =>
      let s := if d.flags.uncovered then s.cgSignal Cause.UNCOVERED f.num else s
      if !d.valid && (decide (d.status ≠ St.OK) || d.flags.poison || d.flags.late || d.flags.stale) then s.cgSignal Cause.INVALID f.num else s) s
    let s := (s.setAges c ds).endFrameCauses f.num
    let pub : MirrorPub := ⟨f.num, f.first, s.quays[0].tide, ds.map (fun d => ⟨d.bytes, d.publish, d.tensor⟩)⟩
    { s with cg := { s.cg with mirror := s.cg.mirror ++ [pub] } }

/-- Write descriptors to their completion rings, then the completion records of their requests (R46, R110, R523, R524). -/
def State.writeResults (s : State) (q : Fin 4) (f : FrameRec) (rs : List Result) : State × List ResDesc :=
  let (s, ds) := s.resultDescs q f rs
  let s := s.cringAll q (ds.map (fun d => (some d.cls, d.bytes)))
  let s := ds.foldl (fun s d => match d.request with | some r => s.completeRequest q r d.status | none => s) s
  (s, ds)

/-- The quay's Ledger blocks commit the frame's tags and their sweeps begin (R110, R263, R264). -/
def State.ledgerCommit (s : State) (q : Fin 4) (n : FrameNo) : State :=
  let blocks := s.quays[q].ledgerBlocks
  let s := blocks.foldl (fun s b =>
    let (l, dropped) := s.ledger.commitTag b n.toNat
    ({ s with ledger := l } : State).bumpBy (Reg.LEDGER_BLOCK_BIRTH_DROP_COUNT b) dropped) s
  { s with ledger := { s.ledger with sweeps := blocks.foldl (fun a b => addNew (b / 8, q.val) a) s.ledger.sweeps } }

/-- Forget the frames that nothing waits for any longer: published, their squash complete, their stages ended. -/
def Quay.prune (x : Quay) : Quay :=
  { x with frames := x.frames.filter (fun f =>
      !(f.committed && (if f.squashed then f.squashDone else f.stages.all (fun r => r.status.isSome || !r.dispatched)))) }

/-- Frame n counts as published: the quay's registers, the held stages, and DOCKING's end (R76, R99, R110). -/
def State.markPublished (s : State) (q : Fin 4) (f : FrameRec) : State :=
  let s := s.setReg (Reg.HM_QUAY_PUBLISHED q) f.num
  let s := s.modQuay q (fun x => { x.modFrame f.num (fun g => { g with committed := true, results := [] }) with
    lastPub := some (f.num, f.k) })
  let s := (s.modQuay q Quay.prune).progress q
  let s := s.releaseHeld q
  if s.quays[q].st = .docking ∧ s.quays[q].frames.all (fun g => g.committed || g.squashed) then
    (s.setQState q .docked).completeCmd q St.OK
  else s

/-- The results a Moored frame publishes, in STAGES order: a squashed frame's are SQUASHED (R46, R108). -/
def State.mooredResults (s : State) (q : Fin 4) (f : FrameRec) : List Result :=
  match s.quays[q].chart with
  | none => []
  | some c => (c.allStages.filter (fun i => (c.stageAt i).result)).filterMap (fun i =>
      if f.squashed then some ⟨i, St.SQUASHED, 0, 0, none, none, false, false⟩
      else f.results.find? (fun r => r.idx = i))

/-- The publish point of the oldest unpublished frame of a Moored quay (R46, R108, R110). -/
def State.publishMoored (s : State) (q : Fin 4) (n : FrameNo) : State :=
  match s.quays[q].frame? n with
  | none => s
  | some f =>
    let s := if f.confirmed ∨ f.squashed then s else s.invalidate q n
    match s.quays[q].frame? n with
    | none => s
    | some f =>
      let s := if f.squashed then s else f.stages.foldl (fun s r => s.closeStage q n r.idx) s
      let s := if f.squashed then s else s.ledgerCommit q n
      match s.quays[q].frame? n with
      | none => s
      | some f =>
        let (s, ds) := s.writeResults q f (s.mooredResults q f)
        let s := if q = 0 then s.cgPublish f ds else s
        s.markPublished q f

/-- A Piloted frame has nothing left to publish (R110): every result-producing stage has completed, or, where the frame has
none, every stage; a request-driven stage counts once dispatched, or until its window closes. -/
def State.allDone (s : State) (q : Fin 4) (f : FrameRec) : Bool :=
  let x := s.quays[q]
  let counted := if f.stages.any (fun r => (x.stageE r.idx).result) then f.stages.filter (fun r => (x.stageE r.idx).result) else f.stages
  counted.all (fun r => r.status.isSome || (s.requestDriven q r.idx && !r.dispatched && r.closed))

/-- Requests that ran on stages without a result complete with their stage (R523); those of stages whose results have been published
are settled. -/
def State.settleRequests (s : State) (q : Fin 4) (n : FrameNo) : State :=
  match s.quays[q].frame? n with
  | none => s
  | some f => f.stages.foldl (fun s r =>
      match r.request, r.status with
      | some v, some st =>
        (if (s.quays[q].stageE r.idx).result then s else s.completeRequest q v st).modStage q n r.idx (fun r => { r with request := none })
      | _, _ => s) s

/-- Publish what a Piloted quay's confirmed frames have ready, and commit in frame order (R46, R110). -/
def State.settlePilotedWalk (s : State) (q : Fin 4) : List FrameRec → State
  | [] => s
  | f0 :: fs =>
    match s.quays[q].frame? f0.num with
    | none => State.settlePilotedWalk s q fs
    | some f =>
      if f.squashed ∨ !f.confirmed ∨ f.committed then State.settlePilotedWalk s q fs
      else
        let (s, ds) := s.writeResults q f f.results
        let s := s.modQuay q (fun x => x.modFrame f.num (fun g => { g with results := [] }))
        let s := if q = 0 ∧ !ds.isEmpty then s.cgPublish f ds else s
        let s := s.settleRequests q f.num
        let s := if s.allDone q f && !s.quays[q].olderOpen f.num then (s.ledgerCommit q f.num).markPublished q f else s
        State.settlePilotedWalk s q fs

/-- After a stage, a confirmation or a window close: what a Piloted quay publishes and commits. -/
def State.settlePiloted (s : State) (q : Fin 4) : State :=
  match s.quays[q].chart with
  | some c => if c.cfg.piloted then s.settlePilotedWalk q s.quays[q].frames else s
  | none => s

/-- Confirm what can be confirmed, start what waited for it and publish what was ready (R46, R107, R109). -/
def State.confirmFrames (s : State) (q : Fin 4) : State :=
  ((s.confirmWalk q s.quays[q].frames).releaseHeld q).settlePiloted q

/-- A stage ends, with what a Piloted quay then publishes. -/
def State.finishStage (s : State) (q : Fin 4) (n : FrameNo) (i : Nat) (status : Status) : State :=
  ((s.endStage q n i status).sndNext q).settlePiloted q

/-- The berths of a squashed frame's slots that carry its frame tag (R111). -/
def Quay.squashBerths (x : Quay) (f : FrameRec) : List Nat :=
  (x.handles.filter (fun h => h.rotated && decide (h.kind = 0))).flatMap (fun h => x.slotBerths h.handle (f.k % x.fif))

/-- A berth's tag becomes EMPTY with static cleared. -/
def State.emptyBerth (s : State) (b : Nat) : State :=
  let g := s.tag b
  (s.setTag b (mkTag false false (tagFrame g) (BitVec.ofNat 8 (tagTide g)) (tagQuay g) (tagOwned g) (tagPoisoned g))).modMem
    (fun m => m.unfresh (berthAddr b) 4096)

/-- What a squashed frame publishes when its squash completes (R108, R523): nothing but its requests' records after DOCK, its
SQUASHED descriptors in a Piloted quay. -/
def State.publishSquashed (s : State) (q : Fin 4) (piloted : Bool) (f : FrameRec) : State :=
  let reqs := f.stages.filterMap (fun r => r.request.map (fun v => (r.idx, v)))
  if f.byDock then
    (reqs.foldl (fun s v => s.completeRequest q v.2 St.SQUASHED) s).modQuay q (fun x =>
      { x with frames := x.frames.filter (fun g => g.num ≠ f.num) })
  else if piloted then
    let results := match s.quays[q].chart with
      | some c => c.allStages.filter (fun i => (c.stageAt i).result && (!s.requestDriven q i || reqs.any (fun v => v.1 = i)))
      | none => []
    let (s, ds) := s.writeResults q f (results.map (fun i =>
      ⟨i, St.SQUASHED, 0, 0, none, (reqs.find? (fun v => v.1 = i)).map (·.2), false, false⟩))
    let s := if q = 0 then s.cgPublish f ds else s
    let s := (reqs.filter (fun v => !results.elem v.1)).foldl (fun s v => s.completeRequest q v.2 St.SQUASHED) s
    s.markPublished q f
  else s

/-- A squash completes (R111): the frames' berths are EMPTY, the count advances, and a Piloted quay publishes the SQUASHED
descriptors (R108). -/
def State.squashDone (s : State) (q : Fin 4) : State :=
  let fs := s.quays[q].frames.filter (fun f => f.squashed && !f.squashDone)
  let s := fs.foldl (fun s f =>
    (s.quays[q].squashBerths f).foldl (fun s b => if tagFrame (s.tag b) = f.num.toNat % 16 then s.emptyBerth b else s) s) s
  let s := s.bumpBy (Reg.HM_QUAY_SQUASH_COUNT q) fs.length
  let s := s.modQuay q (fun x => { x with
    squashing := false
    frames := x.frames.map (fun f => if f.squashed then { f with squashDone := true } else f) })
  let piloted := match s.quays[q].chart with | some c => c.cfg.piloted | none => false
  let s := fs.foldl (fun s f => s.publishSquashed q piloted f) s
  (s.modQuay q Quay.prune).settlePiloted q

/-! Opening. -/

/-- The first tick of a quay at or after harbour time `from'` (R43). -/
def State.tickAt (s : State) (c : Chart) (from' : Nat) : Nat :=
  let p := c.cfg.periodUs * 1000
  let o := (s.reg64 Reg.HM_TICK_ORIGIN_LO + c.cfg.phaseUs * 1000) % p
  (from' + p - 1 - o) / p * p + o

/-- The latest tick at or before now, if there is one (R43). -/
def State.lastTick? (s : State) (c : Chart) : Option Nat :=
  let p := c.cfg.periodUs * 1000
  let o := (s.reg64 Reg.HM_TICK_ORIGIN_LO + c.cfg.phaseUs * 1000) % p
  if s.time.now < o then none else some ((s.time.now - o) / p * p + o)

/-- Open the next frame of a quay at tick T (R45, R75, R76, R99, R107). -/
def State.openFrame (s : State) (q : Fin 4) (T : Nat) : State :=
  let x := s.quays[q]
  let n := x.nextFrame
  let k := x.nextK
  let stages := (match x.chart with | some c => c.allStages | none => []).map (fun i =>
    (⟨i, false, false, false, none, [], [], 0, none, false, false⟩ : StageRun))
  let f : FrameRec := {
    num := n, k := k, tick := T, confirmed := false, squashed := false, byDock := false, squashDone := false, committed := false
    stages := stages
    streams := x.streamCtxs.map (fun c => ⟨c, false, false, none⟩)
    results := [], opened := [], first := x.firstNext, noPrev := x.firstNext || x.prevSquashed, stale := false }
  let s := s.modQuay q (fun x => { x with
    frames := x.frames ++ [f], nextFrame := n + 1#32, nextK := k + 1, firstNext := false, prevSquashed := false })
  let s := s.setReg (Reg.HM_QUAY_FRAME q) n
  if x.streamCtxs.isEmpty then s.confirmFrames q else s

end Sys2Proof.Machine
end

