-- ==== Sys2Proof/Machine/OnnakOps.lean ====
section
/-! DEFINITION. Onnak's sending side (R442-R460): frames and headers, lanes and limits, requests and their ends, peers lost and
found, bindings. The commands that receive frames are in Machine/Onnak.lean. -/
namespace Sys2Proof.Machine

/-! Frames (R444, R445). -/

/-- An Onnak header (R445). -/
structure OHdr where
  version : Nat
  type : Nat
  src : Nat
  dst : Nat
  lane : Nat
  flags : Nat
  length : Nat
  seq : Nat
  session : Nat
  ack : List Nat
  limit : List Nat
  dstQuay : Nat
  dstTide : Nat
  srcQuay : Nat
  srcTide : Nat
  handle : Nat
  status : Nat
  tag : Nat
  frame : Nat
  address : Nat
  count : Nat
  crc : Nat
  poison : Nat
  deriving DecidableEq, Repr

/-- A header with nothing set. -/
def OHdr.zero : OHdr := ⟨0, 0, 0, 0, 0, 0, 0, 0, 0, [0, 0, 0], [0, 0, 0], 0, 0, 0, 0, 0, 0, 0, 0, 0, 0, 0, 0⟩

/-- The 64 bytes of a header. -/
def OHdr.bytes (h : OHdr) : List Byte :=
  natLE 1 h.version ++ natLE 1 h.type ++ natLE 1 h.src ++ natLE 1 h.dst ++ natLE 1 h.lane ++ natLE 1 h.flags ++ natLE 2 h.length ++
    natLE 2 h.seq ++ natLE 1 h.session ++ natLE 1 0 ++ (List.range 3).flatMap (fun i => natLE 2 (h.ack.getD i 0)) ++
    (List.range 3).flatMap (fun i => natLE 2 (h.limit.getD i 0)) ++ natLE 1 h.dstQuay ++ natLE 1 h.dstTide ++ natLE 1 h.srcQuay ++
    natLE 1 h.srcTide ++ natLE 2 h.handle ++ natLE 1 h.status ++ natLE 1 0 ++ natLE 2 h.tag ++ natLE 2 0 ++ natLE 4 h.frame ++
    natLE 8 h.address ++ natLE 4 h.count ++ natLE 4 h.crc ++ natLE 8 h.poison

/-- The header that 64 bytes hold. -/
def OHdr.ofBytes (b : List Byte) : OHdr where
  version := leAt b 0 1
  type := leAt b 1 1
  src := leAt b 2 1
  dst := leAt b 3 1
  lane := leAt b 4 1
  flags := leAt b 5 1
  length := leAt b 6 2
  seq := leAt b 8 2
  session := leAt b 0x0A 1
  ack := (List.range 3).map (fun i => leAt b (0x0C + 2 * i) 2)
  limit := (List.range 3).map (fun i => leAt b (0x12 + 2 * i) 2)
  dstQuay := leAt b 0x18 1
  dstTide := leAt b 0x19 1
  srcQuay := leAt b 0x1A 1
  srcTide := leAt b 0x1B 1
  handle := leAt b 0x1C 2
  status := leAt b 0x1E 1
  tag := leAt b 0x20 2
  frame := leAt b 0x24 4
  address := leAt b 0x28 8
  count := leAt b 0x30 4
  crc := leAt b 0x34 4
  poison := leAt b 0x38 8

/-- Message types (R446). -/
def Msg.HELLO : Nat := 0x01
def Msg.ACK : Nat := 0x02
def Msg.BIND : Nat := 0x03
def Msg.BIND_ACK : Nat := 0x04
def Msg.READ : Nat := 0x10
def Msg.READ_RESP : Nat := 0x11
def Msg.WRITE : Nat := 0x12
def Msg.WRITE_ACK : Nat := 0x13
def Msg.SIGNAL : Nat := 0x14
def Msg.SIGNAL_ACK : Nat := 0x15
def Msg.STREAM : Nat := 0x20
def Msg.STREAM_DATA : Nat := 0x21
def Msg.STREAM_END : Nat := 0x22

/-- The lane field of a type, and the lowest version that defines it (R446). -/
def msgLane (ty : Nat) : Option (Nat × Nat) :=
  if ty = 0x01 ∨ ty = 0x02 then some (0, 0x10)
  else if [0x03, 0x10, 0x12, 0x14].elem ty then some (1, 0x10)
  else if [0x04, 0x11, 0x13, 0x15].elem ty then some (2, 0x10)
  else if ty = 0x20 then some (1, 0x11)
  else if ty = 0x21 then some (3, 0x11)
  else if ty = 0x22 then some (2, 0x11)
  else none

/-! This node. -/

/-- Clock identity of this node's time-aware system: the EUI-64 of its MAC address (log entry 45). -/
def State.clockId (s : State) : List Byte := let m := s.portMac 0; m.take 3 ++ [0xFF#8, 0xFE#8] ++ m.drop 3

/-- The grandmaster's clock identity (R454, R461). -/
def State.grandmaster (s : State) : List Byte :=
  match s.gptp.master with
  | some m => slice m 0 8
  | none => s.clockId

/-- A peer. -/
def State.peer (s : State) (n : Nat) : Peer := s.onnak.peers.getD n Peer.reset

/-- Update a peer. -/
def State.modPeer (s : State) (n : Nat) (f : Peer → Peer) : State :=
  { s with onnak := { s.onnak with peers := modAt s.onnak.peers n f } }

/-- A fleet port's state. -/
def State.port (s : State) (p : Nat) : FleetPort := s.onnak.ports.getD p ⟨false, false, false⟩

/-- Ports through which a peer is reachable, lowest first (R449). -/
def State.reachable (s : State) (n : Nat) : List Nat :=
  (List.range 4).filter (fun p => (s.port p).up && (s.peer n).heard.elem p && flag (s.reg (Reg.ONNAK_PEER_ROUTE n)) p)

/-- The port of lane index 0 request, 1 response, 2 + p stream on port p (R449). -/
def State.lanePort (s : State) (n lane : Nat) : Option Nat :=
  let r := s.reachable n
  match lane with
  | 0 => r.head?
  | 1 => match r with | _ :: p :: _ => some p | [p] => some p | [] => none
  | l => if r.elem (l - 2) then some (l - 2) else none

/-- Bytes of the reassembly buffer in use (R451). -/
def State.reassembly (s : State) : Nat :=
  sumNat (s.onnak.reqs.map (fun r => sumNat (r.segs.map (fun g => g.2.1.length))))

/-- The limit this node advertises on a lane of a peer: what its buffers take beyond the last frame received (R451). -/
def State.limitOf (s : State) (n lane : Nat) : Nat :=
  let next := ((s.peer n).rx.getD lane LaneRx.idle).next
  let room := match lane with | 0 => 32 | 1 => 64 | _ => (512 * 1024 - s.reassembly) / 4096
  (next + 0xFFFF + room) % 0x10000

/-- The bytes on the wire of an Onnak frame, without FCS (R444). -/
def State.wrap (s : State) (p : Nat) (dst : List Byte) (body : List Byte) : List Byte :=
  let c := s.reg Reg.ONNAK_CTRL
  let tci := fld c 16 14 * 8192 + fld c 13 2
  let vlan := if flag c 1 then [0x81#8, 0x00#8] ++ natBE 2 tci else []
  dst ++ s.portMac p ++ vlan ++ [0x88#8, 0xB5#8] ++ body

/-- The destination MAC address of a peer on a port. -/
def State.peerMac (s : State) (n p : Nat) : List Byte :=
  (((s.peer n).mac.find? (fun e => e.1 = p)).map (·.2)).getD (List.replicate 6 0#8)

/-- The header with the current acknowledgements and limits of a peer on a port (R450). -/
def State.current (s : State) (n p : Nat) (h : OHdr) : OHdr :=
  let x := s.peer n
  let lanes := [0, 1, 2 + p]
  { h with
    version := if h.type = Msg.HELLO then 0x10 else x.version
    src := s.nodeId
    dst := n
    session := x.session
    ack := lanes.map (fun l => ((x.rx.getD l LaneRx.idle).next + 0xFFFF) % 0x10000)
    limit := lanes.map (fun l => s.limitOf n l) }

/-- Put a frame for a peer on a port (R444, R450). -/
def State.transmit (s : State) (n p : Nat) (h : OHdr) (payload : List Byte) : State :=
  let h := s.current n p h
  let s := (s.emit (.onnak p (s.wrap p (s.peerMac n p) (h.bytes ++ payload)))).modPeer n (fun x =>
    { x with lastTx := s.time.now, ackDue := x.ackDue.filter (fun e => decide (e.1 ≠ 0 ∧ e.1 ≠ 1 + p))
             rx := (enum x.rx).map (fun e => if e.1 = 0 ∨ e.1 = 1 ∨ e.1 = 2 + p then { e.2 with limit := s.limitOf n e.1 } else e.2) })
  s

/-- A frame as it is kept for sending again. -/
def splitFrame (b : List Byte) : OHdr × List Byte := (OHdr.ofBytes (b.take 64), b.drop 64)

/-- Sequence number a is at or before b (modulo 2^16). -/
def seqLe (a b : Nat) : Bool := decide ((b + 0x10000 - a) % 0x10000 < 0x8000)

/-- Send what waits on a lane while the peer's limit and the 64 unacknowledged frames allow (R450). -/
def State.pumpLane (s : State) (n lane : Nat) : Nat → State
  | 0 => s
  | fuel + 1 =>
    let t := (s.peer n).tx.getD lane LaneTx.idle
    match t.waiting, s.lanePort n lane with
    | w :: ws, some p =>
      if t.unacked.length ≥ 64 ∨ !seqLe t.seq t.limit ∨ (s.peer n).st ≠ .up then s
      else
        let (h, b) := splitFrame w
        let h := { h with seq := t.seq, lane := min 3 (lane + 1) }
        let kept := (s.current n p h).bytes ++ b
        let s := s.transmit n p h b
        let s := s.modPeer n (fun x => { x with tx := modAt x.tx lane (fun t => { t with
          seq := (t.seq + 1) % 0x10000
          unacked := t.unacked ++ [(t.seq, s.time.now, kept)]
          since := if t.unacked.isEmpty then s.time.now else t.since
          waiting := ws }) })
        State.pumpLane s n lane fuel
    | _, _ => s

/-- Send what waits on a lane. -/
def State.pump (s : State) (n lane : Nat) : State := s.pumpLane n lane 64

/-- Send a message to a peer on lane index 0 request, 1 response or 2 + p stream, with a CRC of its payload to a peer at 1.2
(R445, R447). -/
def State.sendMsg (s : State) (n lane : Nat) (h : OHdr) (payload : List Byte) : State :=
  let v := (s.peer n).version
  let h := { h with length := payload.length }
  let h := if v = 0x12 ∧ payload ≠ [] then { h with flags := h.flags ||| 8, crc := crc32c payload } else h
  let h := if v = 0x12 then h else { h with poison := 0, flags := if h.poison = 0 then h.flags else h.flags ||| 2 }
  let s := s.modPeer n (fun x => { x with tx := modAt x.tx lane (fun t => { t with waiting := t.waiting ++ [h.bytes ++ payload] }) })
  s.pump n lane

/-- Send every unacknowledged frame of a lane again, oldest first (R449, R450). -/
def State.resend (s : State) (n lane : Nat) : State :=
  match s.lanePort n lane with
  | none => s
  | some p =>
    let t := (s.peer n).tx.getD lane LaneTx.idle
    let s := t.unacked.foldl (fun s u => let (h, b) := splitFrame u.2.2; s.transmit n p h b) s
    let s := s.bumpBy (Reg.ONNAK_PORT_RETX_COUNT p) t.unacked.length
    s.modPeer n (fun x => { x with tx := modAt x.tx lane (fun t => { t with since := s.time.now }) })

/-- A standalone ACK on a port (R450); `gap` names no lane: the ack fields do. -/
def State.sendAck (s : State) (n p : Nat) (gap : Bool) : State :=
  s.transmit n p { OHdr.zero with type := Msg.ACK, flags := bitAt gap 0 } []

/-- An acknowledgement and limit arrive for a lane (R450). -/
def LaneTx.acked (t : LaneTx) (ack limit now : Nat) : LaneTx :=
  let left := t.unacked.filter (fun u => !seqLe u.1 ack)
  { t with unacked := left, limit := limit, since := if left.length < t.unacked.length then now else t.since }

/-! HELLO (R447, R448). -/

/-- The HELLO record of a port (R447): its fields one after another. `n` is the peer it answers, none for the group. -/
def State.helloRecord (s : State) (p : Nat) (n : Option Nat) : List Byte :=
  let session := match n with | some n => (s.peer n).session | none => 0
  let limits := match n with
    | some n => [s.limitOf n 0, s.limitOf n 1, s.limitOf n (2 + p)]
    | none => [31, 63, 127]
  natLE 4 (s.reg Reg.TOP_PART).toNat ++ natLE 1 0x10 ++ natLE 1 0x12 ++ natLE 4 (s.reg Reg.ONNAK_FLEET_ID).toNat ++ natLE 1 s.nodeId ++
    natLE 1 p ++ natLE 1 session ++ limits.flatMap (fun l => natLE 2 l) ++ s.portMac p ++ natLE 39 0

/-- The group address of HELLO (R447, R465). -/
def State.helloMac (s : State) : List Byte :=
  natLE 4 (s.reg Reg.ONNAK_HELLO_MAC_LO).toNat ++ natLE 2 (fld (s.reg Reg.ONNAK_HELLO_MAC_HI) 15 0)

/-- HELLO to the group on a port. -/
def State.sendHello (s : State) (p : Nat) : State :=
  let body := s.helloRecord p none
  let h := { OHdr.zero with version := 0x10, type := Msg.HELLO, src := s.nodeId, length := 64 }
  s.emit (.onnak p (s.wrap p s.helloMac (h.bytes ++ body)))

/-- HELLO that answers a peer's on a port. -/
def State.answerHello (s : State) (p n : Nat) (mac : List Byte) : State :=
  let h := { OHdr.zero with version := 0x10, type := Msg.HELLO, src := s.nodeId, dst := n, session := (s.peer n).session, length := 64 }
  s.emit (.onnak p (s.wrap p mac (h.bytes ++ s.helloRecord p (some n))))

/-! Requests (R451, R455, R456, R459). -/

/-- Binding m = q × 8 + n (R468). -/
def State.binding (s : State) (q n : Nat) : Binding := s.onnak.binds.getD (q * 8 + n) Binding.reset

/-- Update a binding. -/
def State.modBind (s : State) (q n : Nat) (f : Binding → Binding) : State :=
  { s with onnak := { s.onnak with binds := modAt s.onnak.binds (q * 8 + n) f } }

/-- The FLEET entry of a quay for a node. -/
def Quay.fleetE (x : Quay) (n : Nat) : Option FleetE :=
  match x.chart with | some c => c.fleet.find? (fun f => f.node = n) | none => none

/-- timeout_us of a FLEET entry, in ns: 0 means 2,000 µs (R58). -/
def FleetE.timeoutNs (f : FleetE) : Nat := (if f.timeoutUs = 0 then 2000 else f.timeoutUs) * 1000

/-- A stage met a status through one of its requests. -/
def State.gather (s : State) (t : ReqTag) (st : Status) : State :=
  if st = St.OK then s else s.modStage t.q t.frame t.stage (fun r => { r with gathered := addNew st r.gathered })

/-- A remote line is delivered to the stage that asked for it, in place of an earlier copy. -/
def State.deliver (s : State) (t : ReqTag) (pa : Nat) (data : List Byte) (poison : Bool) : State :=
  let same := fun (l : RemoteLine) => l.tag.quay = t.quay && l.tag.frame = t.frame && l.tag.stage = t.stage && l.pa = pa
  s.modMem (fun m => { m with delivered := m.delivered.filter (fun l => !same l) ++ [⟨t, pa, data, poison⟩] })

/-- Device address of an offset in a node's fleet window (R396, R453). -/
def fleetAddr (n off : Nat) : Nat := Addr.onnak + n * 0x1000000000 + off

/-- A request ends with a status: an error ends the operand as a fault partway through does, its lines poisoned (R416, R456). -/
def State.endRequest (s : State) (r : FleetReq) (st : Status) : State :=
  let s := { s with onnak := { s.onnak with reqs := s.onnak.reqs.filter (fun x => x ≠ r) } }
  let s := if st = St.OK then s else s.gather r.req st
  let s := if st ≠ St.OK ∧ (r.kind = .read ∨ r.kind = .stream) then
      (linesOf r.address r.count).foldl (fun s l =>
        s.deliver r.req (fleetAddr r.peer (64 * l)) (List.replicate 64 0#8) true) s
    else s
  let s := if st = St.TIMEOUT then s.bump (Reg.ONNAK_PEER_TIMEOUT_COUNT r.peer) else s
  s.modMem (fun m => { m with outstanding := m.outstanding.filter (fun o =>
    !(o.req.tag.quay = r.req.quay && o.req.tag.frame = r.req.frame && o.req.tag.stage = r.req.stage &&
      decide (fleetAddr r.peer r.address ≤ o.pa ∧ o.pa < fleetAddr r.peer r.address + max r.count 64))) })

/-- A request identifier not outstanding to a peer (R445). -/
def State.freshTag (s : State) (n : Nat) : Nat :=
  let used := (s.onnak.reqs.filter (fun r => r.peer = n)).map (·.tag)
  ((List.range (used.length + 1)).find? (fun i => !used.elem ((s.onnak.nextTag + i) % 0x10000))).elim 0 (fun i => (s.onnak.nextTag + i) % 0x10000)

/-- Send a request of a quay to a node (R445, R454, R456): it completes with FENCED when the binding is not BOUND. -/
def State.sendRequest (s : State) (q : Fin 4) (n : Nat) (kind : FleetKind) (ty : Nat) (t : ReqTag) (flags addr count : Nat)
    (payload : List Byte) (poison : Nat) : State :=
  let b := s.binding q n
  let f := s.quays[q].fleetE n
  let timeout := match f with | some f => f.timeoutNs | none => 2000000
  let tag := s.freshTag n
  let r : FleetReq := ⟨n, tag, kind, q, b.tide, t, addr, if kind = .write then payload.length else count, s.time.now, s.time.now + timeout, [], false⟩
  if kind ≠ .bind ∧ b.st ≠ .bound then s.endRequest r St.FENCED
  else
    let h : OHdr := { OHdr.zero with
      type := ty
      flags := flags
      dstQuay := f.elim 0 FleetE.remoteQuay
      dstTide := b.tide.toNat
      srcQuay := q
      srcTide := s.quays[q].tide.toNat
      handle := t.handle
      tag := tag
      frame := t.frame.toNat
      address := addr % 2 ^ 36
      count := count
      poison := poison }
    let s := { s with onnak := { s.onnak with reqs := s.onnak.reqs ++ [r], nextTag := (tag + 1) % 0x10000 } }
    s.sendMsg n 0 h payload

/-- The bind record of a quay (R454). -/
def State.bindRecord (s : State) (q : Fin 4) (tide minVersion : Nat) : List Byte :=
  let (per, ph) := match s.quays[q].chart with | some c => (c.cfg.periodUs, c.cfg.phaseUs) | none => (0, 0)
  natLE 4 per ++ natLE 4 ph ++ natLE 8 (s.reg64 Reg.HM_TICK_ORIGIN_LO) ++ s.grandmaster ++ natLE 1 (b2n s.time.locked) ++ natLE 1 tide ++
    natLE 1 minVersion ++ natLE 5 0

/-- Send a BIND to a node (R454). -/
def State.sendBind (s : State) (q : Fin 4) (n : Nat) : State :=
  let mv := match s.quays[q].fleetE n with | some f => f.minVersion | none => 0x10
  let s := s.modBind q n (fun b => { b with st := if b.st = .stale then .stale else .binding, sentAt := s.time.now })
  let s := { s with onnak := { s.onnak with reqs := s.onnak.reqs.filter (fun (r : FleetReq) =>
    !(decide (r.kind = FleetKind.bind) && r.quay = q.val && r.peer = n)) } }
  s.sendRequest q n FleetKind.bind Msg.BIND ⟨q, s.quays[q].tide, 0xFFFF, 0xFFFF, 0#32, 0, 0⟩ 0 0 0 (s.bindRecord q 0 mv) 0

/-- A quay enters RUNNING: Onnak binds it to every node of its FLEET section (R454). -/
def State.bindAll (s : State) (q : Fin 4) : State :=
  match s.quays[q].chart with
  | none => s
  | some c => c.fleet.foldl (fun s f => s.sendBind q f.node) s

/-- A quay leaves RUNNING, DOCKING and DOCKED: its bindings end; with them its requests and unsent frames (R454, R506). -/
def State.unbindAll (s : State) (q : Fin 4) : State :=
  let mine := fun (b : List Byte) => let h := OHdr.ofBytes (b.take 64); (h.type = Msg.WRITE || h.type = Msg.SIGNAL) && h.srcQuay = q.val
  { s with onnak := { s.onnak with
    binds := (enum s.onnak.binds).map (fun e => if e.1 / 8 = q.val then { e.2 with st := .none } else e.2)
    reqs := s.onnak.reqs.filter (fun r => r.quay ≠ q.val)
    packs := s.onnak.packs.filter (fun r => r.req.quay ≠ q.val)
    heldSignals := s.onnak.heldSignals.filter (fun r => r.2.1.quay ≠ q.val)
    peers := s.onnak.peers.map (fun x => { x with tx := x.tx.map (fun t => { t with waiting := t.waiting.filter (fun b => !mine b) }) }) } }

/-! Writes and signals of a stage (R456, R457). -/

/-- Send a packed WRITE (R456). A mask of whole bytes that is contiguous needs no masked write. -/
def State.sendPack (s : State) (w : WritePack) : State :=
  let s := { s with onnak := { s.onnak with packs := s.onnak.packs.filter (fun x => x ≠ w) } }
  let lines := ceilDiv w.bytes.length 64
  s.sendRequest w.req.q w.peer .write Msg.WRITE { w.req with handle := w.stream } 0 w.address 0 w.bytes
    (if w.poison then 2 ^ lines - 1 else 0)

/-- A 64-byte bit mask as the 16-byte mask of 4-bit elements (R445): bit 2j for the low half of byte j. -/
def nibbleMask (mask : List Byte) : List Byte :=
  (List.range 16).map (fun i => BitVec.ofNat 8 (sumNat ((List.range 4).map (fun k =>
    let m := (mask.getD (4 * i + k) 0#8).toNat
    bitAt (decide (m % 16 ≠ 0)) (2 * k) + bitAt (decide (m / 16 ≠ 0)) (2 * k + 1)))))

/-- A write of one line with a bit mask of 64 bytes goes as a masked write (R445, R456): with the nibble mask where every element boundary
falls on four bits; a bit-granular one is not sent to a peer below 1.2, and its operand meets VERSION. -/
def State.sendMasked (s : State) (peer : Nat) (t : ReqTag) (line : Nat) (data mask : List Byte) (nibbles poison : Bool) : State × Status :=
  if !nibbles ∧ (s.peer peer).version ≠ 0x12 then (s, St.VERSION)
  else
    (s.sendRequest t.q peer .write Msg.WRITE t (4 + bitAt (!nibbles) 4) line 0 (data ++ (if nibbles then nibbleMask mask else mask))
      (b2n poison), St.OK)

/-- Send every pack of a stage. -/
def State.flushPacks (s : State) (t : ReqTag) : State :=
  (s.onnak.packs.filter (fun w => w.req.quay = t.quay && w.req.frame = t.frame && w.req.stage = t.stage)).foldl (fun s w => s.sendPack w) s

/-- Bytes added to a pack that they continue; a full pack is sent (R456). -/
def State.packWrite (s : State) (n : Nat) (t : ReqTag) (stream addr : Nat) (bs : List Byte) (poison : Bool) : State :=
  match s.onnak.packs.find? (fun w => w.peer = n && w.req = t && w.stream = stream && w.address + w.bytes.length = addr &&
      w.poison = poison && decide (w.bytes.length + bs.length ≤ 4096)) with
  | some w =>
    let w' := { w with bytes := w.bytes ++ bs }
    let s := { s with onnak := { s.onnak with packs := s.onnak.packs.map (fun x => if x = w then w' else x) } }
    if w'.bytes.length = 4096 then s.sendPack w' else s
  | none => { s with onnak := { s.onnak with packs := s.onnak.packs ++ [⟨n, t, stream, addr, bs, s.time.now, poison⟩] } }

/-- A stage's packs as it left them are joined where they continue one another, and sent before it completes (R456). -/
def State.settlePacks (s : State) (t : ReqTag) : State :=
  let mine := s.onnak.packs.filter (fun w => w.req.quay = t.quay && w.req.frame = t.frame && w.req.stage = t.stage)
  let s := { s with onnak := { s.onnak with packs := s.onnak.packs.filter (fun w => !mine.elem w) } }
  let s := mine.foldl (fun s w => s.packWrite w.peer w.req w.stream w.address w.bytes w.poison) s
  s.flushPacks t

/-- Frame n of a quay is in flight and confirmed. -/
def State.isConfirmed (s : State) (q : Fin 4) (n : FrameNo) : Bool :=
  match s.quays[q].frame? n with
  | some f => f.confirmed
  | none => false

/-- A SIGNAL goes once the sender's frame is confirmed (R457). -/
def State.sendSignal (s : State) (n : Nat) (t : ReqTag) (addr : Nat) : State :=
  if s.isConfirmed t.q t.frame then (s.flushPacks t).sendRequest t.q n FleetKind.signal Msg.SIGNAL t 0 addr 0 [] 0
  else { s with onnak := { s.onnak with heldSignals := s.onnak.heldSignals ++ [(n, t, addr)] } }

/-- The signals that waited for a confirmation (R457). -/
def State.releaseSignals (s : State) (q : Fin 4) : State :=
  let ready := s.onnak.heldSignals.filter (fun h => h.2.1.quay = q.val && (match s.quays[q].frame? h.2.1.frame with
    | some f => f.confirmed && !f.squashed
    | none => true))
  let s := { s with onnak := { s.onnak with heldSignals := s.onnak.heldSignals.filter (fun h => !ready.elem h) } }
  ready.foldl (fun s h => (s.flushPacks h.2.1).sendRequest q h.1 .signal Msg.SIGNAL h.2.1 0 h.2.2 0 [] 0) s

/-! Peers lost and found (R448, R452, R464). -/

/-- A peer is named in the FLEET section of a RUNNING quay (R464). -/
def State.fleetRunning (s : State) (n : Nat) : Bool :=
  s.anyQuay (fun x => decide (x.st = .running) && (x.fleetE n).isSome)

/-- Every request to a peer completes at once with TIMEOUT and its bindings are LOST (R452). -/
def State.dropPeer (s : State) (n : Nat) : State :=
  let s := (s.onnak.reqs.filter (fun r => r.peer = n)).foldl (fun s r => s.endRequest r St.TIMEOUT) s
  { s with onnak := { s.onnak with
    binds := (enum s.onnak.binds).map (fun e => if e.1 % 8 = n ∧ e.2.st ≠ .none then { e.2 with st := .lost } else e.2)
    packs := s.onnak.packs.filter (fun w => w.peer ≠ n) } }

/-- A peer is lost (R452). -/
def State.losePeer (s : State) (n : Nat) : State :=
  let s := s.dropPeer n
  let s := s.modPeer n (fun x => { x with
    st := .down
    heard := []
    ackDue := []
    theirs := none
    tx := List.replicate 6 LaneTx.idle
    rx := List.replicate 6 LaneRx.idle })
  let s := (s.bump (Reg.ONNAK_PEER_LOST_COUNT n)).setEvent Reg.ONNAK_EVENT 1
  if s.fleetRunning n then s.service 5 else s

/-- FLEET_PEER's condition has ended when no peer that a RUNNING quay names is down or a duplicate (R550). -/
def State.settleFleetPeer (s : State) : State :=
  let bad := (List.range 8).any (fun n => s.fleetRunning n && ((s.peer n).st = .down || (s.peer n).st = .duplicate) &&
    decide ((s.reg (Reg.ONNAK_PEER_LOST_COUNT n)).toNat ≠ 0 ∨ (s.peer n).st = .duplicate))
  if !bad && flag (s.reg Reg.PMC_SERVICE_ACTIVE) 5 then s.serviceEnd 5 else s

/-- Restart the lanes of a pair (R448) with the peer's initial limits. -/
def Peer.restart (x : Peer) (limits : List Nat) (now : Nat) : Peer :=
  { x with
    tx := (List.range 6).map (fun l => { LaneTx.idle with limit := limits.getD (min l 2) 0 })
    rx := (List.range 6).map (fun l => { LaneRx.idle with limit := [31, 63, 127].getD (min l 2) 127 })
    lastRx := now
    ackDue := [] }

end Sys2Proof.Machine
end

