-- ==== Sys2Proof/Machine/View.lean ====
section
/-! DEFINITION. The registers that show state held elsewhere: what a read of each returns at once (R70, R91, R92, R121, R122,
R149-R152, R191-R193, R219, R220, R243, R244, R267-R269, R302, R323, R367, R382, R383, R393-R395, R409, R420, R441, R465-R469,
R496, R497, R513, R514, R537-R540, R552). Every other register reads what the register file holds. -/
namespace Sys2Proof.Machine

/-- Quay i, for a register index below 4. -/
def quayAt (i : Nat) : Fin 4 := (quayOf? i).getD 0

/-- The low and the high word of a 64-bit quantity, by which half is read. -/
def halfOf (hi : Bool) (v : Nat) : Word := if hi then w32 (v / 2 ^ 32) else w32 v

/-- HM_QUAY_STATUS (R91). -/
def Quay.statusWord (x : Quay) : Nat :=
  x.st.code + bitAt x.busy.isSome 3 + (x.lastOp % 16) * 16 + x.tide.toNat * 256 + x.lastStatus.toNat * 65536

/-- Frames now in flight: opened and not published (R45). -/
def Quay.inFlight (x : Quay) : Nat := (x.frames.filter (fun f => !f.committed)).length

/-- HM_QUAY_FREEWHEEL (R121): slot fields read 0 where there is no such frame. -/
def Quay.freewheelWord (x : Quay) : Nat :=
  let slot := fun (f : Option FrameRec) => match f with | some f => f.k % x.fif | none => 0
  x.inFlight % 4 + slot (x.frames.find? (fun f => !f.committed)) * 4 +
    slot ((x.frames.filter (fun f => f.confirmed && !f.squashed)).getLast?) * 16 + bitAt x.squashing 6

/-- Harbourmaster registers (R91, R121, R122, R538). -/
def State.viewHm (s : State) (a i : Nat) : Word :=
  let x := s.quays[quayAt i]
  if a = Reg.HM_HTIME_LO then halfOf false s.time.now
  else if a = Reg.HM_HTIME_HI then halfOf true s.time.now
  else if a = Reg.HM_TIME_STATUS then w32 (bitAt s.time.locked 0 + bitAt s.time.step.isSome 1 + bitAt s.time.slewing 2)
  else if a = Reg.HM_Q0_GUARD then w32 (fld (s.reg Reg.CG_Q0_GUARD) 0 0)
  else if a = Reg.HM_QUAY_STATUS i then w32 x.statusWord
  else if a = Reg.HM_QUAY_FREEWHEEL i then w32 x.freewheelWord
  else if a = Reg.HM_FAULT_STATUS then w32 s.faultFifo.length
  else if a = Reg.HM_FAULT_ENTRY_LO then
    (match s.faultFifo with | e :: _ => w32 (e.stage % 65536 + e.status.toNat * 65536 + (e.quay % 4) * 2 ^ 24) | [] => 0#32)
  else if a = Reg.HM_FAULT_ENTRY_HI then (match s.faultFifo with | e :: _ => e.frame | [] => 0#32)
  else if a = Reg.HM_CMDRING_STATUS i then w32 (x.requests.filter (fun r => r.voyage.isNone)).length
  else s.reg a

/-- The bank is mapped by a handle of a quay (R394). -/
def State.bankMapped (s : State) (bank : Nat) : Bool :=
  s.anyQuay (fun x => x.handles.any (fun h => decide (h.kind = 0) && (List.range h.length).any (fun k => bankOf (h.base + k) = bank)))

/-- Thirty-two bank bits (R394). -/
def bankBits (w : Nat) (p : Nat → Bool) : Word := w32 (sumNat ((List.range 32).map (fun b => bitAt (p (32 * w + b)) b)))

/-- The berths of a quay whose scrub has not ended (R388). -/
def Quay.scrubLeft (x : Quay) : Nat :=
  match x.st, x.chart with
  | .resetting, some c => c.cfg.berthCount
  | _, _ => 0

/-- Quay registers of the loaded chart, the scratchpad and the banks (R92, R393, R394). -/
def State.viewQuay (s : State) (a i : Nat) : Word :=
  let x := s.quays[quayAt i]
  let ch := fun (g : Chart → Nat) => match x.chart with | some c => w32 (g c) | none => 0#32
  let h := x.handle? (fld (s.reg (Reg.QUAY_SPAD_HANDLE_SEL i)) 9 0)
  if a = Reg.QUAY_MODE i then ch (fun c => bitAt c.cfg.piloted 0 + bitAt c.cfg.bollard 1 + (c.cfg.fif % 4) * 4 + bitAt c.clamped 4 +
    bitAt c.signed 5 + (c.major % 256) * 256 + (c.minor % 256) * 65536)
  else if a = Reg.QUAY_TICK_PERIOD i then ch (fun c => c.cfg.periodUs)
  else if a = Reg.QUAY_TICK_PHASE i then ch (fun c => c.cfg.phaseUs)
  else if a = Reg.QUAY_FLOOR i then ch (fun c => c.cfg.floorMhz % 2048)
  else if a = Reg.QUAY_BERTH_RANGE i then ch (fun c => c.cfg.berthFirst % 65536 + (c.cfg.berthCount % 49152) * 65536)
  else if a = Reg.QUAY_PCH_MAP i then
    (if x.chart.isSome then w32 (sumNat ((List.range 16).map (fun g => bitAt (x.groups.elem g) g))) else 0#32)
  else if a = Reg.QUAY_CHART_ID i then ch (fun c => c.chartId)
  else if a = Reg.QUAY_SPAD_STATUS i then
    w32 (bitAt (decide (x.scrubLeft ≠ 0)) 0 + bitAt (x.handles.any (fun e => e.fenced)) 1 + (x.scrubLeft % 65536) * 4)
  else if a = Reg.QUAY_SPAD_HANDLE_INFO i then
    (match h with
     | some e => w32 (e.kind % 4 + (e.access % 4) * 4 + bitAt e.fenced 4 + bitAt e.rotated 5 + 64)
     | none => 0#32)
  else if a = Reg.QUAY_SPAD_HANDLE_BASE i then
    (match h with
     | some e => if e.kind = 0 ∨ e.kind = 3 then w32 e.base else w32 (e.base / 4096)
     | none => 0#32)
  else if a = Reg.QUAY_SPAD_HANDLE_LEN i then (match h with | some e => w32 e.length | none => 0#32)
  else if a = Reg.QUAY_BANK_GATED i then bankBits i s.isGated
  else if a = Reg.QUAY_BANK_MAPPED i then bankBits i s.bankMapped
  else s.reg a

/-- A chart's SHARES entry for a port. -/
def Chart.shareOf (c : Chart) (p : Nat) : Option ShareE := c.shares.find? (fun e => e.port = p)

/-- The chart minimums of a quay on a port, summed (R383). -/
def Chart.minSum (c : Chart) (p : Nat) : Nat :=
  match c.shareOf p with | some e => e.rdMin + e.wrMin + e.rmMin | none => 0

/-- The sum of the chart minimums of the RUNNING quays on a port (R383, R395). -/
def State.portMinSum (s : State) (p : Nat) : Nat :=
  sumNat (allQuays.map (fun q => match s.quays[q].st, s.quays[q].chart with
    | .running, some c => c.minSum p
    | _, _ => 0))

/-- Lines per window of a port (R381). -/
def portCapacity (p : Nat) : Nat :=
  match p with
  | 2 => 76800
  | 3 => 76800
  | 5 => 781
  | _ => 16000

/-- Lines per window as they apply now: port 5 follows the fleet ports that are up (R460). -/
def State.portCap (s : State) (p : Nat) : Nat :=
  if p = 5 then portCapacity 5 * (s.onnak.ports.filter (fun x => x.up)).length / 4 else portCapacity p

/-- Derailleur registers (R395). -/
def State.viewDrl (s : State) (a i : Nat) : Word :=
  if a = Reg.DRL_STATUS then w32 (sumNat ((List.range 6).map (fun p => bitAt (decide (64 < s.portMinSum p)) p)))
  else if a = Reg.DRL_PORT_MIN_SUM i then w32 (s.portMinSum i % 256)
  else if a = Reg.DRL_PORT_CAPACITY i then w32 (s.portCap i)
  else s.reg a

/-- The frame record that a context's registers show: captured at the last read of CAMRX_CTX_FRAME (R150). -/
def State.ctxShown (s : State) (c : Nat) : Option StreamFrame := (s.cam.ctxs.getD c Ctx.reset).captured

/-- Camera ingress registers (R149-R152). -/
def State.viewCamrx (s : State) (a i : Nat) : Word :=
  let rec' := fun (g : StreamFrame → Nat) => match s.ctxShown i with | some f => w32 (g f) | none => 0#32
  let hi := fun (g : StreamFrame → Nat) => match s.ctxShown i with | some f => halfOf true (g f) | none => 0#32
  if a = Reg.CAMRX_PORT_STATUS i then w32 ((s.reg a).toNat % 8 / 2 * 2 + b2n (s.ownerOf Cls.CAMRX i).isSome)
  else if a = Reg.CAMRX_CTX_FRAME i then
    (match (s.cam.ctxs.getD i Ctx.reset).last with | some f => f.frame | none => 0#32)
  else if a = Reg.CAMRX_CTX_FLAGS i then rec' (fun f => f.flags % 65536)
  else if a = Reg.CAMRX_CTX_SOF_LO i then rec' (fun f => f.sof)
  else if a = Reg.CAMRX_CTX_SOF_HI i then hi (fun f => f.sof)
  else if a = Reg.CAMRX_CTX_EOF_LO i then rec' (fun f => f.eof)
  else if a = Reg.CAMRX_CTX_EOF_HI i then hi (fun f => f.eof)
  else if a = Reg.CAMRX_CTX_MID_LO i then rec' (fun f => f.mid)
  else if a = Reg.CAMRX_CTX_MID_HI i then hi (fun f => f.mid)
  else if a = Reg.CAMRX_CTX_TICKET i then rec' (fun f => f.ticket % 65536)
  else if a = Reg.CAMRX_CTX_SENSOR_COUNT i then rec' (fun f => f.sensorCount)
  else if a = Reg.CAMRX_CTX_SIGNATURE i then rec' (fun f => f.signature)
  else if a = Reg.CAMRX_TKT_RESULT_STATUS then w32 s.cam.results.length
  else if a = Reg.CAMRX_TKT_RESULT_LO then
    (match s.cam.results with | r :: _ => w32 (r.number % 65536 + (r.ctx % 32) * 65536 + r.status.toNat * 2 ^ 24) | [] => 0#32)
  else if a = Reg.CAMRX_TKT_RESULT_HI then (match s.cam.results with | r :: _ => r.actual | [] => 0#32)
  else s.reg a

/-- An instance is claimed by a loaded chart. -/
def State.claimed (s : State) (cls inst : Nat) : Bool := (s.ownerOf cls inst).isSome

/-- The job that runs on a vision instance. -/
def State.visRun? (s : State) (cls inst : Nat) : Option VisRun := s.vis.find? (fun v => v.cls = cls && v.inst = inst)

/-- Camera-pipe registers (R191, R192). A pass takes no time in this model: a pipe never shows a stall. -/
def State.viewCamp (s : State) (a i : Nat) : Word :=
  let k := s.camp.slots.getD i CampSlot.reset
  if a = Reg.CAMP_PIPE_STATUS i then
    let n := match s.ownerOf Cls.CAMP i with
      | some q => ((s.quays[q].campRecs).filter (fun r => r.1 = i)).length
      | none => 0
    w32 (b2n (s.claimed Cls.CAMP i) + (n % 16) * 4)
  else if a = Reg.CAMP_SLOT_LINES i then
    let cur := match k.runs with | r :: _ => r.lines | [] => 0
    w32 ((k.held.length % 16) + (s.reg a).toNat % 256 / 16 * 16 + (cur % 8192) * 256)
  else if a = Reg.CAMP_SLOT_ADJ i then w32 ((s.reg a).toNat % 65536 + (k.queue.length % 8) * 65536)
  else s.reg a

/-- The job bits of a vision class's STATUS register: claimed and job running. A job moves its data at once in this model: it
never shows a stall. -/
def State.jobBits (s : State) (cls i : Nat) : Nat := b2n (s.claimed cls i) + bitAt (s.visRun? cls i).isSome 1

/-- A pool of a quay's FEAT entry names block b (R263). -/
def State.inPool (s : State) (b : Nat) : Bool :=
  s.anyQuay (fun x => match x.chart with
    | none => false
    | some c => c.allStages.any (fun i => decide ((c.stageEngine i).cls = Cls.FEAT) &&
        (match x.jobOf i with | some (_, bs) => ((⟨bs⟩ : FeatJob).pool).elem b | none => false)))

/-- PYR, WARP, STEREO, FLOW, FEAT and LEDGER registers (R219, R220, R243, R244, R267, R268). -/
def State.viewVision (s : State) (a i : Nat) : Word :=
  if a = Reg.PYR_STATUS i then w32 (s.jobBits Cls.PYR i)
  else if a = Reg.WARP_STATUS i then
    w32 (s.jobBits Cls.WARP i + (match s.visRun? Cls.WARP i with | some v => (v.band % 4096) * 16 | none => 0))
  else if a = Reg.STEREO_STATUS i then w32 (s.jobBits Cls.STEREO i)
  else if a = Reg.FLOW_STATUS i then w32 (s.jobBits Cls.FLOW i)
  else if a = Reg.FEAT_STATUS i then w32 (s.jobBits Cls.FEAT i)
  else if a = Reg.LEDGER_SWEEP_STATUS then
    w32 (bitAt (s.ledger.sweeps.any (fun e => e.1 = 0)) 0 + bitAt (s.ledger.sweeps.any (fun e => e.1 = 1)) 1 +
      bitAt (!s.ledger.clears.isEmpty) 2)
  else if a = Reg.LEDGER_BLOCK_STATUS i then
    let o := s.ownerOf Cls.LEDGER i
    w32 (b2n o.isSome + (match o with | some q => q.val * 2 | none => 0) + bitAt (s.inPool i) 3 + (s.ledger.population i % 32768) * 16)
  else s.reg a

/-- SND and EDGE registers (R287, R302). -/
def State.viewSnd (s : State) (a : Nat) : Word :=
  if a = Reg.SND_STATUS then w32 (s.jobBits Cls.SND 0)
  else if a = Reg.EDGE_STATUS then
    let armed := decide (s.quays[(0 : Fin 4)].st = .running) && s.claimed Cls.EDGE 0
    w32 (bitAt armed 0 + bitAt s.edgeN 1 + bitAt s.edge.awaiting 2 + bitAt s.edge.disagree 3)
  else if a = Reg.EDGE_TRIPPED then w32 s.edgeBits
  else s.reg a

/-- ELV and LAYOUT registers (R323, R367). -/
def State.viewProg (s : State) (a i : Nat) : Word :=
  if a = Reg.ELV_STATUS i then
    let rs := s.prog.elv.getD i []
    let chain := match rs with
      | r :: _ => (match s.progStage (quayAt r.quay) r.idx with | some p => p.isChain | none => false)
      | [] => false
    w32 (b2n (s.claimed Cls.ELV i) + bitAt (!rs.isEmpty) 1 + bitAt (rs.any (fun r => r.tandem.isSome)) 2 +
      bitAt (rs.any (fun r => r.waiting)) 3 + bitAt chain 6 + (match rs with | r :: _ => (r.layer % 65536) * 65536 | [] => 0))
  else if a = Reg.LAYOUT_STATUS i then w32 (b2n (s.claimed Cls.LAYOUT i) + bitAt (!(s.prog.lay.getD i []).isEmpty) 1)
  else s.reg a

/-- HBM controller and translation registers (R409, R410, R420, R421). -/
def State.viewMem (s : State) (a i : Nat) : Word :=
  let list := s.mem.retired.getD i []
  if a = Reg.HBMC_STATUS i then
    w32 ((s.reg a).toNat / 2 * 2 % 65536 + b2n (decide (s.customs.trained.getD i none = some true)))
  else if a = Reg.HBMC_RETIRE_STATUS i then w32 list.length
  else if a = Reg.HBMC_RETIRE_ENTRY i then
    (match list[fld (s.reg (Reg.HBMC_RETIRE_INDEX i)) 9 0]? with
     | some e => w32 (e.page % 2 ^ 24 + 2 ^ 24 + bitAt e.byUE 25)
     | none => 0#32)
  else if a = Reg.HBMC_GROUP_RETIRED i then
    w32 (sumNat ((List.range 8).map (fun g => bitAt (s.mem.groupsRetired.elem (8 * i + g)) g)))
  else s.reg a

/-- One bit per channel. -/
def chanBits (p : Nat → Bool) : Word := w32 (sumNat ((List.range 32).map (fun n => bitAt (p n) n)))

/-- Tender registers (R440, R441). -/
def State.viewTender (s : State) (a i : Nat) : Word :=
  let t := s.chan i
  let cfg := s.chanCfg i
  let src := sideAddr cfg.srcMode cfg.srcRing t.src t.at'
  let dst := sideAddr cfg.dstMode cfg.dstRing t.dst t.at'
  if a = Reg.TENDER_BUSY then chanBits (fun n => (s.chan n).st ≠ .idle)
  else if a = Reg.TENDER_HALTED then chanBits (fun n => (s.chan n).st = .halted)
  else if a = Reg.TENDER_HELD then chanBits (fun n => (s.chanOwner n).isSome)
  else if a = Reg.TENDER_CH_STATUS i then
    w32 (t.st.code + bitAt t.trig 3 + t.lastStatus.toNat * 256 + t.cmdStatus.toNat * 65536)
  else if a = Reg.TENDER_CH_CUR_SRC_LO i then w32 src
  else if a = Reg.TENDER_CH_CUR_SRC_HI i then w32 (src / 2 ^ 32 % 65536)
  else if a = Reg.TENDER_CH_CUR_DST_LO i then w32 dst
  else if a = Reg.TENDER_CH_CUR_DST_HI i then w32 (dst / 2 ^ 32 % 65536)
  else if a = Reg.TENDER_CH_REMAIN i then w32 (t.count - t.at')
  else if a = Reg.TENDER_CH_CHECK i then w32 (checkValue cfg.check t.acc)
  else s.reg a

/-- Onnak and ETH_MGMT registers (R465-R469). -/
def State.viewOnnak (s : State) (a i : Nat) : Word :=
  let p := s.peer i
  let b := s.onnak.binds.getD i Binding.reset
  if a = Reg.ONNAK_NODE_ID then w32 (s.nodeId % 8)
  else if a = Reg.ONNAK_MAC_LO then w32 (leNat (slice s.customs.fuses.macBytes 0 4))
  else if a = Reg.ONNAK_MAC_HI then w32 (leNat (slice s.customs.fuses.macBytes 4 2))
  else if a = Reg.ONNAK_PORT_STATUS i then
    let port := s.port i
    w32 (b2n port.up + bitAt port.fecLocked 1 + sumNat ((List.range 8).map (fun n => bitAt ((s.peer n).heard.elem i) (n + 2))))
  else if a = Reg.ONNAK_PEER_STATE i then
    w32 (p.st.code + (p.version % 256) * 256 + (p.session % 256) * 65536 + sumNat ((s.reachable i).map (fun k => bitAt true (24 + k))))
  else if a = Reg.ONNAK_PEER_PART i then w32 p.part
  else if a = Reg.ONNAK_BIND_STATE i then
    let rq := match s.quays[quayAt (i / 8)].fleetE (i % 8) with | some f => f.remoteQuay % 4 | none => 0
    w32 (b.st.code + b.tide.toNat * 256 + b.lastStatus.toNat * 65536 + rq * 2 ^ 24)
  else if a = Reg.ONNAK_BIND_OUTSTANDING i then
    w32 ((s.onnak.reqs.filter (fun r => r.quay = i / 8 && r.peer = i % 8)).length % 2048)
  else if a = Reg.ETH_MGMT_STATUS then w32 (b2n s.eth.up + bitAt s.eth.active.isSome 1)
  else s.reg a

/-- The bits of latched causes (R486). -/
def latchedCauses : Nat := 0xBC1

/-- Coastguard registers (R496, R497). -/
def State.viewCg (s : State) (a i : Nat) : Word :=
  let c := s.cg
  let l := s.lh i
  let latched := Nat.land c.active latchedCauses
  let sel := fld (s.reg Reg.CG_AGE_SEL) 9 0
  if a = Reg.CG_STATUS then
    w32 (bitAt c.safe 0 + bitAt c.safeN 1 + bitAt (decide (latched ≠ 0)) 2 + bitAt c.copiesAgree 3 + bitAt (c.pairs.getD 0 false) 4 +
      bitAt (c.pairs.getD 1 false) 5)
  else if a = Reg.CG_CAUSE_ACTIVE then w32 c.active
  else if a = Reg.CG_CAUSE_LATCHED then w32 latched
  else if a = Reg.CG_RELEASE_STATUS then w32 (c.releaseStatus.toNat + (s.reg a).toNat / 65536 * 65536)
  else if a = Reg.CG_AGE_STAGE then
    (match s.quays[(0 : Fin 4)].chart with
     | some ch => (match ch.ages[sel]? with | some e => w32 (e.stage % 65536) | none => 0#32)
     | none => 0#32)
  else if a = Reg.CG_AGE_VALUE then
    (match c.ages.getD sel none with
     | some v => w32 (v % 2 ^ 17 + 2 ^ 17 + bitAt (c.overAge.elem sel) 18)
     | none => 0#32)
  else if a = Reg.CG_LH_STATE i then
    let named := match s.quays[(0 : Fin 4)].chart with | some ch => ch.lightSlots.elem i | none => false
    let n := s.reg (Reg.HM_QUAY_FRAME 0)
    w32 (l.outcome n % 4 + (l.outcome (n - 1#32) % 4) * 4 + bitAt l.fenced 4 + bitAt named 5)
  else s.reg a

/-- Salvage registers (R513, R514). -/
def State.viewSalvage (s : State) (a i : Nat) : Word :=
  let v := s.salv[quayAt i]
  if a = Reg.SALVAGE_STATUS then
    match allQuays.find? (fun q => (s.salv[q]).dump.isSome) with
    | some q => w32 (1 + 2 + q.val * 4)
    | none => 1#32
  else if a = Reg.SALVAGE_QUAY_STATUS i then
    w32 (v.phase.code + (v.reason % 8) * 8 + v.lastCmdStatus.toNat * 256 + (v.suspects.length % 4096) * 65536)
  else if a = Reg.SALVAGE_QUAY_DUMP_STATUS i then w32 (bitAt v.held 0 + (v.dumpWritten % 128) * 2 + bitAt v.dumpTrunc 8)
  else s.reg a

/-- The required floor (R543): the highest floor of the Moored quays that are active, and of a START that waits for a raise. -/
def State.requiredFloor (s : State) : Nat :=
  (allQuays.map (fun q =>
    let x := s.quays[q]
    match x.chart with
    | some c => if !c.cfg.piloted && (x.st.active || x.start.isSome) then c.cfg.floorMhz else 900
    | none => 900)).foldl max 900

/-- Temperature word of sensor k (R552). -/
def State.tempWord (s : State) (k : Nat) : Word :=
  match s.pmc.temps.getD k none with
  | none => 0#32
  | some t => w32 (fromSigned 9 t + 2 ^ 16 + bitAt (decide ((fld (s.reg Reg.PMC_THROTTLE_TEMP) 7 0 : Int) ≤ t)) 17)

/-- Clocks, power and thermal registers (R552). -/
def State.viewPmc (s : State) (a i : Nat) : Word :=
  let p := s.pmc
  if a = Reg.PMC_STATUS then
    w32 (b2n p.emergency + bitAt p.overEnvelope 1 + bitAt (flag (s.reg a) 2) 2 + bitAt (decide (s.reg Reg.PMC_SERVICE_ACTIVE ≠ 0#32)) 3)
  else if a = Reg.PMC_FLOOR_MHZ then w32 s.requiredFloor
  else if a = Reg.PMC_CORE_MHZ i then
    w32 ((if p.tripHold then 0 else p.core.getD i 0 % 2048) + (p.coreNext.getD i 0 % 2048) * 65536)
  else if a = Reg.PMC_APU_MHZ i then w32 (if p.tripHold then 0 else p.apu.getD i 0 % 4096)
  else if a = Reg.PMC_TEMP i then s.tempWord i
  else s.reg a

/-- The identity seed as Customs reads it: zero on an opened or killed device (R534, R535). -/
def State.identitySeed (s : State) : List Byte :=
  let f := s.customs.fuses
  let seed := if f.kill || f.opened then List.replicate 32 0#8 else f.identitySeed
  (sha512 ([0x53#8, 0x4B#8, 0x49#8, 0x44#8] ++ seed)).take 32

/-- The key of a slot, if the slot is valid (R530). -/
def State.keySlot (s : State) (k : Nat) : Option (List Byte) :=
  if k < 4 then (s.customs.fuses.slots.getD k none) else if k < 16 then s.customs.keys.getD (k - 4) none else none

/-- Customs and TOP registers (R537, R540). -/
def State.viewCustoms (s : State) (a i : Nat) : Word :=
  let c := s.customs
  let f := c.fuses
  if a = Reg.TOP_STRAPS then w32 (b2n c.strapSrc + bitAt c.strapRecovery 1 + (c.nodeId % 8) * 4)
  else if a = Reg.CUSTOMS_BOOT_STATUS then
    w32 (c.lastStep % 16 + c.failCode.toNat * 256 + bitAt c.recovery 16 + bitAt c.warm 17 + bitAt c.mediumEmmc 18)
  else if a = Reg.CUSTOMS_FUSE_STATE then w32 (f.rollback % 128 + bitAt f.sigRequired 8 + bitAt f.opened 9 + bitAt f.kill 10)
  else if a = Reg.CUSTOMS_IMAGE_VERSION then w32 c.imageVersion
  else if a = Reg.CUSTOMS_SLOT_VALID then w32 (sumNat ((List.range 16).map (fun k => bitAt (s.keySlot k).isSome k)))
  else if a = Reg.CUSTOMS_MB_STATUS then w32 (fld (s.reg a) 7 0 + bitAt c.mailbox.isSome 8)
  else if a = Reg.CUSTOMS_ID_PUB i then w32 (leAt (edPublic s.identitySeed) (4 * i) 4)
  else if a = Reg.CUSTOMS_DEBUG_NONCE i then w32 (leAt c.nonce (4 * i) 4)
  else if a = Reg.CUSTOMS_DEBUG_STATUS then
    w32 (b2n c.debugEnabled + bitAt f.opened 1 + c.lastUnlock.toNat * 256 + (min c.rejected 0xFFFF) * 65536)
  else s.reg a

/-- What a read of the register at `a` returns, before any capture or read-to-clear (R11, R13): 0 for a write-only register. -/
def State.view (s : State) (a : Nat) : Word :=
  match regRow a with
  | none => 0#32
  | some (r, i) =>
    if r.acc = .wo then 0#32
    else match blockOf a with
      | 0 => s.viewCustoms a i
      | 1 => s.viewHm a i
      | 2 => s.viewQuay a i
      | 3 => s.viewDrl a i
      | 4 => s.viewCamrx a i
      | 5 => s.viewCamp a i
      | 6 => s.viewVision a i
      | 7 => s.viewVision a i
      | 8 => s.viewVision a i
      | 9 => s.viewVision a i
      | 10 => s.viewVision a i
      | 11 => s.viewSnd a
      | 12 => s.viewProg a i
      | 13 => s.viewProg a i
      | 14 => s.viewTender a i
      | 15 => s.viewMem a i
      | 16 => s.viewMem a i
      | 17 => s.viewOnnak a i
      | 18 => s.viewCg a i
      | 19 => s.viewSalvage a i
      | 20 => s.viewPmc a i
      | 21 => s.viewCustoms a i
      | _ => s.reg a

end Sys2Proof.Machine
end

