-- ==== Sys2Proof/Machine/SalvOps.lean ====
section
/-! DEFINITION. Wait records (R499), unit records, shadow entries and dumps (R501-R505). -/
namespace Sys2Proof.Machine

/-! Wait records (R499). -/

/-- The stage that runs on a unit of a quay: its frame, and its run (R503). -/
def Quay.runningOn (x : Quay) (u : UnitId) : Option (FrameRec × StageRun) :=
  (x.frames.flatMap (fun f => (f.stages.filter StageRun.running).map (fun r => (f, r)))).find? (fun e =>
    let g := x.engineE e.2.idx
    decide ((g.cls, g.inst) = u))

/-- Members of a tensor stage's voyage in its frame, with their runs (R115). -/
def State.voyageRuns (s : State) (q : Fin 4) (n : FrameNo) (v : Nat) : List (Nat × ProgRun) :=
  (enum s.prog.elv).flatMap (fun e => (e.2.filter (fun r => r.quay = q.val && r.frame = n &&
    (match s.progStage q r.idx with | some p => p.voyage = v | none => false))).map (fun r => (e.1, r)))

/-- Waits at berth tags: each names the instance of the stage that writes the handle (R372). -/
def State.tagWaits (s : State) (q : Fin 4) : List WaitRec :=
  (s.mem.heldReads.filter (fun r => r.tag.quay = q.val)).map (fun r =>
    let e := s.quays[q].engineE r.tag.stage
    let target := match s.quays[q].chart with
      | some c => ((c.producers r.tag.handle).head?).map (fun i => let g := c.stageEngine i; (g.cls, g.inst))
      | none => none
    ⟨q, (e.cls, e.inst), r.since, target, 1, r.berth⟩)

/-- Waits at the Bollard: each names the lowest-numbered member not yet drained (R115). -/
def State.bollardWaits (s : State) (q : Fin 4) : List WaitRec :=
  (enum s.prog.elv).flatMap (fun e => (e.2.filter (fun r => r.quay = q.val && r.waiting)).map (fun r =>
    let late : List Nat := match s.progStage q r.idx with
      | some p => ((s.voyageRuns q r.frame p.voyage).filter (fun m => !m.2.waiting && decide (m.2.layer ≤ r.layer))).map (·.1)
      | none => []
    ⟨q, (Cls.ELV, e.1), r.startedAt, late.head?.map (fun i => (Cls.ELV, i)), 3, 0⟩))

/-- External waits of a quay's units: Derailleur windows and Onnak answers (R499). -/
def State.externalWaits (s : State) (q : Fin 4) : List WaitRec :=
  let of := fun (t : ReqTag) (since : Nat) =>
    let e := s.quays[q].engineE t.stage
    (⟨q, (e.cls, e.inst), since, none, 4, 0⟩ : WaitRec)
  (s.mem.drlWait.filterMap (fun w =>
    let t := match w with | .mem r => some r.tag | .berth r => some r.tag | .fleet _ _ _ => none
    match t with
    | some t => if t.quay = q.val then some (of t s.time.now) else none
    | none => none)) ++
    (s.onnak.reqs.filter (fun r => r.quay = q.val && decide (r.kind ≠ .bind))).map (fun r => of r.req r.issued)

/-- Every wait record of a quay; `space` holds the producers held for berth space in a fused ring, with the stage that holds
the space (R103, R499). -/
def State.waits (s : State) (q : Fin 4) (space : List (Nat × Nat)) : List WaitRec :=
  s.tagWaits q ++ space.map (fun e =>
    let a := s.quays[q].engineE e.1
    let b := s.quays[q].engineE e.2
    ⟨q, (a.cls, a.inst), 0, some (b.cls, b.inst), 2, 0⟩) ++ s.bollardWaits q ++ s.externalWaits q

/-- The record is blocked: the unit has waited 64 cycles (R499). -/
def State.isBlocked (s : State) (w : WaitRec) : Bool :=
  decide (64 ≤ s.cyclesSince (engineDie w.unit.1 w.unit.2) w.since)

/-- Units reached from a unit along blocked records, in order. -/
def waitWalk (ws : List WaitRec) : Nat → UnitId → List UnitId
  | 0, _ => []
  | fuel + 1, u =>
    u :: (match ws.find? (fun w => w.unit = u && w.target.isSome) with
      | some w => (match w.target with | some t => waitWalk ws fuel t | none => [])
      | none => [])

/-- A cycle among blocked records: its units, none where there is no cycle (R499). -/
def waitCycle (ws : List WaitRec) : List UnitId :=
  match (ws.map (·.unit)).find? (fun u => ((waitWalk ws (ws.length + 1) u).drop 1).elem u) with
  | some u => (u :: ((waitWalk ws (ws.length + 1) u).drop 1).takeWhile (fun v => v ≠ u))
  | none => []

/-! Unit records (R502, R503). -/

/-- The first eight registers of an instance's table, from its first register's address: addresses beyond the instance's stride
hold none. -/
def tableRegs (a : Nat) : List Nat :=
  match regRow a with
  | some (r, _) => (List.range 8).map (fun j => if r.count = 1 || 4 * j < r.stride then a + 4 * j else 2 ^ 32)
  | none => []

/-- The registers that a unit's record carries (R503). -/
def unitRegs (q : Nat) (u : UnitId) : List Nat :=
  let i := u.2
  match u.1 with
  | 0x10 => Reg.HM_QUAY_STATUS q :: (List.range 7).map (fun j => Reg.HM_QUAY_FREEWHEEL q + 4 * j)
  | 1 => tableRegs (Reg.CAMRX_PORT_STATUS i)
  | 2 => tableRegs (Reg.CAMP_PIPE_STATUS i)
  | 3 => tableRegs (Reg.PYR_STATUS i)
  | 4 => tableRegs (Reg.WARP_STATUS i)
  | 5 => tableRegs (Reg.STEREO_STATUS i)
  | 6 => tableRegs (Reg.FLOW_STATUS i)
  | 7 => tableRegs (Reg.FEAT_STATUS i)
  | 8 => tableRegs (Reg.LEDGER_BLOCK_STATUS i)
  | 9 => tableRegs Reg.SND_STATUS
  | 10 => tableRegs Reg.EDGE_STATUS
  | 11 => tableRegs (Reg.ELV_STATUS i)
  | 12 => tableRegs (Reg.LAYOUT_STATUS i)
  | 13 => (List.range 8).map (fun j => Reg.TENDER_CH_STATUS i + 4 * j)
  | 15 => tableRegs (Reg.CAMRX_FSYNC_EDGE_LO i)
  | 0x11 => tableRegs (Reg.DRL_PORT_MIN_SUM i)
  | 0x12 => tableRegs Reg.XLT_EVENT
  | 0x13 => tableRegs (Reg.HBMC_STATUS i)
  | 0x14 => tableRegs (Reg.ONNAK_BIND_STATE (q * 8 + i))
  | _ => []

/-- Outstanding reads and writes of a unit for a quay. -/
def State.unitRequests (s : State) (q : Fin 4) (u : UnitId) : Nat × Nat :=
  let out := s.mem.outstanding.filter (fun o => o.req.tag.quay = q.val)
  let pick := fun (p : Outstanding → Bool) =>
    (((out.filter p).filter (fun o => decide (o.req.kind = .read))).length, ((out.filter p).filter (fun o => decide (o.req.kind = .write))).length)
  match u.1 with
  | 0x13 => pick (fun o => regionOf o.pa = .hbm u.2)
  | 0x14 =>
    let rs := s.onnak.reqs.filter (fun r => r.quay = q.val && r.peer = u.2)
    ((rs.filter (fun r => decide (r.kind = .read ∨ r.kind = .stream))).length, (rs.filter (fun r => decide (r.kind = .write))).length)
  | 0x12 => ((s.mem.walks.filter (fun r => r.tag.quay = q.val && decide (r.kind = .read))).length,
      (s.mem.walks.filter (fun r => r.tag.quay = q.val && decide (r.kind = .write))).length)
  | 0x11 => (0, 0)
  | 0x10 => (0, 0)
  | _ => pick (fun o => let e := s.quays[q].engineE o.req.tag.stage; decide ((e.cls, e.inst) = u))

/-- The 64 bytes of a unit's live record (R503). -/
def State.unitRecord (s : State) (q : Fin 4) (u : UnitId) (cycle : List UnitId) : List Byte :=
  let w := (s.waits q []).find? (fun w => w.unit = u)
  let blocked := match w with | some w => s.isBlocked w | none => false
  let run := s.quays[q].runningOn u
  let (rd, wr) := s.unitRequests q u
  let active := run.isSome || decide (rd + wr ≠ 0)
  let kind := match w with | some w => w.kind | none => 0
  let target := match w with | some ⟨_, _, _, some t, _, _⟩ => t.1 * 256 + t.2 | _ => 0xFFFF
  let stage := match run with | some e => (s.quays[q].stageE e.2.idx).stage | none => 0xFFFF
  let frame := match run with | some e => e.1.num.toNat | none => 0
  let voyage := match run with
    | some e => (match e.2.request with
      | some r => r.voyage.getD 0xFFFF
      | none => (match s.progStage q e.2.idx with | some p => p.voyage | none => 0xFFFF))
    | none => 0xFFFF
  let regs := (unitRegs q u).map s.view
  natLE 1 u.1 ++ natLE 1 u.2 ++ natLE 1 0 ++
    natLE 1 (bitAt (cycle.elem u) 0 + bitAt blocked 1 + bitAt active 2 + bitAt (decide (kind = 4)) 3) ++ natLE 4 0 ++ natLE 2 target ++
    natLE 2 stage ++ natLE 4 frame ++ natLE 2 voyage ++ natLE 2 kind ++
    natLE 4 (match w with | some w => (if w.kind = 1 ∨ w.kind = 2 then w.object else 0) | none => 0) ++ natLE 4 rd ++ natLE 4 wr ++
    (List.range 8).flatMap (fun j => natLE 4 (match regs[j]? with | some v => v.toNat | none => 0))

/-- A unit's shadow entry (R501). -/
def State.shadowOf (s : State) (q : Fin 4) (u : UnitId) : Option Shadow := s.shadows.find? (fun e => e.quay = q.val && e.unit = u)

/-- A unit's record from its shadow, with state 1 UNREADABLE or 2 SHADOW and its age (R502, R503, R505). -/
def State.shadowRecord (s : State) (q : Fin 4) (u : UnitId) (state : Nat) (cycle : List UnitId) : List Byte :=
  let (rec', stamp) := match s.shadowOf q u with
    | some e => (e.record, e.stamp)
    | none => (natLE 1 u.1 ++ natLE 1 u.2 ++ List.replicate 62 0#8, 0)
  let flags := (leAt rec' 3 1 / 2) * 2 + b2n (cycle.elem u)
  overlay (overlay rec' 2 (natLE 1 state ++ natLE 1 flags)) 4 (natLE 4 (min (s.time.now - stamp) 0xFFFFFFFF))

/-! Dumps (R502-R505). -/

/-- Device address of a quay's dump buffer. -/
def State.dumpBase (s : State) (q : Fin 4) : Nat := s.addr48 (Reg.SALVAGE_QUAY_DUMP_LO q)

/-- Buffer bytes. -/
def State.dumpSize (s : State) (q : Fin 4) : Nat := (s.reg (Reg.SALVAGE_QUAY_DUMP_SIZE q)).toNat % 0x10000

/-- The dump header (R503). -/
def Dump.header (d : Dump) (q : Fin 4) (now : Nat) : List Byte :=
  [0x53#8, 0x4B#8, 0x53#8, 0x56#8] ++ natLE 1 1 ++ natLE 1 q ++ natLE 1 d.tide.toNat ++ natLE 1 d.reason ++ natLE 4 d.frame.toNat ++
    natLE 4 d.published.toNat ++ natLE 8 d.declaredAt ++ natLE 8 now ++ natLE 2 d.written ++ natLE 2 d.needed ++
    natLE 1 (bitAt d.truncated 0 + bitAt d.overtaken 1) ++ natLE 1 d.cycle.length ++ natLE 2 d.suspects ++ natLE 24 0

/-- Write the next unit's record of a running dump. -/
def State.dumpRecord (s : State) (q : Fin 4) (rec' : List Byte) : State :=
  match s.salv[q].dump with
  | none => s
  | some d =>
    let at' := 64 + 64 * d.written
    let fits := d.writing && decide (at' + 64 ≤ s.dumpSize q)
    let s := if fits then (s.devWrite .salvage (s.dumpBase q + at') rec').1 else s
    let d := { d with
      todo := d.todo.drop 1, written := if fits then d.written + 1 else d.written, truncated := d.truncated || (d.writing && !fits) }
    s.modSalv q (fun v => { v with
      dump := some d
      dumpWritten := if d.writing then d.written else v.dumpWritten
      dumpTrunc := if d.writing then d.truncated else v.dumpTrunc })

/-- A dump whose units are all read ends: its header is written and dump_done set. -/
def State.endDump (s : State) (q : Fin 4) : State :=
  match s.salv[q].dump with
  | none => s
  | some d =>
    let s := if d.writing then
        ((s.devWrite .salvage (s.dumpBase q) (d.header q s.time.now)).1).setEvent (Reg.SALVAGE_QUAY_EVENT q) 2
      else s
    s.modSalv q (fun v => { v with dump := none, phase := if v.phase = .dumping then .idle else v.phase })

/-- Every unit not yet read is written from its shadow, and the dump ends (R505, R507). -/
def State.closeDump (s : State) (q : Fin 4) : State :=
  match s.salv[q].dump with
  | none => s
  | some d =>
    let s := s.modSalv q (fun v => { v with dump := v.dump.map (fun d => { d with overtaken := true }) })
    (d.todo.foldl (fun s u => s.dumpRecord q (s.shadowRecord q u 2 d.cycle)) s).endDump q

end Sys2Proof.Machine
end

