-- ==== Sys2Proof/Machine/Boot.lean ====
section
/-! DEFINITION. Retirement of HBM pages and groups (R409, R410), and boot: the image's checks, the sequence of R527, the recovery path
(R526-R531), the Customs mailbox and debug tokens (R532-R535). -/
namespace Sys2Proof.Machine

/-! Retirement. -/

/-- Stack of a group. -/
def stackOf (g : Nat) : Nat := g / 8

/-- A group is retired (R410). -/
def State.retireGroup (s : State) (g : Nat) : State :=
  if s.mem.groupsRetired.elem g then s
  else ((s.modMem (fun m => { m with groupsRetired := m.groupsRetired ++ [g] })).setEvent (Reg.HBMC_EVENT (stackOf g)) 4).service 2

/-- The group of a 4 KiB page of a stack. -/
def pageGroup (st page : Nat) : Nat := 8 * st + page * 4096 / groupBytes

/-- A page is retired (R409). A page lies on all four pseudo-channels of its group (R399), so each of them has as many retired
pages as the group. -/
def State.retirePage (s : State) (st page : Nat) (byUE : Bool) : State :=
  let list := s.mem.retired.getD st []
  if list.any (fun e => e.page = page) then s
  else if list.length ≥ 1024 then s.retireGroup (pageGroup st page)
  else
    let list := list ++ [⟨page, byUE⟩]
    let s := (s.modMem (fun m => { m with retired := setAt m.retired st list })).setEvent (Reg.HBMC_EVENT st) 2
    let s := if list.length = 768 then (s.setEvent (Reg.HBMC_EVENT st) 16).service 2 else s
    if (list.filter (fun e => pageGroup st e.page = pageGroup st page)).length ≥ 64 then s.retireGroup (pageGroup st page) else s

/-- The page of an HBM address within its stack. -/
def hbmPage (a : Nat) : Nat := (match regionOf a with | .hbm 0 => a | _ => a - Addr.hbm1) / 4096

/-! Bytes at device addresses. -/

/-- `n` bytes at a device address, as a reader of device memory sees them. -/
def State.devBytes (s : State) (a n : Nat) : List Byte :=
  (List.range n).map (fun i => ((s.devRead (a + i) 1).2.1).getD 0 0#8)

/-! The boot image (R526, R527). -/

/-- A component entry: type, offset, length, load address, entry address. -/
structure ImgPart where
  kind : Nat
  off : Nat
  len : Nat
  load : Nat
  entry : Nat
  deriving DecidableEq, Repr

/-- Component entry `k` of an image. -/
def imgPart (bs : List Byte) (k : Nat) : ImgPart :=
  let o := 0x100 + 32 * k
  ⟨leAt bs o 1, leAt bs (o + 4) 4, leAt bs (o + 8) 4, leAt bs (o + 0x10) 8, leAt bs (o + 0x18) 8⟩

/-- The components of an image. -/
def imgParts (bs : List Byte) : List ImgPart := (List.range (leAt bs 5 1)).map (imgPart bs)

/-- Step 4: form, part code and key slot (R526, R527). Which code of R22 reports which check is log entry 46. -/
def State.imageStep4 (s : State) (bs : List Byte) : Status :=
  let n := leAt bs 0x0C 4
  let count := leAt bs 5 1
  let kinds := (imgParts bs).map (·.kind)
  let form := decide (slice bs 0 4 = [0x53#8, 0x4B#8, 0x49#8, 0x4D#8]) && decide (leAt bs 4 1 = 1) && decide (3 ≤ count ∧ count ≤ 4) &&
    decide (leAt bs 6 2 = 0) && decide (leAt bs 8 4 = 0x7460) && decide (n % 4096 = 0 ∧ n ≠ 0 ∧ n ≤ 268435456 ∧ n ≤ bs.length) &&
    decide (leAt bs 0x10 4 ≤ 64) && decide (leAt bs 0x18 8 = 0) && decide (leAt bs 0xA0 96 = 0) &&
    kinds.all (fun k => 1 ≤ k && k ≤ 4) && [2, 3, 4].all (fun k => kinds.count k = 1) && decide (kinds.count 1 ≤ 1) &&
    (List.range 16).all (fun k => k < count || decide (leAt bs (0x100 + 32 * k) 32 = 0))
  let key := leAt bs 0x14 4
  let keyOk := decide (key ≤ 1) && (s.keySlot key).isSome && !(key = 0 && (s.keySlot 1).isSome)
  if !form then St.REFUSED else if !keyOk then St.AUTH else St.OK

/-- Step 5: digest, signature and rollback (R527). -/
def State.imageStep5 (s : State) (bs : List Byte) : Status :=
  let n := leAt bs 0x0C 4
  let digest := sha512 (bs.take 0x20 ++ (bs.take n).drop 0x100)
  let sig := match s.keySlot (leAt bs 0x14 4) with
    | some k => edVerify k (slice bs 0 0x60) (slice bs 0x60 64)
    | none => false
  if digest ≠ slice bs 0x20 64 ∨ !sig then St.AUTH
  else if leAt bs 0x10 4 < s.customs.fuses.rollback then St.VERSION
  else St.OK

/-- Steps 4 and 5 of an image. -/
def State.imageCheck (s : State) (bs : List Byte) : Status :=
  let a := s.imageStep4 bs
  if a ≠ St.OK then a else s.imageStep5 bs

/-- Step 6: the KEYS component's records (R530). None where a record names no slot of 4 to 15 or lies outside the image. -/
def imageKeys (bs : List Byte) : Option (List (Option (List Byte))) :=
  match (imgParts bs).find? (fun p => p.kind = 1) with
  | none => some (List.replicate 12 none)
  | some p =>
    if p.len % 48 ≠ 0 ∨ p.off + p.len > bs.length then none
    else
      let recs := (List.range (p.len / 48)).map (fun k => slice bs (p.off + 48 * k) 48)
      if recs.all (fun r => 4 ≤ leAt r 0 1 && leAt r 0 1 ≤ 15) then
        some (recs.foldl (fun ks r => setAt ks (leAt r 0 1 - 4) (some (slice r 0x10 32))) (List.replicate 12 none))
      else none

/-- A component lies within the image. -/
def imgHolds (bs : List Byte) (kind : Nat) : Bool :=
  match (imgParts bs).find? (fun p => p.kind = kind) with
  | some p => decide (p.off + p.len ≤ bs.length)
  | none => false

/-! The sequence (R527). -/

/-- Update Customs. -/
def State.modCustoms (s : State) (f : CustomsState → CustomsState) : State := { s with customs := f s.customs }

/-- A step from 4 to 9 fails: the recovery path (R528). -/
def State.bootFail (s : State) (step : Nat) (code : Status) : State :=
  s.modCustoms (fun c => { c with
    lastStep := step - 1, failCode := code, recovery := true, phase := .recovery, received := [], lastAnnounce := s.time.now })

/-- Step 9: APU goes to its load address and core 0 starts (R527). -/
def State.bootStep9 (s : State) : State :=
  let bs := s.customs.image
  match (imgParts bs).find? (fun p => p.kind = 4) with
  | none => s.bootFail 9 St.REFUSED
  | some p =>
    if p.off + p.len > bs.length || !s.inSystemGroup p.load || (p.len ≠ 0 && !s.inSystemGroup (p.load + p.len - 1)) then s.bootFail 9 St.OOB
    else
      let s := s.store p.load (slice bs p.off p.len)
      (s.modCustoms (fun c => { c with lastStep := 9, phase := .done })).emit (.note "core start" 0 p.entry)

/-- After training, step 9; until then the ROM waits (R398, R527). -/
def State.bootResume (s : State) : State :=
  if s.customs.phase = .waitTraining ∧ s.customs.trained.all (fun t => t.isSome) then s.bootStep9 else s

/-- Steps 6 to 9 with an image that passed steps 4 and 5. `cold`: step 7 is not skipped (R527, R536). -/
def State.bootFrom6 (s : State) (bs : List Byte) (cold : Bool) : State :=
  let s := s.modCustoms (fun c => { c with
    image := bs, imageVersion := leAt bs 0x10 4, imageDigest := slice bs 0x20 64, lastStep := 5 })
  match imageKeys bs with
  | none => s.bootFail 6 St.REFUSED
  | some ks =>
    let s := s.modCustoms (fun c => { c with keys := if c.fuses.opened then List.replicate 12 none else ks, lastStep := 6 })
    if cold && !imgHolds bs 2 then s.bootFail 7 St.OOB
    else
      let s := if cold then { s with cg := { s.cg with pairs := [true, true], kickedAt := s.time.now } } else s
      if !imgHolds bs 3 then (s.modCustoms (fun c => { c with lastStep := 7 })).bootFail 8 St.OOB
      else (s.modCustoms (fun c => { c with lastStep := 8, phase := .waitTraining })).bootResume

/-- Boot from step 4 with the medium's contents (R527, R536). -/
def State.bootFrom4 (s : State) (cold : Bool) : State :=
  let bs := s.customs.medium
  let a := s.imageStep4 bs
  if a ≠ St.OK then s.bootFail 4 a
  else
    let b := s.imageStep5 bs
    if b ≠ St.OK then (s.modCustoms (fun c => { c with lastStep := 4 })).bootFail 5 b else s.bootFrom6 bs cold

/-- A fresh debug nonce: free values (R534). -/
def State.freshNonce (s : State) : State :=
  let (a, s) := s.draw
  let (b, s) := s.draw
  let (c, s) := s.draw
  let (d, s) := s.draw
  s.modCustoms (fun x => { x with nonce := natLE 8 a ++ natLE 8 b ++ natLE 8 c ++ natLE 8 d })

/-- COLD_RESET_RELEASE (R527, R537): the straps latch and the ROM runs from step 1. `sound`: the fuses' redundancy check passes. -/
def doColdResetRelease (src recovery : Bool) (node : Nat) (medium : List Byte) (sound : Bool) (s : State) : State :=
  if (!s.coldHeld ∧ s.customs.phase ≠ .held) ∨ s.pmc.tripHold then s
  else
    let s := { s with coldHeld := false }
    let s := s.modCustoms (fun c => { c with
      strapSrc := src, strapRecovery := recovery, nodeId := node % 8, mediumEmmc := src, medium := medium, lastStep := 1 })
    if !sound then
      let (code, s) := s.draw
      s.modCustoms (fun c => { c with phase := .halted, failCode := BitVec.ofNat 8 code })
    else
      let s := s.modCustoms (fun c => { c with
        fuses := if c.fuses.kill && !c.fuses.opened then { c.fuses with opened := true } else c.fuses
        trained := [none, none], lastStep := 3 })
      let s := s.freshNonce
      if recovery then s.modCustoms (fun c => { c with phase := .recovery, recovery := true, received := [], lastAnnounce := s.time.now })
      else s.bootFrom4 true

/-- HBM_TRAINING_DONE (R398, R410, R527). -/
def doHbmTrainingDone (stack : Nat) (ok : Bool) (s : State) : State :=
  if stack ≥ 2 ∨ s.customs.phase = .held ∨ s.customs.phase = .halted ∨ (s.customs.trained.getD stack none).isSome then s
  else
    let s := s.modCustoms (fun c => { c with trained := setAt c.trained stack (some ok) })
    let s := if ok then s else (List.range 8).foldl (fun s g => s.retireGroup (8 * stack + g)) (s.service 1)
    s.bootResume

/-- CORE_RELEASE (R527, R537): a 1 starts a core. -/
def State.coreRelease (s : State) (v : Word) : State :=
  s.setReg Reg.TOP_CORE_RELEASE (s.reg Reg.TOP_CORE_RELEASE ||| (v &&& 0xFFF#32))

/-! The recovery path (R528). -/

/-- A message of the recovery path: kind, status, offset and payload. -/
def romMsg (kind : Nat) (status : Status) (off : Nat) (payload : List Byte) : List Byte :=
  natLE 1 kind ++ natLE 1 status.toNat ++ natLE 2 0 ++ natLE 4 off ++ natLE 2 payload.length ++ natLE 6 0 ++ payload

/-- SLIP framing (RFC 1055). -/
def slip (bs : List Byte) : List Byte :=
  bs.flatMap (fun b => if b = 0xC0#8 then [0xDB#8, 0xDC#8] else if b = 0xDB#8 then [0xDB#8, 0xDD#8] else [b]) ++ [0xC0#8]

/-- Send a message on ETH_MGMT or on UART[0]. Its destination MAC address is the broadcast address (log entry 47). -/
def State.romSend (s : State) (uart : Bool) (msg : List Byte) : State :=
  if uart then s.emit (.uart (slip msg))
  else s.emit (.eth (List.replicate 6 0xFF#8 ++ s.customs.fuses.macBytes ++ [0x88#8, 0xB7#8] ++ msg))

/-- The ROM listens (R528). -/
def State.listening (s : State) : Bool := decide (s.customs.phase = .recovery)

/-- ANNOUNCE (R528), once a second, in both ways: part code, port MAC and failure code. -/
def doAnnounce (s : State) : State :=
  if !s.listening ∨ s.time.now < s.customs.lastAnnounce + 1000000000 then s
  else
    let msg := romMsg 1 s.customs.failCode 0 (natLE 4 0x7460 ++ s.customs.fuses.macBytes)
    ((s.romSend false msg).romSend true msg).modCustoms (fun c => { c with lastAnnounce := s.time.now })

/-- A DATA message of the recovery path (R528). -/
def doRomData (uart : Bool) (off : Nat) (bytes : List Byte) (s : State) : State :=
  if !s.listening ∨ bytes.length > 1024 then s
  else
    let next := s.customs.received.length
    if off = next then
      (s.modCustoms (fun c => { c with received := c.received ++ bytes })).romSend uart (romMsg 3 St.OK off [])
    else s.romSend uart (romMsg 3 St.OK next [])

/-- DONE (R528): steps 4 and 5 on the received image, then 6 to 9 from memory; a failed check is reported, and the ROM listens for
an image from its first byte again. -/
def doRomDone (uart : Bool) (s : State) : State :=
  if !s.listening then s
  else
    let bs := s.customs.received
    let code := s.imageCheck bs
    let s := s.romSend uart (romMsg 3 code bs.length [])
    if code = St.OK then s.bootFrom6 bs (!s.customs.warm)
    else s.modCustoms (fun c => { c with received := [], failCode := code })

/-! The Customs mailbox (R531-R534). -/

/-- Buffer, length, output and argument of the mailbox command. -/
def State.mbAddr (s : State) : Nat := s.addr48 Reg.CUSTOMS_MB_ADDR_LO
def State.mbOut (s : State) : Nat := s.addr48 Reg.CUSTOMS_MB_OUT_LO
def State.mbLen (s : State) : Nat := (s.reg Reg.CUSTOMS_MB_LEN).toNat
def State.mbArg (s : State) : Nat := (s.reg Reg.CUSTOMS_MB_ARG).toNat

/-- A mailbox command is taken: rejected with BUSY while one runs, otherwise its work is done and its status waits for completion
(R532). -/
def State.mailbox (s : State) (opcode : Nat) (work : State → State × Status) : State :=
  if s.customs.mailbox.isSome then s.answer St.BUSY
  else
    let (s, st) := work s
    (s.modCustoms (fun c => { c with mailbox := some ⟨opcode, st⟩ })).answer St.OK

/-- VERIFY (R532): steps 4 and 5. -/
def State.mbVerify (s : State) : State × Status := (s, s.imageCheck (s.devBytes s.mbAddr s.mbLen))

/-- DIGEST (R532). -/
def State.mbDigest (s : State) : State × Status :=
  ((s.devWrite .hm s.mbOut (sha512 (s.devBytes s.mbAddr s.mbLen))).1, St.OK)

/-- One quay's record in a report (R533). -/
def State.attestQuay (s : State) (q : Fin 4) : List Byte :=
  let x := s.quays[q]
  let head := natLE 1 x.st.code ++ natLE 1 x.tide.toNat
  match x.st, x.chart with
  | .empty, _ => head ++ List.replicate 78 0#8
  | _, none => head ++ List.replicate 78 0#8
  | _, some c =>
    let store := s.chartStore q
    head ++ natLE 1 (b2n c.signed) ++ natLE 1 0 ++ natLE 4 c.chartId ++ s.bytesAt (store + 0x64) 4 ++ natLE 4 0 ++ s.bytesAt (store + 0x20) 64

/-- ATTEST (R533). -/
def State.mbAttest (s : State) : State × Status :=
  let c := s.customs
  let seed := s.identitySeed
  let body := [0x53#8, 0x4B#8, 0x41#8, 0x54#8] ++ natLE 1 1 ++
    natLE 1 (bitAt c.fuses.opened 0 + bitAt c.fuses.sigRequired 1 + bitAt c.recovery 2 + bitAt (s.keySlot 2).isSome 3) ++ natLE 2 0x0200 ++
    natLE 4 0x7460 ++ natLE 1 c.nodeId ++ natLE 3 0 ++ natLE 4 c.fuses.rollback ++ natLE 4 c.imageVersion ++ natLE 8 s.time.now ++
    s.devBytes s.mbAddr 32 ++ edPublic seed ++ natLE 32 0 ++ slice c.imageDigest 0 64 ++ allQuays.flatMap s.attestQuay
  ((s.devWrite .hm s.mbOut (body ++ edSign seed body)).1, St.OK)

/-- ROLLBACK_ADVANCE (R531). -/
def State.mbRollback (s : State) : State × Status :=
  let v := s.mbArg
  if v > s.customs.imageVersion ∨ v > 64 ∨ v < s.customs.fuses.rollback then (s, St.REFUSED)
  else (s.modCustoms (fun c => { c with fuses := { c.fuses with rollback := v } }), St.OK)

/-- FUSE_PROGRAM (R531, R532). -/
def State.mbFuse (s : State) : State × Status :=
  let v := s.mbArg
  let f := s.customs.fuses
  if 1 ≤ v ∧ v ≤ 3 then
    if (f.slots.getD v none).isSome then (s, St.REFUSED)
    else
      let key := s.devBytes s.mbAddr 32
      (s.modCustoms (fun c => { c with fuses := { c.fuses with slots := setAt c.fuses.slots v (some key) } }), St.OK)
  else if v = 4 ∧ !f.sigRequired then (s.modCustoms (fun c => { c with fuses := { c.fuses with sigRequired := true } }), St.OK)
  else (s, St.REFUSED)

/-- A debug token is judged and, if accepted, acted on; each attempt draws a fresh nonce (R534). -/
def State.debugToken (s : State) (t : List Byte) : State × Status :=
  let key := match s.keySlot 3 with | some k => some k | none => s.keySlot 0
  let ok := decide (t.length = 144) && decide (slice t 0 4 = [0x53#8, 0x4B#8, 0x44#8, 0x55#8]) && decide (leAt t 4 1 = 1) &&
    decide (leAt t 5 11 = 0) && decide (slice t 0x10 32 = edPublic s.identitySeed) && decide (slice t 0x30 32 = s.customs.nonce) &&
    (match key with | some k => edVerify k (slice t 0 0x50) (slice t 0x50 64) | none => false)
  let s := s.freshNonce
  if !ok then (s.modCustoms (fun c => { c with lastUnlock := St.AUTH, rejected := c.rejected + 1 }), St.AUTH)
  else if s.customs.fuses.opened then (s.modCustoms (fun c => { c with lastUnlock := St.OK, debugEnabled := true }), St.OK)
  else
    (s.modCustoms (fun c => { c with
      fuses := { c.fuses with kill := true, opened := true, identitySeed := List.replicate 32 0#8 }
      keys := List.replicate 12 none, lastUnlock := St.OK, debugEnabled := true }), St.OK)

/-- DEBUG_OPEN (R534). -/
def State.mbDebug (s : State) : State × Status := s.debugToken (s.devBytes s.mbAddr 144)

/-- A write of an opcode to CUSTOMS_MB_CMD (R532): undefined opcodes end with REFUSED. -/
def State.mailboxCmd (s : State) (op : Nat) : State :=
  match op with
  | 1 => s.mailbox 1 State.mbVerify
  | 2 => s.mailbox 2 State.mbDigest
  | 3 => s.mailbox 3 State.mbAttest
  | 4 => s.mailbox 4 State.mbRollback
  | 5 => s.mailbox 5 State.mbFuse
  | 6 => s.mailbox 6 State.mbDebug
  | n => s.mailbox n (fun s => (s, St.REFUSED))

/-- MAILBOX_COMPLETE (R532). -/
def doMailboxComplete (s : State) : State :=
  match s.customs.mailbox with
  | none => s
  | some m => ((s.modCustoms (fun c => { c with mailbox := none })).put Reg.CUSTOMS_MB_STATUS m.status.toNat).raiseMsi 79

/-! The commands. -/

/-- COLD_RESET_RELEASE: PORST_N rises while the device is held. -/
def execColdResetRelease (src recovery : Bool) (node : Nat) (medium : List Byte) (sound : Bool) (s : State) : Res :=
  keepNow s (doColdResetRelease src recovery node medium sound s.begin)
def execHbmTrainingDone (stack : Fin 2) (ok : Bool) (s : State) : Res := act (doHbmTrainingDone stack ok) s
def execCoreRelease (v : Word) (s : State) : Res := act (fun s => (s.coreRelease v).answer St.OK) s
def execAnnounce (s : State) : Res := act doAnnounce s
def execData (uart : Bool) (off : Nat) (bytes : List Byte) (s : State) : Res := act (doRomData uart off bytes) s
def execDone (uart : Bool) (s : State) : Res := act (doRomDone uart) s
def execVerify (s : State) : Res := act (fun s => s.mailbox 1 State.mbVerify) s
def execDigest (s : State) : Res := act (fun s => s.mailbox 2 State.mbDigest) s
def execAttest (s : State) : Res := act (fun s => s.mailbox 3 State.mbAttest) s
def execRollbackAdvance (s : State) : Res := act (fun s => s.mailbox 4 State.mbRollback) s
def execFuseProgram (s : State) : Res := act (fun s => s.mailbox 5 State.mbFuse) s
def execDebugOpen (s : State) : Res := act (fun s => s.mailbox 6 State.mbDebug) s
def execMailboxComplete (s : State) : Res := act doMailboxComplete s
def execUnlock (token : List Byte) (s : State) : Res := act (fun s => let (s, st) := s.debugToken token; s.answer st) s

end Sys2Proof.Machine
end

