-- ==== Sys2Proof/Machine/CampImg.lean ====
section
/-! DEFINITION. What a camera pipe computes (R155-R168, R172-R175, R178, R188): the eleven stages from CSI-2 bytes to colour,
the resampled and normalised outputs, and the statistics. A pixel plane is a function of column and row. -/
namespace Sys2Proof.Machine

/-- A plane of pipe-domain values. -/
abbrev Plane := Nat → Nat → Nat

/-- A stream record's parameters (R187) with the sizes of its stream. -/
structure CampRec where
  bytes : List Byte
  w : Nat
  h : Nat
  /-- CSI-2 data type. -/
  dt : Nat
  deriving DecidableEq, Repr

/-- Clamp to the pipe domain. -/
def pipeClamp (i : Int) : Nat := (clampInt 0 65535 i).toNat

/-- Arithmetic shift right. -/
def asr (i : Int) (n : Nat) : Int := i / ((2 ^ n : Nat) : Int)

/-- A coordinate replaced by the nearest in-range one congruent to it modulo the CFA period (R158). -/
def edgeCoord (n p : Nat) (i : Int) : Nat :=
  if i < 0 then min (n - 1) (i % (p : Int)).toNat
  else if i < (n : Int) then i.toNat
  else n - 1 - ((n - 1 + p - (i % (p : Int)).toNat % p) % p)

/-- The samples of a line from its CSI-2 payload (R157, R329): one list for RAW types; U, Y, V, Y bytes for YUV422. -/
def unpackLine (dt w : Nat) (bs : List Byte) : List Nat :=
  (List.range w).map (fun x =>
    match dt with
    | 0x2B => elemIn 0x10 (slice bs (5 * (x / 4)) 5) (x % 4)
    | 0x2C => elemIn 0x11 (slice bs (3 * (x / 2)) 3) (x % 2)
    | 0x2D => elemIn 0x12 (slice bs (7 * (x / 4)) 7) (x % 4)
    | 0x2E => leAt bs (2 * x) 2
    | _ => leAt bs (2 * x + 1) 1)

/-- U and V of each pixel of a YUV422 line. -/
def unpackChroma (w : Nat) (bs : List Byte) (v : Bool) : List Nat :=
  (List.range w).map (fun x => leAt bs (4 * (x / 2) + (if v then 2 else 0)) 1)

/-- A sample in the pipe domain (R157). -/
def toPipe (dt s : Nat) : Nat :=
  match dt with
  | 0x2B => (s * 64) ||| (s / 16)
  | 0x2C => (s * 16) ||| (s / 256)
  | 0x2D => (s * 4) ||| (s / 4096)
  | 0x2E => s
  | _ => s * 257

/-- The bytes of a line of `w` pixels (R124, R157). -/
def lineBytes (dt w : Nat) : Nat :=
  match dt with
  | 0x2B => w * 5 / 4
  | 0x2C => w * 3 / 2
  | 0x2D => w * 7 / 4
  | _ => w * 2

namespace CampRec

/-- Record fields. -/
def u (r : CampRec) (o n : Nat) : Nat := leAt r.bytes o n
def cfa (r : CampRec) : Nat := r.u 2 1
def period (r : CampRec) : Nat := cfaPeriod r.cfa

/-- Colour code of the sample at (x, y): 0 R, 1 G, 2 B, 3 IR (section "The CFA"). -/
def code (r : CampRec) (x y : Nat) : Nat :=
  match r.cfa with
  | 1 => r.u 4 4 / 4 ^ (4 * (y % 2) + x % 2) % 4
  | 2 => r.u 4 4 / 4 ^ (4 * (y % 4) + x % 4) % 4
  | _ => 1

/-- Black level of a sample of code `c` (R159). -/
def black (r : CampRec) (c v : Nat) : Nat :=
  let b := r.u (0x10 + 2 * c) 2
  if v ≤ b then 0 else min 65535 (((v - b) * (2 ^ 30 / (65536 - b)) + 2 ^ 13) / 2 ^ 14)

/-- Insert into a rising list. -/
def insertSorted (v : Nat) : List Nat → List Nat
  | [] => [v]
  | x :: xs => if v ≤ x then v :: x :: xs else x :: insertSorted v xs

/-- The neighbours of R160: the samples of the same code at its offsets. -/
def dpcNeighbours (r : CampRec) (pl : Plane) (x y : Nat) : List Nat :=
  let k : Int := if r.cfa = 0 then 1 else 2
  let offs : List (Int × Int) := [(-k, -k), (0, -k), (k, -k), (-k, 0), (k, 0), (-k, k), (0, k), (k, k)]
  offs.filterMap (fun o =>
    let nx := edgeCoord r.w r.period ((x : Int) + o.1)
    let ny := edgeCoord r.h r.period ((y : Int) + o.2)
    if r.code nx ny = r.code x y then some (pl nx ny) else none)

/-- Defective-pixel correction (R160): the value and whether it was replaced. -/
def dpc (r : CampRec) (pl : Plane) (x y : Nat) : Nat × Bool :=
  let t := r.u 0x18 2
  let v := pl x y
  let ns := (r.dpcNeighbours pl x y).foldl (fun a n => insertSorted n a) []
  if t = 0 ∨ ns.length < 2 then (v, false)
  else
    let lo := ns.headD 0
    let hi := ns.getLastD 0
    if v > hi + t ∨ v + t < lo then
      let n := ns.length
      (if n % 2 = 1 then ns.getD (n / 2) 0 else (ns.getD (n / 2 - 1) 0 + ns.getD (n / 2) 0) / 2, true)
    else (v, false)

/-- Lens shading (R161). -/
def shade (r : CampRec) (pl : Plane) (x y : Nat) : Nat :=
  let v := pl x y
  if !bitOf (r.u 3 1) 0 then v
  else
    let g := fun (gy gx : Nat) => r.u (0x588 + 2 * ((gy * 17 + gx) * 4 + r.code x y)) 2
    let uu := x * 65536 / (r.w - 1)
    let vv := y * 65536 / (r.h - 1)
    let gx := min 15 (uu / 4096)
    let gy := min 15 (vv / 4096)
    let a := uu - 4096 * gx
    let c := vv - 4096 * gy
    let top := g gy gx * (4096 - a) + g gy (gx + 1) * a
    let bot := g (gy + 1) gx * (4096 - a) + g (gy + 1) (gx + 1) * a
    let gain := (top * (4096 - c) + bot * c + 2 ^ 23) / 2 ^ 24
    min 65535 ((v * gain + 2048) / 4096)

/-- The filters of Malvar, He and Cutler in sixteenths (R162; PRESUMED from the paper the rule names, log entry 30): green at
red or blue, a colour at green with that colour's neighbours in the row, in the column, and red at blue or blue at red. -/
def malvar (kind : Nat) : List (Int × Int × Int) :=
  match kind with
  | 0 => [(0, 0, 8), (-1, 0, 4), (1, 0, 4), (0, -1, 4), (0, 1, 4), (-2, 0, -2), (2, 0, -2), (0, -2, -2), (0, 2, -2)]
  | 1 => [(0, 0, 10), (-1, 0, 8), (1, 0, 8), (-2, 0, -2), (2, 0, -2), (-1, -1, -2), (1, -1, -2), (-1, 1, -2), (1, 1, -2),
      (0, -2, 1), (0, 2, 1)]
  | 2 => [(0, 0, 10), (0, -1, 8), (0, 1, 8), (0, -2, -2), (0, 2, -2), (-1, -1, -2), (1, -1, -2), (-1, 1, -2), (1, 1, -2),
      (-2, 0, 1), (2, 0, 1)]
  | _ => [(0, 0, 12), (-1, -1, 4), (1, -1, 4), (-1, 1, 4), (1, 1, 4), (-2, 0, -3), (2, 0, -3), (0, -2, -3), (0, 2, -3)]

/-- A filter applied at (x, y). -/
def applyFilter (r : CampRec) (pl : Plane) (x y : Nat) (f : List (Int × Int × Int)) : Nat :=
  let s := sumInt (f.map (fun t =>
    t.2.2 * (pl (edgeCoord r.w r.period ((x : Int) + t.1)) (edgeCoord r.h r.period ((y : Int) + t.2.1)) : Int)))
  pipeClamp (asr (s + 8) 4)

/-- The mean, rounded half up, of the samples of code `c` at the smallest Chebyshev distance at which one exists (R162). -/
def irMean (r : CampRec) (pl : Plane) (c x y : Nat) : Nat :=
  let ring := fun (d : Int) => ((List.range 25).map (fun k => (((k % 5 : Nat) : Int) - 2, ((k / 5 : Nat) : Int) - 2))).filterMap
    (fun (o : Int × Int) =>
      if max o.1.natAbs o.2.natAbs = d.natAbs then
        let nx := edgeCoord r.w r.period ((x : Int) + o.1)
        let ny := edgeCoord r.h r.period ((y : Int) + o.2)
        if r.code nx ny = c then some (pl nx ny) else none
      else none)
  let ns := if ring 1 = [] then ring 2 else ring 1
  if ns = [] then 0 else (2 * sumNat ns + ns.length) / (2 * ns.length)

/-- Demosaic (R162): channel `c` (0 R, 1 G, 2 B, 3 IR) at (x, y). -/
def demosaic (r : CampRec) (pl : Plane) (c x y : Nat) : Nat :=
  let here := r.code x y
  if r.cfa = 0 ∨ r.cfa = 3 ∨ here = c then pl x y
  else if r.cfa = 2 then r.irMean pl c x y
  else if c = 1 then r.applyFilter pl x y (malvar 0)
  else if here = 1 then
    (if r.code (edgeCoord r.w 2 ((x : Int) + 1)) y = c then r.applyFilter pl x y (malvar 1)
    else r.applyFilter pl x y (malvar 2))
  else r.applyFilter pl x y (malvar 3)

end CampRec

/-- An adjustment record's values (R188). -/
structure Adj where
  bytes : List Byte
  deriving DecidableEq, Repr

/-- Its gains, matrix entries, offsets and curve. -/
def Adj.wb (a : Adj) (c : Nat) : Nat := leAt a.bytes (2 * c) 2
def Adj.curve (a : Adj) : Nat := leAt a.bytes 6 1
def Adj.ccm (a : Adj) (i j : Nat) : Int := toSigned 16 (leAt a.bytes (8 + 2 * (3 * i + j)) 2)
def Adj.off (a : Adj) (i : Nat) : Int := toSigned 16 (leAt a.bytes (0x1A + 2 * i) 2)

/-- An adjustment's fields are in range (R169, R188). -/
def Adj.ok (a : Adj) : Bool :=
  a.bytes.length = 64 && (List.range 3).all (fun c => a.wb c ≤ 0x8000) && a.curve ≤ 2 && leAt a.bytes 7 1 = 0 &&
    leNat (slice a.bytes 0x20 32) = 0

/-- Round n ÷ d to the nearest integer. -/
def roundDiv (n d : Int) : Int := (2 * n + d) / (2 * d)

/-- The luma weights kr and kb of a conversion, in ten-thousandths (R168). -/
def lumaWeights (conv : Nat) : Int × Int := if conv = 1 then (2990, 1140) else (2126, 722)

/-- Row `i` (Y, U, V) of the conversion matrix, in units of 2^-14 (R168). -/
def convRow (conv i : Nat) : List Int :=
  let (kr, kb) := lumaWeights conv
  let kg := 10000 - kr - kb
  let (sn, sd) : Int × Int := if conv = 3 then (if i = 0 then (219, 255) else (224, 255)) else (1, 1)
  let (row, d) : List Int × Int := match i with
    | 0 => ([kr, kg, kb], 10000)
    | 1 => ([-kr, -kg, 10000 - kb], 2 * (10000 - kb))
    | _ => ([10000 - kr, -kg, -kb], 2 * (10000 - kr))
  row.map (fun n => roundDiv (n * sn * 16384) (d * sd))

/-- The offset of row `i` (R168). -/
def convOffset (conv i : Nat) : Int := if i = 0 then (if conv = 3 then 4112 else 0) else 32768

/-- Everything a frame's pixels depend on: the record, the raw lines (samples; U and V for YUV422), and the adjustment. -/
structure CampFrame where
  rec' : CampRec
  adj : Adj
  raw : Plane
  chroma : Bool → Plane

namespace CampFrame

/-- Stage 1: the pipe-domain sample (channel 0 Y, 1 U, 2 V for YUV422). -/
def unpacked (f : CampFrame) (c : Nat) : Plane := fun x y =>
  if f.rec'.cfa = 3 then toPipe 0x1E (match c with | 0 => f.raw x y | 1 => f.chroma false x y | _ => f.chroma true x y)
  else toPipe f.rec'.dt (f.raw x y)

/-- Stage 2. -/
def blacked (f : CampFrame) : Plane := fun x y => f.rec'.black (f.rec'.code x y) (f.unpacked 0 x y)
/-- Stage 3. -/
def corrected (f : CampFrame) : Plane := fun x y => (f.rec'.dpc f.blacked x y).1
/-- Stage 4. -/
def shaded (f : CampFrame) : Plane := fun x y => f.rec'.shade f.corrected x y
/-- Stage 5. -/
def coloured (f : CampFrame) (c : Nat) : Plane := fun x y => f.rec'.demosaic f.shaded c x y

/-- Stage 6 (R163). -/
def irSubtracted (f : CampFrame) (c : Nat) : Plane := fun x y =>
  let v := f.coloured c x y
  if f.rec'.cfa = 2 ∧ c < 3 then v - (f.rec'.u (0x1C + c) 1 * f.coloured 3 x y + 128) / 256 else v

/-- Stage 7 (R164). -/
def balanced (f : CampFrame) (c : Nat) : Plane := fun x y =>
  let v := f.irSubtracted c x y
  if f.rec'.cfa = 0 then v else min 65535 ((v * f.adj.wb c + 2048) / 4096)

/-- Stage 8 (R165). -/
def matrixed (f : CampFrame) (c : Nat) : Plane := fun x y =>
  if f.rec'.cfa = 0 then f.balanced c x y
  else
    let s := sumInt ((List.range 3).map (fun j => f.adj.ccm c j * (f.balanced j x y : Int)))
    pipeClamp (asr (s + 512) 10 + f.adj.off c)

/-- Stage 9 (R166). -/
def toned (f : CampFrame) (c : Nat) : Plane := fun x y =>
  let v := f.matrixed c x y
  if f.adj.curve ≥ 2 then v
  else
    let t := fun (i : Nat) => f.rec'.u (0x180 + 514 * f.adj.curve + 2 * i) 2
    let i := v / 256
    pipeClamp ((t i : Int) + asr (((t (i + 1) : Int) - t i) * ((v % 256 : Nat) : Int) + 128) 8)

/-- The value entering stage 10: YUV422 passes stages 2 to 9 unchanged. -/
def beforeNr (f : CampFrame) (c : Nat) : Plane := if f.rec'.cfa = 3 then f.unpacked c else f.toned c

/-- Stage 10 (R167). -/
def denoised (f : CampFrame) (c : Nat) : Plane := fun x y =>
  let r := f.rec'
  let v := f.beforeNr c
  let p := v x y
  let strength := r.u 0x1A 1
  if strength = 0 then p
  else
    let terms := (List.range 25).map (fun k =>
      let dx : Int := ((k % 5 : Nat) : Int) - 2
      let dy : Int := ((k / 5 : Nat) : Int) - 2
      let q := v (edgeCoord r.w 1 ((x : Int) + dx)) (edgeCoord r.h 1 ((y : Int) + dy))
      let diff := if q ≥ p then q - p else p - q
      let sw := if max dx.natAbs dy.natAbs ≤ 1 then 4 else 1
      (sw * r.u (0x20 + min 15 (diff / 2 ^ r.u 0x1B 1)) 1, q))
    let total := sumNat (terms.map (·.1))
    let m := if total = 0 then p else (sumNat (terms.map (fun t => t.1 * t.2)) + total / 2) / total
    pipeClamp ((p : Int) + asr (((m : Int) - p) * strength + 8) 4)

/-- Stage 11 (R168). -/
def converted (f : CampFrame) (c : Nat) : Plane := fun x y =>
  let conv := f.rec'.u 0x1F 1
  if conv = 0 ∨ f.rec'.cfa = 0 ∨ f.rec'.cfa = 3 then f.denoised c x y
  else
    let s := sumInt ((enum (convRow conv c)).map (fun k => k.2 * (f.denoised k.1 x y : Int)))
    pipeClamp (asr (s + 8192) 14 + convOffset conv c)

/-- The plane an output content takes for channel `c` (R172). -/
def tapped (f : CampFrame) (content c : Nat) : Plane :=
  match content with
  | 4 => f.irSubtracted 3
  | 5 => f.shaded
  | 2 => f.converted (2 - c)
  | _ => f.converted c

end CampFrame

/-- Area resampling along one axis (R173): output element `j` of `n` from `m` inputs read by `v`. -/
def areaSample (m n j : Nat) (v : Nat → Nat) : Nat :=
  let a := 64 * j * m / n
  let b := 64 * (j + 1) * m / n
  let d := b - a
  let s := sumNat ((List.range (ceilDiv b 64 - a / 64)).map (fun k =>
    let i := a / 64 + k
    (min b (64 * i + 64) - max a (64 * i)) * v i))
  (s + d / 2) / d

/-- An output record's fields (R189). -/
structure CampOut where
  bytes : List Byte
  deriving DecidableEq, Repr
def CampOut.u (o : CampOut) (a n : Nat) : Nat := leAt o.bytes a n

/-- A resampled value of an output (R173). -/
def CampFrame.resampled (f : CampFrame) (o : CampOut) (c x y : Nat) : Nat :=
  let (cx, cy, cw, ch) := (o.u 4 2, o.u 6 2, o.u 8 2, o.u 0xA 2)
  areaSample ch (o.u 0xE 2) y (fun j => areaSample cw (o.u 0xC 2) x (fun i => f.tapped (o.u 0 1) c (cx + i) (cy + j)))

/-- The output code of a resampled value (R174). -/
def CampOut.convert (o : CampOut) (c v : Nat) : Nat :=
  let fmt := o.u 2 1
  let x := f32Div (f32OfInt v) (f32OfInt 65535)
  let y := if o.u 3 1 = 0 then x
    else f32Mul (f32Sub x (to32 (fp16.decode (o.u (0x10 + 2 * c) 2)))) (to32 (fp16.decode (o.u (0x18 + 2 * c) 2)))
  if o.u 3 1 = 0 ∧ fmt = 0x02 then min 255 ((v + 128) / 256)
  else if o.u 3 1 = 0 ∧ fmt = 0x04 then v
  else encodeNum fmt 0 (.v (f32 y))

/-- The bytes of output row `y`, padded to the pitch (R175): for CHW one row of plane `c`. -/
def CampFrame.outRow (f : CampFrame) (o : CampOut) (c y : Nat) : List Byte :=
  let e := elemBytes (o.u 2 1)
  let w := o.u 0xC 2
  let n := contentChannels (o.u 0 1)
  let px := if o.u 1 1 = 0 then
      (List.range w).flatMap (fun x => (List.range n).flatMap (fun k => natLE e (o.convert k (f.resampled o k x y))))
    else (List.range w).flatMap (fun x => natLE e (o.convert c (f.resampled o c x y)))
  px ++ List.replicate (pitchOf px.length - px.length) 0#8

/-! Statistics (R177, R178). -/

/-- The value of channel `c` at the statistics tap. -/
def CampFrame.tapValue (f : CampFrame) (c x y : Nat) : Nat :=
  match f.rec'.u 0x30 1 with
  | 0 => f.blacked x y
  | 1 => f.shaded x y
  | _ =>
    if f.rec'.cfa = 3 then (if c = 3 then 0 else f.unpacked c x y)
    else if c < 3 then f.toned c x y
    else if f.rec'.cfa = 0 then f.toned 0 x y
    else (2126 * f.toned 0 x y + 7152 * f.toned 1 x y + 722 * f.toned 2 x y + 5000) / 10000

/-- The position counts in channel `c` at the tap. -/
def CampFrame.tapCounts (f : CampFrame) (c x y : Nat) : Bool :=
  if f.rec'.u 0x30 1 ≤ 1 then f.rec'.code x y = c
  else if f.rec'.cfa = 0 then c = 3
  else if f.rec'.cfa = 3 then c < 3
  else true

/-- Column or row bounds of a statistics zone. -/
def zoneBound (p n zones k : Nat) : Nat := p * (k * n / (p * zones))

/-- The statistics of the lines `ys` of a frame: (dpc_count, sat_count, histogram, zones). -/
def CampFrame.statistics (f : CampFrame) (ys : List Nat) : Nat × Nat × List Byte × List Byte :=
  let r := f.rec'
  let tap := r.u 0x30 1
  let p := if tap ≤ 1 then r.period else 1
  let zx := r.u 0x31 1
  let zy := r.u 0x32 1
  let sat := r.u 0x34 2
  let xs := List.range r.w
  let dpcs := if r.cfa = 3 then 0 else sumNat (ys.map (fun y => xs.countP (fun x => (r.dpc f.blacked x y).2)))
  let saturated := fun (x y : Nat) => (List.range 4).any (fun c => f.tapCounts c x y && decide (sat ≤ f.tapValue c x y))
  let sats := sumNat (ys.map (fun y => xs.countP (fun x => saturated x y)))
  let hist := (List.range 4).flatMap (fun c => (List.range 256).flatMap (fun b =>
    natLE 4 (sumNat (ys.map (fun y => xs.countP (fun x => f.tapCounts c x y && f.tapValue c x y / 256 = b))))))
  let zones := (List.range 1024).flatMap (fun z =>
    if z ≥ zx * zy then List.replicate 16 0#8
    else
      let x0 := zoneBound p r.w zx (z % zx)
      let x1 := zoneBound p r.w zx (z % zx + 1)
      let y0 := zoneBound p r.h zy (z / zx)
      let y1 := zoneBound p r.h zy (z / zx + 1)
      let zxs := xs.filter (fun x => x0 ≤ x && x < x1)
      let zys := ys.filter (fun y => y0 ≤ y && y < y1)
      let means := (List.range 4).flatMap (fun c =>
        let vs := zys.flatMap (fun y => (zxs.filter (fun x => f.tapCounts c x y)).map (fun x => f.tapValue c x y))
        natLE 2 (if vs = [] then 0 else sumNat vs / vs.length))
      means ++ natLE 4 (sumNat (zys.map (fun y => zxs.countP (fun x => saturated x y)))) ++ natLE 4 (zxs.length * zys.length))
  (dpcs, sats, hist, zones)

end Sys2Proof.Machine
end

