-- ==== Sys2Proof/Machine/Resets.lean ====
section
/-! DEFINITION. Device resets (R21, R507, R536, R546, R557, R562, R570) and the retirement of tides (R72). -/
namespace Sys2Proof.Machine

/-- A quay's tide advances and the old value is recorded as retired now (R72). -/
def Quay.advanceTide (x : Quay) (now : Nat) : Quay :=
  { x with
    tide := x.tide + 1#8
    retired := (x.tide.toNat, now) :: x.retired.filter (fun e => e.1 ≠ x.tide.toNat) }

/-- The register survives a device warm reset: Coastguard's, but for CG_Q0_GUARD, and those that only a cold reset returns (R536). -/
def survivesWarm (a : Nat) : Bool :=
  (decide (blockOf a = 18) && decide (a ≠ Reg.CG_Q0_GUARD)) ||
    (match regRow a with | some (r, _) => r.cold | none => false)

/-- A quay after a device warm reset: as reset, its tide advanced and the retirement record kept (R72, R507). -/
def Quay.afterWarm (x : Quay) (now : Nat) : Quay :=
  let y := x.advanceTide now
  { Quay.reset with tide := y.tide, retired := y.retired }

/-- On-chip memory is cleared and HBM keeps its bytes and marks through a warm reset (R507, R570). -/
def MemState.afterWarm (m : MemState) : MemState :=
  let hbm := fun (a : Nat) => match regionOf a with | .hbm _ => true | _ => false
  { MemState.reset with
    bytes := m.bytes.filter (fun e => hbm e.1)
    poison := m.poison.filter (fun e => hbm (64 * e.1))
    spans := m.spans.filter (fun e => hbm (64 * e.1))
    retired := m.retired
    groupsRetired := m.groupsRetired }

/-- The power state after a warm reset: clocks at their reset values; the sensors go on sampling (R552). -/
def PmcState.afterWarm (p : PmcState) : PmcState :=
  { PmcState.reset with temps := p.temps, tripOnce := p.tripOnce, epochAt := p.epochAt, vout := p.vout, voutTries := p.voutTries,
                        railsOut := p.railsOut, tripHold := p.tripHold, rstLow := p.rstLow }

/-- A device warm reset (R507, R536): running dumps close, every block but Coastguard and the HBM stacks takes its reset values.
While `held`, the device stays in the reset; otherwise boot resumes from step 4 at once. -/
def State.warmReset (s : State) (held : Bool) : State :=
  if s.warmHeld then s
  else
    let s := allQuays.foldl (fun s q => s.closeDump q) s
    let trip := flag (s.reg Reg.PMC_STATUS) 2
    let s' : State := { State.reset with
      regs := s.regs.filter (fun e => survivesWarm e.1)
      time := { s.time with locked := false, slewing := false, step := none, slew := 0 }
      out := s.out
      reply := s.reply
      quays := s.quays.map (fun x => x.afterWarm s.time.now)
      mem := s.mem.afterWarm
      customs := { s.customs with warm := true, mailbox := none, phase := .waitTraining }
      cg := s.cg
      pmc := s.pmc.afterWarm
      warmHeld := held
      free := s.free
      pending := s.pending }
    let s' := if trip then s'.put Reg.PMC_STATUS 4 else s'
    let s' := if s.customs.fuses.industrial then s'.put Reg.PMC_THROTTLE_TEMP 100 else s'
    let s' := (s'.cgSignal Cause.INIT).notRunning
    if held then s' else s'.bootFrom4 false

/-- A held warm reset ends: boot resumes from step 4 (R536, R557). -/
def State.warmRelease (s : State) : State :=
  if !s.warmHeld then s else ({ s with warmHeld := false } : State).bootFrom4 false

/-- A device cold reset (R557, R21): every value returns to reset, but the fuses and the boot medium. Memory contents after a cold
reset are the model's (log entry 3). -/
def State.coldReset (s : State) : State :=
  let r := State.reset
  let r := { r with
    customs := { r.customs with fuses := s.customs.fuses, medium := s.customs.medium }
    coldHeld := true
    free := s.free
    pending := s.pending }
  if s.customs.fuses.industrial then r.put Reg.PMC_THROTTLE_TEMP 100 else r

/-- COLD_RESET (R557): PORST_N has been low for `ns`; under 10 µs it is ignored. -/
def execColdReset (ns : Nat) (s : State) : Res := done s (if ns < 10000 then s.begin else s.begin.coldReset)

/-- WARM_RST_N (R557): sampled low in `samples` consecutive AON_CLK cycles; 25 or more request the reset, in which the device
stays while the input is low. -/
def execWarmRstN (samples : Nat) (s : State) : Res :=
  keep s (if s.coldHeld ∨ samples < 25 then s.begin else ({ s.begin with pmc := { s.pmc with rstLow := true } } : State).warmReset true)

/-- WARM_RST_N_RELEASE (R557): the input returns high. A critical trip's hold does not end with it (R546). -/
def execWarmRstNRelease (s : State) : Res :=
  keep s (if s.coldHeld then s.begin
    else
      let s := { s.begin with pmc := { s.pmc with rstLow := false } }
      if s.pmc.tripHold then s else s.warmRelease)

/-- TOP_RESET_WARM (R536): a write of 1 to TOP_RESET_CTRL.warm. -/
def execTopResetWarm (s : State) : Res := act (fun s => (s.warmReset false).answer St.OK) s

/-- Rails 12 or 13, of the always-on domain, are lost (R562). -/
def aonLost (rails : List Nat) : Bool := rails.any (fun r => r = 12 || r = 13)
/-- Rails 14 or 15, of Coastguard, are lost (R562). -/
def cgLost (rails : List Nat) : Bool := rails.any (fun r => r = 14 || r = 15)

/-- The cold reset of a loss of rails 12 or 13 (R562): the hold of a critical trip goes on, and a self-fault is still recorded. -/
def State.railReset (s : State) (rails : List Nat) : State :=
  let t := s.coldReset
  let t := { t with pmc := { t.pmc with tripHold := s.pmc.tripHold } }
  if cgLost rails then { t with cg := { t.cg with selfFault := true, active := Nat.lor t.cg.active (2 ^ Cause.CG_SELF) } } else t

/-- RAIL_FAULT (R562): rails other than 12 and 13 out of range for 10 µs; losses of several kinds may coincide. -/
def doRailFault (rails : List Nat) (s : State) : State :=
  let core := rails.any (fun r => r ≤ 11)
  let s := if cgLost rails then s.selfFaulted else s
  if core then
    let s := { s with pmc := { s.pmc with railsOut := rails.filter (fun r => r ≤ 11) } }
    (s.service 9).warmReset false
  else s

/-- RAIL_FAULT. -/
def execRailFault (rails : List Nat) (s : State) : Res :=
  if !s.coldHeld && aonLost rails then done s (s.begin.railReset rails)
  else keep s (if s.coldHeld then s.begin else doRailFault rails s.begin)

end Sys2Proof.Machine
end

