-- ==== Sys2Proof/Machine/HmLoad.lean ====
section
/-! DEFINITION. LOAD (R47-R49, R66-R72, R77, R78, R371, R378, R392, R412, R510, R569): step 0, the chart's bytes, the resources of
step 8, the verdict, and what an accepted chart puts in place. -/
namespace Sys2Proof.Machine

/-! Pseudo-channel groups and HBM frames (R48, R412). -/

/-- Groups that a quay holds, or that a LOAD of it in progress has claimed. -/
def Quay.claimedGroups (x : Quay) : List Nat := x.groups ++ (match x.load with | some v => v.groups | none => [])

/-- The group is free for a LOAD of quay q (R48, R510). -/
def State.groupFree (s : State) (q : Fin 4) (g : Nat) : Bool :=
  !s.mem.groupsRetired.elem g && !(s.systemGroups).elem g &&
    allQuays.all (fun r => !(s.quays[r].claimedGroups).elem g && (r = q || !(s.salv[r].heldGroups).elem g))

/-- Take groups alternately from two stacks' free lists, from the other where one is empty (R48). -/
def pickGroups : Nat → Bool → List Nat → List Nat → List Nat
  | 0, _, _, _ => []
  | n + 1, false, a :: as, bs => a :: pickGroups n true as bs
  | n + 1, false, [], b :: bs => b :: pickGroups n true [] bs
  | n + 1, true, as, b :: bs => b :: pickGroups n false as bs
  | n + 1, true, a :: as, [] => a :: pickGroups n false as []
  | _ + 1, _, [], [] => []

/-- The groups a LOAD gets (R48, R510): those held for its recovery first, in their order. -/
def State.assignGroups (s : State) (q : Fin 4) (need : Nat) : List Nat :=
  let held := (s.salv[q].heldGroups).take need
  let free := (List.range 16).filter (fun g => s.groupFree q g && !(s.salv[q].heldGroups).elem g)
  held ++ pickGroups (need - held.length) false (free.filter (· < 8)) (free.filter (8 ≤ ·))

/-- Frame i of group g holds a retired page (R412). -/
def State.frameRetired (s : State) (g i : Nat) : Bool :=
  let lo := ((g % 8) * groupBytes + i * frameBytes) / 4096
  (s.mem.retired.getD (stackOf g) []).any (fun e => lo ≤ e.page && decide (e.page < lo + 512))

/-- Frames of a group that hold no retired page. -/
def State.groupFrames (s : State) (g : Nat) : Nat :=
  let bad := ((s.mem.retired.getD (stackOf g) []).filter (fun e => pageGroup (stackOf g) e.page = g)).map (fun e =>
    (e.page * 4096 - (g % 8) * groupBytes) / frameBytes)
  2304 - (dedup bad).length

/-- Take `n` frames from the groups in turn, lowest frame first, skipping those with a retired page (R412): the queue holds each
group with its next frame. -/
def State.takeFrames (s : State) : Nat → Nat → List (Nat × Nat) → List Nat
  | 0, _, _ => []
  | _, _, [] => []
  | fuel + 1, n, (g, i) :: rest =>
    if n = 0 then []
    else if i ≥ 2304 then State.takeFrames s fuel n rest
    else if s.frameRetired g i then State.takeFrames s fuel n ((g, i + 1) :: rest)
    else (groupBase g + i * frameBytes) :: State.takeFrames s fuel (n - 1) (rest ++ [(g, i + 1)])

/-! Step 8 (R47, R66, R69, R569). -/

/-- The chart a quay holds, or that a LOAD of it in progress has claimed. -/
def Quay.claim (x : Quay) : Option Chart :=
  match x.chart with
  | some c => some c
  | none => (match x.load with | some v => v.chart | none => none)

/-- Conflicts of the ENGINES entries (R424, R483, R569). -/
def State.engineConflicts (s : State) (q : Fin 4) (c : Chart) : List RepEntry :=
  (enum c.engines).filterMap (fun e =>
    let unit := e.2.cls * 256 + e.2.inst
    let other := allQuays.find? (fun r => r ≠ q && (match s.quays[r].claim with
      | some d => d.engines.any (fun g => g.cls = e.2.cls && g.inst = e.2.inst)
      | none => false))
    let entry := fun (a : Nat) => some (⟨0x02, Why.CONFLICT, e.1 * 64 + 1, unit, a⟩ : RepEntry)
    match other with
    | some r => entry r.val
    | none =>
      if e.2.cls = Cls.TENDER ∧ (s.chan e.2.inst).st ≠ .idle then entry 0xFE
      else if s.isFenced e.2.cls e.2.inst then entry 0xFF
      else none)

/-- Conflicts of the berth range: one entry for each quay that holds some of it (R569). -/
def State.berthConflicts (s : State) (q : Fin 4) (c : Chart) : List RepEntry :=
  allQuays.filterMap (fun r =>
    if r = q then none
    else match s.quays[r].claim with
      | some d =>
        if d.cfg.berthFirst < c.cfg.berthFirst + c.cfg.berthCount ∧ c.cfg.berthFirst < d.cfg.berthFirst + d.cfg.berthCount then
          some ⟨0x01, Why.CONFLICT, 0x10, c.cfg.berthFirst, r.val⟩
        else none
      | none => none)

/-- Voyage contexts that the other quays hold. -/
def State.voyagesHeld (s : State) (q : Fin 4) : Nat :=
  sumNat (allQuays.map (fun r => if r = q then 0 else match s.quays[r].claim with | some d => d.cfg.voyages | none => 0))

/-- Everything step 8 finds, and the groups it assigns (R66, R69). -/
def State.checkResources (s : State) (q : Fin 4) (c : Chart) : List RepEntry × List Nat :=
  let need := c.cfg.pch / 4
  let groups := s.assignGroups q need
  let frames := chartFrames c.handles
  let room := sumNat (groups.map s.groupFrames)
  let left := 4096 - s.voyagesHeld q
  let short := fun (ok : Bool) (code want have' : Nat) => if ok then [] else [(⟨0, Why.SHORTFALL, code, rep48 want, rep48 have'⟩ : RepEntry)]
  (s.engineConflicts q c ++ s.berthConflicts q c ++ short (decide (frames ≤ room)) 1 (frames * frameBytes) (room * frameBytes) ++
    short (decide (c.cfg.voyages ≤ left)) 5 c.cfg.voyages left ++ short (decide (groups.length = need)) 6 (need * 4) (groups.length * 4), groups)

/-! Acceptance. -/

/-- The banks of a berth range that are gated (R392). -/
def State.gatedBanks (s : State) (c : Chart) : List Nat :=
  dedup (((List.range c.cfg.berthCount).map (fun i => bankOf (c.cfg.berthFirst + i))).filter (fun b => s.mem.gated.elem b))

/-- A bank is woken (R392). -/
def State.wakeBank (s : State) (b : Nat) : State :=
  if !s.mem.gated.elem b then s
  else (s.modMem (fun m => { m with gated := m.gated.filter (fun x => x ≠ b), waking := addNew b m.waking })).setBits
    (Reg.QUAY_BANK_GATE_REQ (b / 32)) (b % 32) (b % 32) 0

/-- A tide value retired less than 64 ms ago (R72). -/
def Quay.tideFresh (x : Quay) (now : Nat) : Bool :=
  x.retired.any (fun e => e.1 = (x.tide + 1#8).toNat && decide (now < e.2 + 64000000))

/-- What the checks of LOAD read besides the chart. -/
def State.loadEnv (s : State) (q : Fin 4) (limit : Nat) : LoadEnv where
  quay := q
  sizeLimit := limit
  keys := (List.range 16).map s.keySlot
  sigRequired := s.customs.fuses.sigRequired
  opened := s.customs.fuses.opened
  nodeId := s.nodeId

/-- The verdict of a LOAD of the bytes `bs` (R66): steps 1 to 9. -/
def State.judgeLoad (s : State) (q : Fin 4) (bs : List Byte) (limit : Nat) : LoadVerdict :=
  let x := s.quays[q]
  let len := leAt bs 0x0C 4
  let base := s.time.now + 1000000 + 500000 * len / 1048576
  let bad := fun (st : Status) (es : List RepEntry) => (⟨st, es, none, [], x.tide, [], base⟩ : LoadVerdict)
  let o := checkChart (s.loadEnv q limit) bs
  match o.chart with
  | none => bad o.status o.entries
  | some c =>
    let (e8, groups) := s.checkResources q c
    if e8 ≠ [] then bad St.NO_ROOM (o.entries ++ e8)
    else
      let e9 := c.scheduleFaults q
      if e9 ≠ [] then bad St.REFUSED (o.entries ++ e9)
      else
        let n := chartFrames c.handles
        let wake := if (s.gatedBanks c).isEmpty then 0 else 25480
        ⟨o.status, o.entries, some c, groups, x.tide + 1#8, s.takeFrames (n + 2304 * 16 + 32) n (groups.map (fun g => (g, 0))), base + wake⟩

/-- LOAD is accepted (R49, R66, R72, R77): the chart at `src`, `limit` bytes at most, is copied to the chart store and judged; the
resources are claimed. -/
def State.acceptLoad (s : State) (q : Fin 4) (src limit : Nat) : State :=
  let x := s.quays[q]
  let s := s.modQuay q (fun x => { x with busy := some .load })
  if x.tideFresh s.time.now then
    s.modQuay q (fun x => { x with load := some ⟨St.BUSY, [], none, [], x.tide, [], s.time.now + 1000000⟩ })
  else
    let head := s.devBytes src (min limit 256)
    let len := leAt head 0x0C 4
    let bs := if len ≤ limit then s.devBytes src (max 256 len) else head
    let v := s.judgeLoad q bs limit
    let s := if checkHeader (s.loadEnv q limit) bs = [] then s.store (s.chartStore q) bs else s
    let s := s.modQuay q (fun x => { x with load := some v })
    match v.chart with
    | none => s
    | some c => (s.gatedBanks c).foldl State.wakeBank s

/-! Completion. -/

/-- The report buffer of a quay (R69). -/
def State.reportBase (s : State) (q : Fin 4) : Nat := s.addr48 (Reg.HM_QUAY_REPORT_LO q)

/-- Write a report (R69, R74, R569). -/
def State.writeReport (s : State) (q : Fin 4) (st : Status) (es : List RepEntry) : State :=
  let bs := reportBytes ((s.reg (Reg.HM_QUAY_REPORT_SIZE q)).toNat % 8192) st s.quays[q].tide es
  if bs.isEmpty then s else (s.devWrite .hm (s.reportBase q) bs).1

/-- The handle table of a chart (R378). -/
def Chart.handleTable (c : Chart) : List HandleT :=
  c.handles.map (fun h =>
    let rot := c.rotated h.handle
    match h.kind with
    | 0 =>
      let b := (c.berths.find? (fun b => b.group = h.base)).getD ⟨0, 0, 0, false, false⟩
      ⟨h.handle, 0, h.access, c.cfg.berthFirst + b.first, b.count, rot, false⟩
    | 3 => ⟨h.handle, 3, h.access, h.base, 0, rot, false⟩
    | k => ⟨h.handle, k, h.access, h.base, h.length / 4096, rot, false⟩)

/-- Access and remote bits of a handle's leaves (R411, R412). -/
def leafBits (access : Nat) (remote : Bool) : Nat := bitAt (bitOf access 0) 2 + bitAt (bitOf access 1) 3 + bitAt remote 5

/-- The leaves of a chart's handles with the frames its HBM regions take (R412); a Piloted chart's first frames, up to
hbm_act_bytes, are movable (R415, log entry 48). -/
def Chart.leaves (c : Chart) : List HandleE → List Nat → List Leaf
  | [], _ => []
  | h :: hs, frames =>
    if h.kind = 1 then
      let r := hbmLeaves h.base h.length (leafBits h.access false) (framesNeeded h.base h.length) (h.base / frameBytes) frames
      r.1 ++ Chart.leaves c hs r.2
    else if h.kind = 2 then
      remoteLeaves 0 (leafBits h.access true) (h.length / 4096) h.base h.length ++ Chart.leaves c hs frames
    else Chart.leaves c hs frames

/-- Set the movable bit of the leaves whose frame is among the movable ones. -/
def markMovable (frames : List Nat) (l : Leaf) : Leaf :=
  let fr := entryAddr l.entry / frameBytes * frameBytes
  if frames.elem fr && !bitOf l.entry 5 then { l with entry := l.entry + 64 } else l

/-- Build a quay's page tables in its table area (R412): the state, and the root. -/
def State.buildTables (s : State) (q : Fin 4) (c : Chart) (frames : List Nat) : State :=
  let base := s.tableBase q
  let movable := match c.pilot with
    | some p => if c.cfg.piloted then frames.take (p.hbmActBytes / frameBytes) else []
    | none => []
  let leaves := (c.leaves c.handles frames).map (markMovable movable)
  let t := leaves.foldl (fun t l => TableSet.addLeaf base t l) ⟨[(1, 0)], []⟩
  let s := t.entries.foldl (fun s e => s.store e.1 (natLE 8 e.2)) s
  s.setReg64 (Reg.XLT_QUAY_ROOT_LO q) base

/-- Clear a quay's page tables (R412). -/
def State.clearTables (s : State) (q : Fin 4) : State :=
  (s.modMem (fun m => { m.wipe (s.tableBase q) (24 * 0x100000) with tlb := m.tlb.filter (fun e => e.quay ≠ q.val) })).setReg64
    (Reg.XLT_QUAY_ROOT_LO q) 0

/-- Claim a chart's berths: EMPTY, owned, with the quay's tide (R371). -/
def State.claimBerths (s : State) (q : Fin 4) (c : Chart) (tide : Tide) (owned : Bool) : State :=
  s.modMem (fun m => { m with
    tags := Tab.fill tag0 m.tags c.cfg.berthFirst c.cfg.berthCount (mkTag false false 0 tide q owned false) })

/-- A loaded chart takes effect: the tide advances, handles, tables, berths, LOADED (R66, R70, R72,
R78, R88, R523). -/
def State.enterLoaded (s : State) (q : Fin 4) (v : LoadVerdict) (c : Chart) : State :=
  let c := { c with clamped := decide (v.status = St.CLAMPED) }
  let s := (s.modQuay q (fun x => { x.advanceTide s.time.now with tide := v.newTide })).modSalv q (fun v => { v with heldGroups := [] })
  let s := s.modQuay q (fun x => { x with
    chart := some c, handles := c.handleTable, groups := v.groups, hbmFrames := v.frames, sequence := 0, records := 0, lastPub := none,
    kOf := [], frames := [] })
  let s := (s.claimBerths q c s.quays[q].tide true).buildTables q c v.frames
  let s := if q = 0 then { s with cg := { s.cg with expectSeq := 0, expectFrame := none, mirror := [] } } else s
  let s := s.setQState q .loaded
  if c.clamped then s.setEvent (Reg.HM_QUAY_EVENT q) 4 else s

/-- A LOAD's verdict takes effect (R68, R69, R77): what LOAD_COMPLETE does, but for what recovery does next. -/
def State.finishLoad (s : State) (q : Fin 4) (v : LoadVerdict) : State :=
  let s := s.modQuay q (fun x => { x with load := none })
  let s := match v.chart with | some c => s.enterLoaded q v c | none => s
  (s.writeReport q v.status v.entries).completeCmd q v.status

/-- The LOAD waits for banks it has woken (R392). -/
def State.loadWaits (s : State) (v : LoadVerdict) : Bool :=
  match v.chart with
  | some c => (List.range c.cfg.berthCount).any (fun i => s.isGated (bankOf (c.cfg.berthFirst + i)))
  | none => false

end Sys2Proof.Machine
end

