-- ==== Sys2Proof/Machine/HmCmd.lean ====
section
/-! DEFINITION. The other quay commands (R51, R70, R71, R74-R78, R81, R99, R382, R383, R428, R454, R510): judging a command, START,
DOCK, UNDOCK. -/
namespace Sys2Proof.Machine

/-- R70's table: the command is legal in the state. -/
def QState.accepts (c : QCmd) : QState → Bool
  | .empty => decide (c = .load ∨ c = .reset)
  | .loaded => decide (c = .start ∨ c = .unload ∨ c = .reset)
  | .running => decide (c = .dock ∨ c = .reset)
  | .docking => decide (c = .reset)
  | .docked => decide (c = .undock ∨ c = .unload ∨ c = .reset)
  | .faulted => decide (c = .unload ∨ c = .reset)
  | .resetting => false

/-- How a command is rejected, if it is (R51, R70, R78). -/
def State.judgeCmd (s : State) (q : Fin 4) (ini : Initiator) (c : QCmd) : Option Status :=
  let x := s.quays[q]
  if !x.st.accepts c then some St.BAD_STATE
  else if q = 0 ∧ ini ≠ .cg ∧ ini ≠ .salvage ∧ c ≠ .load ∧ c ≠ .start ∧ !flag (s.reg Reg.CG_Q0_GUARD) 0 then some St.FENCED
  else if c ≠ .reset ∧ x.busy.isSome then some St.BUSY
  else none

/-- A rejected command: no side effect but the count of BAD_STATE (R25, R70). -/
def State.rejectCmd (s : State) (q : Fin 4) (st : Status) : State :=
  (if st = St.BAD_STATE then s.bump (Reg.HM_QUAY_BAD_STATE_COUNT q) else s).answer st

/-- A quay command: rejected, or carried out by `go`. -/
def State.quayCmd (s : State) (q : Fin 4) (ini : Initiator) (c : QCmd) (go : State → State) : State :=
  match s.judgeCmd q ini c with
  | some st => s.rejectCmd q st
  | none => (go s).answer St.OK

/-! RUNNING. -/

/-- The minimums of a quay on a port as they apply now: scaled while the port is oversubscribed, but for quay 0 (R383). -/
def State.minsOn (s : State) (q : Fin 4) (c : Chart) (p : Nat) : Nat × Nat × Nat :=
  match c.shareOf p with
  | none => (0, 0, 0)
  | some e =>
    let total := s.portMinSum p
    let m0 := match s.quays[(0 : Fin 4)].st, s.quays[(0 : Fin 4)].chart with | .running, some d => d.minSum p | _, _ => 0
    if total ≤ 64 ∨ q = 0 then (e.rdMin, e.wrMin, e.rmMin)
    else
      let scale := fun m => m * (64 - m0) / (total - m0)
      (scale e.rdMin, scale e.wrMin, scale e.rmMin)

/-- A share register's word (R395). -/
def shareWord (m : Nat × Nat × Nat) : Nat := m.1 % 128 + (m.2.1 % 128) * 256 + (m.2.2 % 128) * 65536

/-- Applied shares start at the chart minimums (R382, R383): the entering quay's, and those of every quay a change of the sums
scales. -/
def State.startShares (s : State) (q : Fin 4) : State :=
  (List.range 6).foldl (fun s p =>
    match s.quays[q].chart with
    | some c => s.put (Reg.DRL_QP_SHARE (q * 8 + p)) (shareWord (s.minsOn q c p))
    | none => s) s

/-- The EDGE entry of a chart, and its sources (R298). -/
def Chart.edgeEntry (c : Chart) : List Byte := ((c.params.find? (fun p => p.sec = 0x0D)).map (·.bytes)).getD []
def Chart.edgeSources (c : Chart) : List EdgeSrc :=
  (List.range (leAt c.edgeEntry 8 1)).map (fun k => ⟨slice c.edgeEntry (0x10 + 192 * k) 192⟩)

/-- The Edge Guard's regions as quay 0 enters RUNNING: every one tripped, every count 0 (R293). -/
def Chart.edgeStart (c : Chart) : List EdgeSrcSt :=
  c.edgeSources.map (fun e =>
    ⟨[], (List.range e.regions).map (fun _ => ⟨true, ⟨0, 0⟩, ⟨0, 0⟩⟩)⟩)

/-- A quay enters RUNNING (R75, R76, R99, R239, R293, R314, R382, R454, R484). -/
def State.enterRunning (s : State) (q : Fin 4) (openFrom : Nat) (next : FrameNo) (k : Nat) : State :=
  match s.quays[q].chart with
  | none => s
  | some c =>
    let elv := (c.engines.filter (fun e => e.cls = Cls.ELV)).map (·.inst)
    let s := s.modQuay q (fun x => { x with openFrom := openFrom, nextFrame := next, nextK := k, firstNext := true, prevSquashed := false })
    let ctxs := s.quays[q].streamCtxs
    let s := { s with cam := { s.cam with
      ctxs := (enum s.cam.ctxs).map (fun (e : Nat × Ctx) => if ctxs.elem e.1 then { e.2 with seen := none } else e.2)
      ticks := s.cam.ticks.filter (fun t => t.quay ≠ q.val) } }
    let s := { s with prog := { s.prog with chainFilled := s.prog.chainFilled.filter (fun n => !elv.elem (n / 65536)) } }
    let s := if q ≠ 0 then s
      else { s with
        cg := { s.cg with ages := c.ages.map (fun _ => none), overAge := [], expectFrame := none }
        edge := { s.edge with srcs := c.edgeStart } }
    let s := (s.setQState q .running).startShares q
    c.fleet.foldl (fun s f => if (s.binding q f.node).st = .bound then s else s.sendBind q f.node) s

/-! START (R74, R75). -/

/-- START ends with a status other than OK: the quay stays LOADED. -/
def State.startFails (s : State) (q : Fin 4) (st : Status) (es : List RepEntry) : State :=
  ((s.modQuay q (fun x => { x with start := none })).writeReport q st es).completeCmd q st

/-- START completes: RUNNING (R74, R75); a recovery's START begins the replay (R510, R511). -/
def State.startDone (s : State) (q : Fin 4) (acceptedAt : Nat) : State :=
  let s := s.modQuay q (fun x => { x with start := none, lastPub := none, frames := [], kOf := [] })
  let s := s.enterRunning q (max (acceptedAt + 100000) s.time.now) (s.reg (Reg.HM_QUAY_START_FRAME q)) 0
  let s := (s.writeReport q St.OK []).completeCmd q St.OK
  let v := s.salv[q]
  if !v.recovering then s
  else
    let s := s.modQuay q (fun x => { x with requests := v.kept ++ x.requests })
    let s := s.modSalv q (fun v => { v with
      recovering := false, kept := [], replay := none, phase := if v.suspects.isEmpty then .idle else .replaying })
    (s.bump (Reg.SALVAGE_QUAY_RECOVER_COUNT q)).setEvent (Reg.SALVAGE_QUAY_EVENT q) 16

/-- Recovery stops (R510). -/
def State.recoverFailed (s : State) (q : Fin 4) : State :=
  if !s.salv[q].recovering then s
  else (s.modSalv q (fun v => { v with recovering := false, phase := .idle })).setEvent (Reg.SALVAGE_QUAY_EVENT q) 32

/-- START is accepted for checking (R74). -/
def State.acceptStart (s : State) (q : Fin 4) : State :=
  match s.quays[q].chart with
  | none => s
  | some c =>
    let s := s.modQuay q (fun x => { x with busy := some .start })
    let (s, st, es) := s.checkStart q c
    if st ≠ St.OK then (s.startFails q st es).recoverFailed q
    else if !c.cfg.piloted && decide (c.cfg.floorMhz > min (s.coreMhz 0) (s.coreMhz 1)) then
      if s.pmc.emergency then (s.startFails q St.BUSY []).recoverFailed q
      else s.modQuay q (fun x => { x with start := some ⟨St.OK, [], s.time.now, true⟩ })
    else s.startDone q s.time.now

/-! DOCK and UNDOCK (R71, R76, R99). -/

/-- DOCK is accepted (R76). -/
def State.acceptDock (s : State) (q : Fin 4) : State :=
  let s := (s.modQuay q (fun x => { x with busy := some .dock, dockedAt := s.time.now })).setQState q .docking
  match s.quays[q].frames.find? (fun f => !f.committed) with
  | none => (s.setQState q .docked).completeCmd q St.OK
  | some f => s.squashWhere q (fun g => g.num ≠ f.num) true

/-- UNDOCK is accepted, and completes (R76, R99). -/
def State.acceptUndock (s : State) (q : Fin 4) : State :=
  let s := s.modQuay q (fun x => { x with busy := some .undock })
  let (n, k) := match s.quays[q].lastPub with
    | some (n, k) => (n + 1#32, k + 1)
    | none => (s.reg (Reg.HM_QUAY_START_FRAME q), 0)
  (s.enterRunning q (s.time.now + 100000) n k).completeCmd q St.OK

/-- DOCK_TIMEOUT (R71): DOCKING has lasted frames_in_flight periods and 500 µs. -/
def State.dockTimeout (s : State) (q : Fin 4) : State :=
  let x := s.quays[q]
  match x.st, x.chart with
  | .docking, some c =>
    if s.time.now < x.dockedAt + c.cfg.fif * c.cfg.periodUs * 1000 + 500000 then s
    else (s.setQState q .faulted).completeCmd q St.HANG
  | _, _ => s

end Sys2Proof.Machine
end

