-- ==== Sys2Proof/Machine/HmReset.lean ====
section
/-! DEFINITION. The quay reset (R21, R72, R73, R78, R111, R371, R379, R388, R439, R505-R510): RESETTING, its drain limit, its end and its
escalation. -/
namespace Sys2Proof.Machine

/-- The quay a register belongs to (R12, R21). -/
def State.regOwner (s : State) (a : Nat) : Option (Fin 4) :=
  match regRow a with
  | none => none
  | some (r, i) =>
    match r.own with
    | .none => none
    | .quay d => quayOf? (i / d)
    | .fixed q => quayOf? q
    | .eng c d => s.ownerOf c (i / d)
    | .ctx => allQuays.find? (fun q => (s.quays[q].streamCtxs).elem i)

/-- The register returns to its reset value on a reset of quay q (R21). -/
def State.quayResets (s : State) (q : Fin 4) (a : Nat) : Bool :=
  (match regRow a with | some (r, _) => r.qr | none => false) && decide (s.regOwner a = some q)

/-- The instances of a class that a chart claims. -/
def Chart.instancesOf (c : Chart) (cls : Nat) : List Nat := (c.engines.filter (fun e => e.cls = cls)).map (·.inst)

/-- The command in progress is aborted by a RESET (R78): an aborted LOAD or START leaves a report that holds the header alone. -/
def State.abortBusy (s : State) (q : Fin 4) : State :=
  match s.quays[q].busy with
  | none => s
  | some c =>
    let s : State := s.modQuay q (fun x => { x with load := none, start := none })
    let s : State := if c = .load ∨ c = .start then s.writeReport q St.ABORTED [] else s
    s.completeCmd q St.ABORTED

/-- Requests that end because the quay is reset without recovery: those of a declaration with HANG (R509); the spec gives the others
no status (log entry 12). -/
def State.endRequests (s : State) (q : Fin 4) : State :=
  let v := s.salv[q]
  let hung := v.suspects ++ v.kept
  let rest := (s.quays[q].requests).filter (fun r => !hung.elem r)
  let s : State := hung.foldl (fun s r => s.completeRequest q r St.HANG) s
  rest.foldl (fun s r => let (n, s) := s.draw; s.completeRequest q r (BitVec.ofNat 8 n)) s

/-- What every unit drops of a quay's work when RESETTING is entered (R118, R379, R439, R506, R508). -/
def State.dropQuayWork (s : State) (q : Fin 4) : State :=
  let mine := fun (t : ReqTag) => decide (t.quay = q.val)
  let s : State := match s.quays[q].chart with
    | some c => (c.instancesOf Cls.TENDER).foldl (fun (s : State) n => s.chanStop n) s
    | none => s
  let s : State := s.modMem (fun m => { m with
    heldReads := m.heldReads.filter (fun r => !mine r.tag)
    bursts := m.bursts.filter (fun b => b.writes.all (fun r => !mine r.tag))
    signals := m.signals.filter (fun r => r.quay ≠ q.val)
    delivered := m.delivered.filter (fun r => !mine r.tag)
    drlWait := m.drlWait.filter (fun w => match w with | .mem r => !mine r.tag | .berth r => !mine r.tag | .fleet _ _ _ => true)
    walks := m.walks.filter (fun r => !mine r.tag) })
  let keep := fun (r : ProgRun) => decide (r.quay ≠ q.val)
  let s : State := { s with
    vis := s.vis.filter (fun v => v.quay ≠ q.val)
    prog := { s.prog with
      elv := s.prog.elv.map (fun (rs : List ProgRun) => rs.filter keep)
      xfers := (enum s.prog.xfers).map (fun e => if (s.ownerOf Cls.ELV e.1) = some q then [] else e.2)
      lay := s.prog.lay.map (fun (rs : List ProgRun) => rs.filter keep) } }
  let s : State := if q = 0 then { s with cg := { s.cg with runs := [] } } else s
  s.unbindAll q

/-- The scrub of a quay's berths and tile stores (R388): the berths are EMPTY under the new tide and still owned. -/
def State.scrubQuay (s : State) (q : Fin 4) : State :=
  match s.quays[q].chart with
  | none => s
  | some c =>
    let inst := c.instancesOf Cls.ELV
    let s : State := s.modMem (fun m =>
      { m.wipe (berthAddr c.cfg.berthFirst) (4096 * c.cfg.berthCount) with
        tile := m.tile.filter (fun e => !inst.elem (e.1 / 0x200000))
        tilePoison := m.tilePoison.filter (fun e => !inst.elem (e.1 / 0x8000)) })
    s.claimBerths q c s.quays[q].tide true

/-- The quay enters RESETTING (R72, R78, R379, R505, R506, R510): `c` is the command; in a recovery the suspects, the kept requests and
the groups stay. -/
def State.enterResetting (s : State) (q : Fin 4) (c : QCmd) (recovery : Bool) : State :=
  let s : State := s.abortBusy q
  let s : State := if recovery then s else s.endRequests q
  let s : State := s.dropQuayWork q
  let now := s.time.now
  let s : State := s.modQuay q (fun x => { x.advanceTide now with
    busy := some c, viaUnload := decide (c = .unload), resetAt := now, phase := .fencing, squashing := false, frames := [], requests := []
    handles := x.handles.map (fun h => { h with fenced := true }) })
  let s : State := s.scrubQuay q
  let clears := addNew q.val s.ledger.clears
  let s : State := { s with ledger := { s.ledger with clears := if (s.quays[q].ledgerBlocks).isEmpty then s.ledger.clears else clears } }
  let s : State := s.modSalv q (fun v => { v with
    phase := .resetting
    dump := v.dump.map (fun d => { d with overtaken := true })
    suspects := if recovery then v.suspects else []
    kept := if recovery then v.kept else []
    recovering := recovery
    gaveUp := false
    replay := none
    heldGroups := if recovery then s.quays[q].groups else [] })
  s.setQState q .resetting

/-- What a quay reset returns in the units themselves (R21, R506): camera contexts and pipes, Soundings, the Edge Guard, Tender
channels, predictions. -/
def State.resetUnits (s : State) (q : Fin 4) : State :=
  match s.quays[q].chart with
  | none => s
  | some c =>
    let ctxs := s.quays[q].streamCtxs
    let pipes := c.instancesOf Cls.CAMP
    let i3c := c.instancesOf Cls.I3C
    let syncs := c.instancesOf Cls.FSYNC
    let feats := c.instancesOf Cls.FEAT
    let chans := c.instancesOf Cls.TENDER
    { s with
      cam := { s.cam with
        ctxs := (enum s.cam.ctxs).map (fun e => if ctxs.elem e.1 then Ctx.reset else e.2)
        i3c := (enum s.cam.i3c).map (fun e => if i3c.elem e.1 then none else e.2)
        i3cQueue := (enum s.cam.i3cQueue).map (fun e => if i3c.elem e.1 then [] else e.2)
        ibi := (enum s.cam.ibi).map (fun e => if i3c.elem e.1 then [] else e.2)
        fsync := (enum s.cam.fsync).map (fun e => if syncs.elem e.1 then false else e.2)
        ticks := s.cam.ticks.filter (fun t => t.quay ≠ q.val)
        edges := s.cam.edges.filter (fun t => !syncs.elem t.1) }
      camp := {
        slots := (enum s.camp.slots).map (fun e => if pipes.elem (e.1 / 8) then CampSlot.reset else e.2)
        pass := (enum s.camp.pass).map (fun e => if pipes.elem e.1 then none else e.2) }
      snd := if (c.instancesOf Cls.SND).isEmpty then s.snd else SndState.reset
      edge := if (c.instancesOf Cls.EDGE).isEmpty then s.edge else EdgeState.reset
      tender := (enum s.tender).map (fun e => if chans.elem e.1 then TChan.reset else e.2)
      ledger := { s.ledger with
        preds := s.ledger.preds.filter (fun p => p.quay ≠ q.val)
        latched := s.ledger.latched.filter (fun p => !feats.elem p.1) } }

/-- RESET_DRAIN_LIMIT (R506): 20 µs after RESETTING was entered, requests of the old tide are dropped and every engine of the quay is
reset. -/
def doResetDrainLimit (q : Fin 4) (s : State) : State :=
  let x := s.quays[q]
  if x.st ≠ .resetting ∨ x.phase ≠ .fencing ∨ s.time.now < x.resetAt + 20000 then s
  else
    let mine := fun (o : Outstanding) => decide (o.req.tag.quay = q.val)
    let dropped := (s.mem.outstanding.filter mine).length
    let s : State := s.modMem (fun m => { m with outstanding := m.outstanding.filter (fun o => !mine o) })
    let s : State := s.bumpBy (Reg.SALVAGE_QUAY_LATE_DROP_COUNT q) dropped
    let back := fun (a : Nat) => s.quayResets q a
    let regs := s.regs.filter (fun e => !back e.1)
    let caps := s.captures.filter (fun e => !back e.1)
    let held := s.heldLo.filter (fun e => !back e.1)
    let s : State := { s with regs := regs, captures := caps, heldLo := held }
    (s.resetUnits q).modQuay q (fun x => { x with phase := .drained })

/-- Harbour time a quay reset takes at least: every line of a berth is written at one per bank cycle (R388). -/
def Quay.scrubNs (x : Quay) : Nat := match x.chart with | some _ => 20480 | none => 0

/-- The quay is quiescent (R506): its units are idle, no shared unit holds a request of its old tide, the scrubs are complete. -/
def State.quiescent (s : State) (q : Fin 4) : Bool :=
  let x := s.quays[q]
  decide (x.phase = .drained) && decide (x.resetAt + x.scrubNs ≤ s.time.now) && s.mem.outstanding.all (fun o => o.req.tag.quay ≠ q.val)

/-- The limit of the chart copy that a recovery loads. -/
def storeLimit : Nat := 16 * 0x100000

/-- RESET_QUIESCENT (R73, R378, R388, R506, R510): every resource is released and the quay is EMPTY. -/
def doResetQuiescent (q : Fin 4) (s : State) : State :=
  let x := s.quays[q]
  if x.st ≠ .resetting ∨ !s.quiescent q then s
  else
    let us := min 0xFFFF (ceilDiv (s.time.now - x.resetAt) 1000)
    let s : State := match x.chart with
      | some c =>
        let s : State := (s.claimBerths q c x.tide false).put (Reg.QUAY_SPAD_SCRUB_COUNT q) c.cfg.berthCount
        let blocks := c.instancesOf Cls.LEDGER
        { s with ledger := blocks.foldl (fun l b => l.clearBlock b) s.ledger }
      | none => s
    let s : State := { s with
      ledger := { s.ledger with clears := s.ledger.clears.filter (fun n => n ≠ q.val), sweeps := s.ledger.sweeps.filter (fun e => e.2 ≠ q.val) } }
    let s : State := (s.clearTables q).put (Reg.SALVAGE_QUAY_RESET_TIME q) us
    let s : State := s.modQuay q (fun x => { x with
      chart := none, handles := [], groups := [], hbmFrames := [], lastPub := none, kOf := [], gens := [0, 0, 0], firstNext := false,
      prevSquashed := false, phase := .fencing })
    let rec' := s.salv[q].recovering
    let over' := s.salv[q].gaveUp
    let s : State := s.modSalv q (fun v => { v with
      phase := if rec' then .reloading else if v.dump.isSome then .dumping else .idle, gaveUp := false, hungFor := 0 })
    let s : State := (s.setQState q .empty).completeCmd q St.OK
    let s : State := if over' then (s.setEvent (Reg.SALVAGE_QUAY_EVENT q) 0x40).service 6 else s
    if rec' then s.acceptLoad q (s.chartStore q) storeLimit else s

/-- RESET_OVERDUE (R507): 150 µs after RESETTING was entered the quay is not quiescent. -/
def doResetOverdue (q : Fin 4) (s : State) : State :=
  let x := s.quays[q]
  if x.st ≠ .resetting ∨ s.time.now < x.resetAt + 150000 ∨ s.salv[q].phase = .overdue then s
  else (s.modSalv q (fun v => { v with phase := .overdue })).setEvent (Reg.SALVAGE_QUAY_EVENT q) 8

/-- RESET_ESCALATION (R507): the quay is not quiescent at 500 µs; the Salvage unit orders a device warm reset. -/
def doResetEscalation (q : Fin 4) (s : State) : State :=
  let x := s.quays[q]
  if x.st ≠ .resetting ∨ s.time.now < x.resetAt + 500000 ∨ s.quiescent q then s
  else
    let s : State := s.put Reg.SALVAGE_ESCALATION (q.val + (s.salv[q].hungFor % 8) * 4 + 0x20)
    let s : State := (s.setReg64 Reg.SALVAGE_ESCALATION_TIME_LO s.time.now).bump Reg.SALVAGE_ESCALATION_COUNT
    s.warmReset false

/-- The number of the frame that the first tick after a START accepted now would have opened had the quay run throughout (R510). -/
def State.recoveryFrame (s : State) (q : Fin 4) (c : Chart) : FrameNo :=
  let (n, last) := s.salv[q].nextFrameAt
  let p := max 1 (c.cfg.periodUs * 1000)
  let first := s.tickAt c (s.time.now + 100000)
  n + w32 ((first - last) / p - 1)

/-- What a recovery does after its LOAD (R510). -/
def State.recoverLoaded (s : State) (q : Fin 4) : State :=
  if !s.salv[q].recovering then s
  else
    match s.quays[q].chart with
    | some c => ((s.setReg (Reg.HM_QUAY_START_FRAME q) (s.recoveryFrame q c))).acceptStart q
    | none => s.recoverFailed q

/-- LOAD_COMPLETE (R69, R77, R510). -/
def doLoadComplete (q : Fin 4) (s : State) : State :=
  match s.quays[q].load with
  | none => s
  | some v => if s.loadWaits v then s else (s.finishLoad q v).recoverLoaded q

/-! The commands. -/

/-- LOAD (R66). -/
def doLoad (q : Fin 4) (ini : Initiator) (s : State) : State :=
  s.quayCmd q ini .load (fun s =>
    s.acceptLoad q (s.addr48 (Reg.HM_QUAY_CHART_LO q)) (min ((s.reg (Reg.HM_QUAY_CHART_SIZE q)).toNat % 2 ^ 25) storeLimit))

/-- START (R74). -/
def doStart (q : Fin 4) (ini : Initiator) (s : State) : State := s.quayCmd q ini .start (fun s => s.acceptStart q)

/-- DOCK (R76). -/
def doDock (q : Fin 4) (ini : Initiator) (s : State) : State := s.quayCmd q ini .dock (fun s => s.acceptDock q)

/-- UNDOCK (R76). -/
def doUndock (q : Fin 4) (ini : Initiator) (s : State) : State := s.quayCmd q ini .undock (fun s => s.acceptUndock q)

/-- UNLOAD (R73). -/
def doUnload (q : Fin 4) (ini : Initiator) (s : State) : State := s.quayCmd q ini .unload (fun s => s.enterResetting q .unload false)

/-- RESET (R506). -/
def doReset (q : Fin 4) (ini : Initiator) (s : State) : State := s.quayCmd q ini .reset (fun s => s.enterResetting q .reset false)

end Sys2Proof.Machine
end

