-- ==== Sys2Proof/Machine/Hm.lean ====
section
/-! DEFINITION. The Harbourmaster's commands: quay commands, windows, publish points and squashes (R43, R45, R70-R78, R93-R95,
R104-R113, R121, R122, R456, R457, R506, R507), and the end of a stage that writes to a peer. -/
namespace Sys2Proof.Machine

/-! Stages that end. -/

/-- Requests of a stage to its peers that are outstanding writes (R456). -/
def State.writesOut (s : State) (t : ReqTag) : Bool :=
  s.onnak.reqs.any (fun r => decide (r.kind = .write) && r.req.quay = t.quay && r.req.frame = t.frame && r.req.stage = t.stage)

/-- Device addresses, in a peer's fleet berth region, of the berths that a remote handle covers (R453). -/
def remoteBerths (h : HandleT) : List Nat :=
  (List.range h.length).filterMap (fun i =>
    let a := h.base + 4096 * i
    let o := (a - Addr.onnak) % 0x1000000000
    if 0xF00000000 ≤ o ∧ o < 0xF0C000000 then some a else none)

/-- A stage that has ended signals the berths its remote outputs fill at a peer; after a status other than OK their lines go poisoned
first (R105, R457). -/
def State.signalRemote (s : State) (q : Fin 4) (n : FrameNo) (i : Nat) (status : Status) : State :=
  match s.quays[q].frame? n with
  | none => s
  | some f =>
    let t := s.tagFor q f i
    let x := s.quays[q]
    ((x.stageE i).outs.filterMap x.handle?).foldl (fun (s : State) h =>
      if h.kind ≠ 2 then s
      else (remoteBerths h).foldl (fun (s : State) a =>
        let peer := (a - Addr.onnak) / 0x1000000000
        let o := (a - Addr.onnak) % 0x1000000000
        let s : State := if status = St.OK then s
          else s.sendPack ⟨peer, t, h.handle, o, List.replicate 4096 0#8, s.time.now, true⟩
        s.sendSignal peer t o) s) s

/-- Signal what the stages that have ended leave to be signalled at peers. -/
def State.settleRemote (s : State) (q : Fin 4) : State :=
  s.quays[q].frames.foldl (fun (s : State) f =>
    if f.squashed then s
    else f.stages.foldl (fun (s : State) r =>
      match r.status with
      | some st =>
        if r.signalled then s
        else (s.modStage q f.num r.idx (fun r => { r with signalled := true })).signalRemote q f.num r.idx st
      | none => s) s) s

/-- A stage's work is done with the statuses it met: its remote writes are sent, and it ends once they are answered (R24, R456). -/
def State.completeStage (s : State) (q : Fin 4) (n : FrameNo) (i : Nat) (sts : List Status) : State :=
  match s.quays[q].frame? n with
  | none => s
  | some f =>
    let t := s.tagFor q f i
    let s := s.modStage q n i (fun r => { r with gathered := r.gathered ++ sts })
    let s := s.settlePacks t
    if s.writesOut t then s.modStage q n i (fun r => { r with draining := true })
    else
      let all := match s.stageRun? q n i with | some r => r.gathered | none => []
      (s.finishStage q n i (worst all)).settleRemote q

/-- Stages whose remote writes have all been answered end (R456). -/
def State.settleDraining (s : State) (q : Fin 4) : State :=
  s.quays[q].frames.foldl (fun (s : State) f => f.stages.foldl (fun (s : State) r0 =>
    match s.stageRun? q f.num r0.idx with
    | some r =>
      if r.draining && r.status.isNone && !s.writesOut (s.tagFor q f r.idx) then
        (s.finishStage q f.num r.idx (worst r.gathered)).settleRemote q
      else s
    | none => s) s) s

/-- The same in every quay. -/
def State.settleAllDraining (s : State) : State := allQuays.foldl (fun (s : State) q => s.settleDraining q) s

/-- Confirm what can be confirmed, with the signals that waited for it (R107, R457). -/
def State.confirmAll (s : State) (q : Fin 4) : State := ((s.confirmFrames q).releaseSignals q).settleRemote q

/-! Ticks and windows. -/

/-- Some frame may open in the quay now. -/
def Quay.frameRoom (x : Quay) : Bool := decide (x.inFlight < x.fif)

/-- Harbour time of an offset in µs within a period index of a frame (R45). -/
def FrameRec.timeOf (f : FrameRec) (c : Chart) (period us : Nat) : Nat := f.tick + period * c.cfg.periodUs * 1000 + us * 1000

/-- A window of the chart. -/
def Chart.windowE (c : Chart) (w : Nat) : Option WindowE := c.windows.find? (fun e => e.window = w)

/-- WINDOW_OPEN (R93-R95, R481): the window of frame n opens once. -/
def doWindowOpen (q : Fin 4) (n : FrameNo) (w : Nat) (s : State) : State :=
  match s.quays[q].chart, s.quays[q].frame? n with
  | some c, some f =>
    match c.windowE w with
    | none => s
    | some e =>
      if f.committed || f.opened.elem w || decide (s.time.now < f.timeOf c e.period e.openUs) || !s.quays[q].st.active then s
      else (s.openWindow q n w).settleRemote q
  | _, _ => s

/-- WINDOW_CLOSE (R104, R481): every stage of the window that has not completed is stopped. -/
def doWindowClose (q : Fin 4) (n : FrameNo) (w : Nat) (s : State) : State :=
  match s.quays[q].chart, s.quays[q].frame? n with
  | some c, some f =>
    match c.windowE w with
    | none => s
    | some e =>
      if decide (s.time.now < f.timeOf c e.period e.closeUs) || !s.quays[q].st.active then s
      else
        let s := if f.squashed then s
          else (c.allStages.filter (fun i => (c.stageAt i).window = w)).foldl (fun (s : State) i => s.closeStage q n i) s
        ((s.closeLights q n w).settlePiloted q).settleRemote q
  | _, _ => s

/-- PUBLISH_POINT (R46, R108, R110): the oldest unpublished frame of a Moored quay. -/
def doPublishPoint (q : Fin 4) (s : State) : State :=
  match s.quays[q].chart, s.quays[q].frames.find? (fun f => !f.committed) with
  | some c, some f =>
    if c.cfg.piloted || f.byDock || decide (s.time.now < f.timeOf c c.cfg.publishPeriod c.cfg.publishOffsetUs) || !s.quays[q].st.active then s
    else ((s.publishMoored q f.num).releaseSignals q).settleRemote q
  | _, _ => s

/-- SQUASH_COMPLETE (R111, R457). -/
def doSquashComplete (q : Fin 4) (s : State) : State :=
  if !s.quays[q].squashing then s
  else
    let gone := fun (n : FrameNo) => match s.quays[q].frame? n with | some f => f.squashed | none => false
    let s : State := { s with onnak := { s.onnak with
      heldSignals := s.onnak.heldSignals.filter (fun h => !(decide (h.2.1.quay = q.val) && gone h.2.1.frame))
      packs := s.onnak.packs.filter (fun w => !(decide (w.req.quay = q.val) && gone w.req.frame)) } }
    (s.squashDone q).settleRemote q

/-- FAULT_POP (R122): a write of 1 to HM_FAULT_POP removes the oldest entry. -/
def doFaultPop (s : State) : State := ({ s with faultFifo := s.faultFifo.drop 1 } : State).answer St.OK

/-! The meanings. -/

/-- LOAD. -/
def execLoad (q : Fin 4) (ini : Initiator) (s : State) : Res := act (doLoad q ini) s
/-- LOAD_COMPLETE. -/
def execLoadComplete (q : Fin 4) (s : State) : Res := act (doLoadComplete q) s
/-- START. -/
def execStart (q : Fin 4) (ini : Initiator) (s : State) : Res := act (doStart q ini) s
/-- DOCK. -/
def execDock (q : Fin 4) (ini : Initiator) (s : State) : Res := act (doDock q ini) s
/-- UNDOCK. -/
def execUndock (q : Fin 4) (ini : Initiator) (s : State) : Res := act (doUndock q ini) s
/-- UNLOAD. -/
def execUnload (q : Fin 4) (ini : Initiator) (s : State) : Res := act (doUnload q ini) s
/-- RESET. -/
def execReset (q : Fin 4) (ini : Initiator) (s : State) : Res := act (doReset q ini) s
/-- DOCK_TIMEOUT. -/
def execDockTimeout (q : Fin 4) (s : State) : Res := act (fun s => s.dockTimeout q) s
/-- RESET_DRAIN_LIMIT. -/
def execResetDrainLimit (q : Fin 4) (s : State) : Res := act (doResetDrainLimit q) s
/-- RESET_QUIESCENT. -/
def execResetQuiescent (q : Fin 4) (s : State) : Res := act (doResetQuiescent q) s
/-- RESET_OVERDUE. -/
def execResetOverdue (q : Fin 4) (s : State) : Res := act (doResetOverdue q) s
/-- RESET_ESCALATION. -/
def execResetEscalation (q : Fin 4) (s : State) : Res := act (doResetEscalation q) s
/-- WINDOW_OPEN. -/
def execWindowOpen (q : Fin 4) (n : FrameNo) (w : Nat) (s : State) : Res := act (doWindowOpen q n w) s
/-- WINDOW_CLOSE. -/
def execWindowClose (q : Fin 4) (n : FrameNo) (w : Nat) (s : State) : Res := act (doWindowClose q n w) s
/-- PUBLISH_POINT. -/
def execPublishPoint (q : Fin 4) (s : State) : Res := act (doPublishPoint q) s
/-- SQUASH_COMPLETE. -/
def execSquashComplete (q : Fin 4) (s : State) : Res := act (doSquashComplete q) s
/-- FAULT_POP. -/
def execFaultPop (s : State) : Res := act doFaultPop s

end Sys2Proof.Machine
end

