-- ==== Sys2Proof/Machine/Scratch.lean ====
section
/-! DEFINITION. The Derailleur's budgets and combiners (R381-R387), berth accesses of engines (R371-R374, R391), the tag operations
(R375) and bank gating (R390, R392). -/
namespace Sys2Proof.Machine

/-! Checks on arrival. -/

/-- A tag is stale: its tide is not its quay's live tide (R72, R118). -/
def State.staleTide (s : State) (t : ReqTag) : Bool :=
  let x := s.quays[t.q]
  decide (t.quay ≥ 4) || decide (x.tide ≠ t.tide) || decide (x.st = .empty ∨ x.st = .resetting)

/-- A tag's slot generation is not its slot's (R112). -/
def State.staleGen (s : State) (t : ReqTag) : Bool := decide ((s.quays[t.q]).gens.getD t.slot 0 ≠ t.gen)

/-- Drop an item whose tide does not match (R118): it is counted, and its stage meets STALE_TIDE. -/
def State.dropStale (s : State) (t : ReqTag) : State :=
  ((s.bump (Reg.HM_QUAY_STALE_DROP_COUNT t.q)).gather t St.STALE_TIDE).answer St.STALE_TIDE

/-- The handle a request names is fenced (R379). -/
def State.handleFenced (s : State) (t : ReqTag) : Bool :=
  match (s.quays[t.q]).handle? t.handle with
  | some h => h.fenced
  | none => false

/-- A request through a fenced handle is not issued and completes with FENCED (R379). -/
def State.answerFenced (s : State) (t : ReqTag) : State :=
  ((s.bump (Reg.QUAY_SPAD_FENCED_COUNT t.q)).gather t St.FENCED).answer St.FENCED

/-! Budgets (R381, R382). -/

/-- Port, class (0 rd, 1 wr, 2 rm) and direction of a line. -/
abbrev Lane := Nat × Nat × Nat

/-- The bucket of a quay's lane. -/
def bucketKey (q : Nat) (l : Lane) : Nat := (q * 8 + l.1) * 8 + l.2.1 * 2 + l.2.2

/-- Lines that a lane's bucket holds at the start of a window. -/
def State.budget (s : State) (q : Nat) (l : Lane) : Nat :=
  let w := s.reg (Reg.DRL_QP_SHARE (q * 8 + l.1))
  let share := match l.2.1 with | 0 => fld w 6 0 | 1 => fld w 14 8 | _ => fld w 22 16
  share * s.portCap l.1 / 64

/-- The bucket of a port for free Tender channels (R423), after those of the quays. -/
def freeKey (p : Nat) : Nat := 256 + p

/-- The lines of a port that the applied shares of all quays leave unassigned (R423). -/
def State.freeBudget (s : State) (p : Nat) : Nat :=
  let shares := sumNat (allQuays.map (fun q =>
    let w := s.reg (Reg.DRL_QP_SHARE (q.val * 8 + p))
    fld w 6 0 + fld w 14 8 + fld w 22 16))
  s.portCap p * (64 - shares) / 64

/-- Lines left in a lane's bucket. -/
def State.bucket (s : State) (q : Nat) (l : Lane) : Nat := Tab.get nat0 s.mem.buckets (bucketKey q l)

/-- Count the lines granted on a lane (R395). -/
def State.countLines (s : State) (q : Nat) (l : Lane) (n : Nat) : State :=
  let k := q * 8 + l.1
  s.wrapBy (match l.2.1 with | 0 => Reg.DRL_QP_RD_LINES k | 1 => Reg.DRL_QP_WR_LINES k | _ => Reg.DRL_QP_RM_LINES k) n

/-- Take `n` lines from every lane a request uses, if each bucket has them; otherwise the request is held and counted (R382). -/
def State.charge (s : State) (q : Nat) (ls : List Lane) (n : Nat) : Option State :=
  if ls.all (fun l => n ≤ s.bucket q l) then
    some (ls.foldl (fun (s : State) l =>
      (s.modMem (fun m => { m with buckets := Tab.set nat0 m.buckets (bucketKey q l) (Tab.get nat0 m.buckets (bucketKey q l) - n) })).countLines
        q l n) s)
  else none

/-- A request is held to the next window (R382). -/
def State.throttle (s : State) (q : Nat) (ls : List Lane) (w : DrlWait) : State :=
  let s := match ls.head? with | some l => s.bump (Reg.DRL_QP_THROTTLE_COUNT (q * 8 + l.1)) | none => s
  s.modMem (fun m => { m with drlWait := m.drlWait ++ [w] })

/-- The compute die of a stage's engine. -/
def State.dieOf (s : State) (t : ReqTag) : Nat := let e := (s.quays[t.q]).engineE t.stage; engineDie e.cls e.inst

/-- The lanes of an access to die `d` at port `p`: the die-to-die link is port 4 (R381). -/
def State.lanesTo (s : State) (t : ReqTag) (p d : Nat) (kind : ReqKind) : List Lane :=
  let c := if kind = .read then 0 else 1
  let from' := s.dieOf t % 2
  (p, c, 0) :: (if from' = d then [] else [(4, c, from')])

/-- The base die of a berth (R369). -/
def berthDie (b : Nat) : Nat := b / 24576

/-! Engine accesses to berths. -/

/-- The lanes of a berth access. -/
def State.berthLanes (s : State) (r : BerthReq) : List Lane := s.lanesTo r.tag (2 + berthDie r.berth) (berthDie r.berth) r.kind

/-- The berth's owner and tide are those an access carries (R372, R373). -/
def State.berthOwned (s : State) (t : ReqTag) (b : Nat) : Bool :=
  let g := s.tag b
  tagOwned g && decide (tagQuay g = t.quay) && decide (tagTide g = t.tide.toNat)

/-- A read that its tag allows: its bytes, and POISON for its stage (R372, R377, R391). -/
def State.serveRead (s : State) (r : BerthReq) : State :=
  if s.isGated (bankOf r.berth) then (s.gather r.tag St.FENCED).answer St.FENCED 0 (List.replicate 64 0#8)
  else
    let a := berthAddr r.berth + r.off
    let p := s.anyMarked a 64
    let s := if p then s.gather r.tag St.POISON else s
    s.answer (if p then St.POISON else St.OK) 0 (s.bytesAt a 64) p

/-- Issue a berth read past the Derailleur. -/
def State.issueRead (s : State) (r : BerthReq) : State :=
  let ls := s.berthLanes r
  match s.charge r.tag.quay ls 1 with
  | some s => s.serveRead r
  | none => s.throttle r.tag.quay ls (.berth r)

/-- ENGINE_BERTH_READ (R118, R372, R379, R391): served, held at the tag check, or dropped. -/
def doEngineBerthRead (r : BerthReq) (s : State) : State :=
  if s.handleFenced r.tag then s.answerFenced r.tag
  else if s.staleTide r.tag || !s.berthOwned r.tag r.berth then s.dropStale r.tag
  else if s.isGated (bankOf r.berth) || s.berthReady r.berth r.carries then s.issueRead r
  else s.modMem (fun m => { m with heldReads := m.heldReads ++ [⟨r.tag, r.carries, r.berth, r.off, s.time.now⟩] })

/-- A write reaches its bank (R373). -/
def State.landWrite (s : State) (r : BerthReq) : State :=
  let (s, st) := s.berthWrite { r.tag with frame := r.carries } r.berth r.off r.data r.enables r.poison
  (s.gather r.tag st).answer st

/-- Issue one berth write past the Derailleur. -/
def State.issueWrite (s : State) (r : BerthReq) : State :=
  let ls := s.berthLanes r
  match s.charge r.tag.quay ls 1 with
  | some s => s.landWrite r
  | none => s.throttle r.tag.quay ls (.berth r)

/-- A burst is issued: charged one line per line it touches (R387). -/
def State.issueBurst (s : State) (b : Burst) : State :=
  match b.writes with
  | [] => s
  | w :: _ =>
    let s := if 2 ≤ b.writes.length then s.bump (Reg.DRL_QP_MERGE_COUNT (w.tag.quay * 8 + b.port)) else s
    let lines := (dedup (b.writes.map (fun r => r.berth * 64 + r.off / 64))).length
    let ls := s.berthLanes w
    match s.charge w.tag.quay ls lines with
    | some s => b.writes.foldl (fun (s : State) r => s.landWrite r) s
    | none =>
      let s := s.bump (Reg.DRL_QP_THROTTLE_COUNT (w.tag.quay * 8 + b.port))
      s.modMem (fun m => { m with drlWait := m.drlWait ++ b.writes.map DrlWait.berth })

/-- Take a burst out of its combiner and issue it. -/
def State.flushBurst (s : State) (b : Burst) : State :=
  (s.modMem (fun m => { m with bursts := m.bursts.erase b })).issueBurst b

/-- First byte of a write in the scratchpad's address order, and the byte after its last. -/
def BerthReq.first (r : BerthReq) : Nat := berthAddr r.berth + r.off
def BerthReq.last (r : BerthReq) : Nat := r.first + r.data.length

/-- The write extends the burst (R387). -/
def Burst.takes (b : Burst) (r : BerthReq) : Bool :=
  match b.writes.getLast?, b.writes.head? with
  | some l, some h =>
    decide (l.stream = r.stream ∧ l.tag.quay = r.tag.quay ∧ l.tag.tide = r.tag.tide ∧ l.carries.toNat % 16 = r.carries.toNat % 16 ∧
      l.last = r.first ∧ h.first / 256 = (r.last - 1) / 256)
  | _, _ => false

/-- ENGINE_BERTH_WRITE (R118, R373, R379, R387): the write enters its port's combiner. -/
def doEngineBerthWrite (r : BerthReq) (s : State) : State :=
  let port := 2 + berthDie r.berth
  if s.handleFenced r.tag then s.answerFenced r.tag
  else if s.staleTide r.tag || !s.berthOwned r.tag r.berth then s.dropStale r.tag
  else if r.data.length = 0 ∨ 64 < r.data.length then s.issueWrite r
  else
    let open' := s.mem.bursts.find? (fun b => b.port = port && (match b.writes.head? with
      | some w => decide (w.stream = r.stream ∧ w.tag.quay = r.tag.quay)
      | none => false))
    match open' with
    | some b =>
      if b.takes r then
        let b' := { b with writes := b.writes ++ [r] }
        let full := match b'.writes.head? with | some h => decide (r.last - h.first ≥ 256) | none => false
        let s := s.modMem (fun m => { m with bursts := m.bursts.map (fun x => if x = b then b' else x) })
        if full then s.flushBurst b' else s
      else (s.flushBurst b).modMem (fun m => { m with bursts := m.bursts ++ [⟨port, [r], s.time.now⟩] })
    | none => s.modMem (fun m => { m with bursts := m.bursts ++ [⟨port, [r], s.time.now⟩] })

/-- COMBINER_TIMEOUT (R387): 16 cycles have passed since the first write of a port's burst. -/
def doCombinerTimeout (port : Nat) (s : State) : State :=
  match s.mem.bursts.find? (fun b => b.port = port && (match b.writes.head? with
    | some w => decide (16 ≤ s.cyclesSince (s.dieOf w.tag % 2) b.since)
    | none => true)) with
  | some b => s.flushBurst b
  | none => s

/-- BERTH_TAG_WRITE (R97, R373, R374, R387): a stream's bursts go first; then the berth is FULL and its signal is emitted. -/
def doBerthTagWrite (t : ReqTag) (stream berth : Nat) (s : State) : State :=
  if s.staleTide t then s.dropStale t
  else
    let mine := s.mem.bursts.filter (fun b => match b.writes.head? with
      | some w => decide (w.stream = stream ∧ w.tag.quay = t.quay)
      | none => false)
    let s := mine.foldl (fun (s : State) b => s.flushBurst b) s
    let (s, st) := s.setFull t t.handle berth
    (s.gather t st).answer st

/-- One request that waited for the window is tried again (R382). -/
def State.retryBerth (s : State) (r : BerthReq) : State :=
  if s.staleTide r.tag then s.dropStale r.tag
  else if r.kind = .read then s.issueRead r else s.issueWrite r

/-! Tag operations (R375). -/

/-- Which operation QUAY_SPAD_TAG_CMD names. -/
inductive TagOp where
  | staticFull | empty
  deriving DecidableEq, Repr

/-- Every berth of the range lies in a berth-group handle that is not rotated (R375). -/
def Quay.tagRangeOk (x : Quay) (c : Chart) (first count : Nat) : Bool :=
  1 ≤ count && decide (first + count ≤ c.cfg.berthCount) &&
    (List.range count).all (fun i =>
      let b := c.cfg.berthFirst + first + i
      let hs := x.handles.filter (fun h => h.kind = 0 && h.base ≤ b && decide (b < h.base + h.length))
      !hs.isEmpty && hs.all (fun h => !h.rotated))

/-- A tag operation (R375, R393): its outcome is in QUAY_SPAD_TAG_STATUS. -/
def State.tagOp (s : State) (q : Fin 4) (op : TagOp) : State :=
  let x := s.quays[q]
  let done := fun (s : State) (st : Status) => (s.put (Reg.QUAY_SPAD_TAG_STATUS q) st.toNat).answer st
  if x.st ≠ .loaded ∧ x.st ≠ .docked then done (s.bump (Reg.QUAY_SPAD_BAD_STATE_COUNT q)) St.BAD_STATE
  else match x.chart with
    | none => done s St.REFUSED
    | some c =>
      let first := fld (s.reg (Reg.QUAY_SPAD_TAG_FIRST q)) 15 0
      let count := fld (s.reg (Reg.QUAY_SPAD_TAG_COUNT q)) 15 0
      if !x.tagRangeOk c first count then done s St.REFUSED
      else
        let bs := (List.range count).map (fun i => c.cfg.berthFirst + first + i)
        let s := bs.foldl (fun (s : State) b =>
          match op with
          | .staticFull => let g := s.tag b; s.setTag b (mkTag true true (tagFrame g) x.tide q (tagOwned g) (tagPoisoned g))
          | .empty => s.emptyBerth b) s
        done s St.OK

/-- FIRMWARE_BERTH_WRITE (R369, R375): a write through the scratchpad window. -/
def doFirmwareBerthWrite (a : Nat) (bs : List Byte) (s : State) : State :=
  match regionOf a with
  | .spad =>
    let (s, st) := s.devWrite .app a bs
    (if st = St.OK then s.retagPoison (berthOf a) else s).answer st
  | _ => s.answer St.OOB

/-! Bank gating (R390, R392). -/

/-- A handle maps a berth of the bank, or a LOAD in progress claims one (R390). -/
def State.bankHeld (s : State) (b : Nat) : Bool :=
  s.bankMapped b || s.anyQuay (fun x => match x.load with
    | some v => (match v.chart with
      | some c => (List.range c.cfg.berthCount).any (fun i => bankOf (c.cfg.berthFirst + i) = b)
      | none => false)
    | none => false)

/-- Set or clear a bank's request bit. -/
def State.gateBit (s : State) (b v : Nat) : State := s.setBits (Reg.QUAY_BANK_GATE_REQ (b / 32)) (b % 32) (b % 32) v

/-- BANK_GATE_REQUEST (R390, R394). -/
def doBankGateRequest (ini : Initiator) (b : Nat) (s : State) : State :=
  if b ≥ 128 then s
  else if ini ≠ .mc then (s.ignoredWrite (Reg.QUAY_BANK_GATE_REQ (b / 32))).answer St.OK
  else
    let s := (s.gateBit b 1).answer St.OK
    if s.isGated b ∨ s.mem.gateReqs.any (fun e => e.1 = b) then s
    else s.modMem (fun m => { m with gateReqs := m.gateReqs ++ [(b, s.time.now)] })

/-- The berths of a bank. -/
def bankBerths (b : Nat) : List Nat :=
  (List.range 384).map (fun j => b / 64 * 24576 + (b % 64) / 8 * 3072 + 8 * j + b % 8)

/-- BANK_GATED (R390): a requested bank that nothing maps is gated, and keeps no contents. Writes are acknowledged within the command that
issues them, so its outstanding-write counter is zero. -/
def doBankGated (b : Nat) (s : State) : State :=
  if !s.mem.gateReqs.any (fun e => e.1 = b) ∨ s.bankHeld b then s
  else
    s.modMem (fun m =>
      let m := (bankBerths b).foldl (fun (m : MemState) n => m.wipe (berthAddr n) 4096) m
      { m with gateReqs := m.gateReqs.filter (fun e => e.1 ≠ b), gated := addNew b m.gated })

/-- BANK_GATE_GIVEUP (R390): the conditions have not held by 50 µs after the request. -/
def doBankGateGiveup (b : Nat) (s : State) : State :=
  match s.mem.gateReqs.find? (fun e => e.1 = b) with
  | some (_, t) =>
    if s.time.now < t + 50000 then s
    else ((s.modMem (fun m => { m with gateReqs := m.gateReqs.filter (fun e => e.1 ≠ b) })).gateBit b 0).bump Reg.QUAY_BANK_GIVEUP_COUNT
  | none => s

/-- BANK_WAKE (R392, R394): the MC clears a bank's request bit. -/
def doBankWake (ini : Initiator) (b : Nat) (s : State) : State :=
  if b ≥ 128 then s
  else if ini ≠ .mc then (s.ignoredWrite (Reg.QUAY_BANK_GATE_REQ (b / 32))).answer St.OK
  else (((s.gateBit b 0).modMem (fun m => { m with gateReqs := m.gateReqs.filter (fun e => e.1 ≠ b) })).wakeBank b).answer St.OK

/-- BANK_WAKE_DONE (R392): powered up and scrubbed. -/
def doBankWakeDone (b : Nat) (s : State) : State := s.modMem (fun m => { m with waking := m.waking.filter (fun x => x ≠ b) })

/-! The meanings. -/

/-- ENGINE_BERTH_READ. -/
def execEngineBerthRead (r : BerthReq) (s : State) : Res := act (doEngineBerthRead { r with kind := .read }) s
/-- ENGINE_BERTH_WRITE. -/
def execEngineBerthWrite (r : BerthReq) (s : State) : Res := act (doEngineBerthWrite { r with kind := .write }) s
/-- COMBINER_TIMEOUT. -/
def execCombinerTimeout (port : Fin 6) (s : State) : Res := act (doCombinerTimeout port) s
/-- BERTH_TAG_WRITE. -/
def execBerthTagWrite (t : ReqTag) (stream berth : Nat) (s : State) : Res := act (doBerthTagWrite t stream berth) s
/-- TAG_SET_STATIC_FULL (R375). -/
def execTagSetStaticFull (q : Fin 4) (s : State) : Res := act (fun s => s.tagOp q .staticFull) s
/-- TAG_SET_EMPTY (R375). -/
def execTagSetEmpty (q : Fin 4) (s : State) : Res := act (fun s => s.tagOp q .empty) s
/-- FIRMWARE_BERTH_WRITE. -/
def execFirmwareBerthWrite (a : Nat) (bs : List Byte) (s : State) : Res := act (doFirmwareBerthWrite a bs) s
/-- BANK_GATE_REQUEST. -/
def execBankGateRequest (ini : Initiator) (bank : Fin 128) (s : State) : Res := act (doBankGateRequest ini bank) s
/-- BANK_GATED. -/
def execBankGated (bank : Fin 128) (s : State) : Res := act (doBankGated bank) s
/-- BANK_GATE_GIVEUP. -/
def execBankGateGiveup (bank : Fin 128) (s : State) : Res := act (doBankGateGiveup bank) s
/-- BANK_WAKE. -/
def execBankWake (ini : Initiator) (bank : Fin 128) (s : State) : Res := act (doBankWake ini bank) s
/-- BANK_WAKE_DONE. -/
def execBankWakeDone (bank : Fin 128) (s : State) : Res := act (doBankWakeDone bank) s

end Sys2Proof.Machine
end

