-- ==== Sys2Proof/Machine/Edge.lean ====
section
/-! DEFINITION. The Edge Guard (R289-R296, R302): evaluation of its sources' frames row by row, outcomes, trips and releases, and the
arrival of berth signals (R97, R372), which brings it the rows of a STEREO stage. -/
namespace Sys2Proof.Machine

/-- The EDGE sources of quay 0's chart. -/
def State.edgeSources (s : State) : List EdgeSrc := match s.quays[(0 : Fin 4)].chart with | some c => c.edgeSources | none => []

/-- The ingress flags of frame n of a context's stream (R134). -/
def State.streamFlags (s : State) (ctx : Nat) (n : FrameNo) : Nat :=
  let x := s.cam.ctxs.getD ctx Ctx.reset
  match x.cur with
  | some f => if f.frame = n ∧ !f.extra then f.flags else
    (match x.last with | some l => if l.frame = n then l.flags else 0 | none => 0)
  | none => match x.last with | some l => if l.frame = n then l.flags else 0 | none => 0

/-- The camera contexts whose frames reach STAGES entry i: those of the pipes upstream, or every context of the quay. -/
def Quay.inputCtxs (x : Quay) (i : Nat) : List Nat :=
  match x.chart with
  | none => []
  | some c =>
    let up := (c.upstream false c.stages.length [i]).filterMap (fun k =>
      if (c.stageEngine k).cls = Cls.CAMP then x.campCtx (c.stageAt k).stage else none)
    if up.isEmpty then x.streamCtxs else up

/-- The index of a stage id in a chart's STAGES section. -/
def Quay.stageIdx? (x : Quay) (id : Nat) : Option Nat :=
  match x.chart with
  | some c => findIdx (fun e => decide (e.stage = id)) c.stages
  | none => none

/-- The contexts whose flags a source's frames carry. -/
def State.edgeCtxs (s : State) (e : EdgeSrc) : List Nat :=
  if e.kind = 0 then [e.ctx]
  else match s.quays[(0 : Fin 4)].stageIdx? e.stage with
    | some i => s.quays[(0 : Fin 4)].inputCtxs i
    | none => []

/-- Flags at a decision that make every region UNKNOWN: HDR_LOST, CRC, MALFORMED, PHY, INJECT_FAIL, REPEATED (R292). -/
def edgeSpoilers : List Nat := [Ing.HDR_LOST, Ing.CRC, Ing.MALFORMED, Ing.PHY, Ing.INJECT_FAIL, Ing.REPEATED]

/-- The frame carries such a flag. -/
def State.edgeSpoiled (s : State) (e : EdgeSrc) (n : FrameNo) : Bool :=
  (s.edgeCtxs e).any (fun c => edgeSpoilers.any (fun b => (s.streamFlags c n).testBit b))

/-- Update source k. -/
def State.modEdge (s : State) (k : Nat) (f : EdgeSrcSt → EdgeSrcSt) : State :=
  { s with edge := { s.edge with srcs := modAt s.edge.srcs k f } }

/-- A tripped Edge Guard is released once every region has its clear count and, with latch, no trip awaits release (R293). -/
def State.edgeTryRelease (s : State) : State :=
  match s.quays[(0 : Fin 4)].chart with
  | none => s
  | some c =>
    let need := leAt c.edgeEntry 9 1
    let latch := bitOf (leAt c.edgeEntry 0x0A 1) 0
    let all := s.edge.srcs.all (fun x => x.regions.all (fun r => decide (need ≤ r.a.clear) && decide (need ≤ r.b.clear)))
    if all && !(latch && s.edge.awaiting) then
      { s with edge := { s.edge with srcs := s.edge.srcs.map (fun x => { x with regions := x.regions.map (fun r => { r with tripped := false }) }) } }
    else s

/-- The channels' outcomes for a region of frame n are applied (R293, R294): counts, trip, disagreement, release. Where an outcome of
the same frame had been applied already (a frame that its end marks FROZEN), this one takes its place. -/
def State.edgeDecide (s : State) (k r : Nat) (n : FrameNo) (oa ob : Outc) : State :=
  match s.edge.srcs[k]?, s.edgeSources[k]? with
  | some x, some e =>
    match x.regions[r]?, x.evals.find? (fun v => v.frame = n) with
    | some g, some v =>
      let was := s.edgeN
      let base := ((v.runs[r]?).bind (·.before)).getD (g.a, g.b)
      let a := base.1.apply oa
      let b := base.2.apply ob
      let trip := (decide (oa ≠ Outc.clear) && decide (e.tripFrames ≤ a.bad)) || (decide (ob ≠ Outc.clear) && decide (e.tripFrames ≤ b.bad))
      let bit := 8 * k + r
      let s := s.modEdge k (fun x => { x with
        regions := modAt x.regions r (fun g => { g with tripped := g.tripped || trip, a := a, b := b })
        evals := x.evals.map (fun v => if v.frame = n then { v with runs := modAt v.runs r (fun u => { u with before := some base }) } else v) })
      let s := s.setBits Reg.EDGE_LAST_DROP bit bit (b2n (decide (oa = Outc.drop) || decide (ob = Outc.drop)))
      let unknown := decide (oa = Outc.unknown) || decide (ob = Outc.unknown)
      let s := s.setBits Reg.EDGE_LAST_UNKNOWN bit bit (b2n unknown)
      let s := if unknown then (s.bump Reg.EDGE_UNKNOWN_COUNT).setEvent Reg.EDGE_EVENT 4 else s
      let s : State := if trip then
          let s : State := { s with edge := { s.edge with awaiting := true } }
          (if was then s else s.bump Reg.EDGE_TRIP_COUNT).setReg Reg.EDGE_LAST_TRIP_FRAME n
        else s
      let s : State := if oa = ob then s
        else ((({ s with edge := { s.edge with disagree := true } } : State).bump Reg.EDGE_DISAGREE_COUNT).setEvent Reg.EDGE_EVENT 8).cgSignal
          Cause.EDGE_DISAGREE n
      s.edgeTryRelease.edgeSettle was
    | _, _ => s
  | _, _ => s

/-- The evaluation of a source's frame, none of it gathered. -/
def EdgeSrc.evalOf (e : EdgeSrc) (n : FrameNo) (tick : Nat) : EdgeEval :=
  ⟨n, tick, 0, (List.range e.regions).map (fun r => ⟨EdgeAcc.start (e.region r), none⟩)⟩

/-- A frame of quay 0 is to be evaluated by source k (R289): its latest eight are kept. -/
def State.edgeAwait (s : State) (k : Nat) (e : EdgeSrc) (n : FrameNo) (tick : Nat) : State :=
  s.modEdge k (fun x =>
    if x.evals.any (fun v => v.frame = n) then { x with evals := x.evals.map (fun v => if v.frame = n then { v with tick := tick } else v) }
    else
      let vs := x.evals ++ [e.evalOf n tick]
      { x with evals := vs.drop (vs.length - 8) })

/-- Quay 0 opens a frame: every source evaluates it (R289). -/
def State.edgeOpen (s : State) (n : FrameNo) (tick : Nat) : State :=
  (enum s.edgeSources).foldl (fun (s : State) e => s.edgeAwait e.1 e.2 n tick) s

/-- A frame number that no tick opened is not evaluated. -/
def State.edgeForget (s : State) (n : FrameNo) : State :=
  { s with edge := { s.edge with srcs := s.edge.srcs.map (fun x => { x with evals := x.evals.filter (fun v => v.frame ≠ n) }) } }

/-- Row v of a source's frame: its pixels are added, and every region it completes is decided. A faulty channel B reaches the outcome
`bad` instead of channel A's (R291, R292, R294). -/
def State.edgeRow (s : State) (k : Nat) (e : EdgeSrc) (n : FrameNo) (v : Nat) (row : List El) (bad : Option Outc) : State :=
  match (s.edge.srcs[k]?).bind (fun x => x.evals.find? (fun u => u.frame = n)) with
  | none => s
  | some ev =>
    if v < ev.next then s
    else
      let runs := (enum ev.runs).map (fun u => { u.2 with acc := e.addRow (e.region u.1) v row u.2.acc })
      let s := s.modEdge k (fun x => { x with evals := x.evals.map (fun u => if u.frame = n then { u with next := v + 1, runs := runs } else u) })
      let spoiled := s.edgeSpoiled e n
      (enum runs).foldl (fun (s : State) u =>
        let g := e.region u.1
        if u.2.before.isSome || decide (v < g.y1) then s
        else
          let o := if spoiled || u.2.acc.poisoned then Outc.unknown else g.outcome u.2.acc
          s.edgeDecide k u.1 n o (bad.getD o)) s

/-- A line of a context reaches the sources that tap it (R289). -/
def State.edgeLine (s : State) (ctx : Nat) (n : FrameNo) (tick v : Nat) (bytes : List Byte) (bad : Option Outc) : State :=
  if s.quays[(0 : Fin 4)].st ≠ .running ∧ s.quays[(0 : Fin 4)].st ≠ .docking then s
  else (enum s.edgeSources).foldl (fun (s : State) e =>
    if e.2.kind = 0 ∧ e.2.ctx = ctx then
      (s.edgeAwait e.1 e.2 n tick).edgeRow e.1 e.2 n v ((unpackLine 0x2E e.2.w bytes).map (fun c => ⟨c, false⟩)) bad
    else s) s

/-- A stream frame's end marks it FROZEN: every region of the sources it reaches is UNKNOWN for the frame (R292). -/
def State.edgeFrozen (s : State) (ctx : Nat) (n : FrameNo) : State :=
  (enum s.edgeSources).foldl (fun (s : State) e =>
    if (s.edgeCtxs e.2).elem ctx then
      (List.range e.2.regions).foldl (fun (s : State) r => s.edgeDecide e.1 r n Outc.unknown Outc.unknown) s
    else s) s

/-- Row v of the disparity plane in frame slot `slot` of handle h (R175). -/
def State.disparityRow (s : State) (e : EdgeSrc) (h slot v : Nat) : List El :=
  let x := s.quays[(0 : Fin 4)]
  let o := 4096 + v * rowPitch e.w 1 2 0
  match x.handle? h with
  | some t =>
    let a := (if t.kind = 0 then berthAddr (t.slotBase x.fif slot) else t.slotBase x.fif slot) + o
    (List.range e.w).map (fun u => ⟨s.natAt (a + 2 * u) 2, s.marked (a + 2 * u)⟩)
  | none => []

/-- The rows of a STEREO stage's disparity plane whose berths are now full reach the sources that read it (R289). -/
def State.edgeStereo (s : State) (g : BerthSig) (bad : Option Outc) : State :=
  if g.quay ≠ 0 then s
  else (enum s.edgeSources).foldl (fun (s : State) e =>
    let x := s.quays[(0 : Fin 4)]
    match (if e.2.kind = 1 then x.stageIdx? e.2.stage else none) with
    | none => s
    | some i =>
      if (x.stageE i).outs.head? ≠ some g.handle then s
      else
        let pitch := rowPitch e.2.w 1 2 0
        let base := match x.handle? g.handle with | some t => t.slotBase x.fif g.slot | none => 0
        let full := fun (v : Nat) =>
          (List.range ((4096 + v * pitch + pitch - 1) / 4096 - (4096 + v * pitch) / 4096 + 1)).all (fun j =>
            s.berthReady (base + (4096 + v * pitch) / 4096 + j) g.frame)
        let next := (((s.edge.srcs[e.1]?).bind (fun u => u.evals.find? (fun v => v.frame = g.frame))).map (·.next)).getD e.2.h
        ((List.range' next (e.2.h - next)).takeWhile full).foldl (fun (s : State) v =>
          s.edgeRow e.1 e.2 g.frame v (s.disparityRow e.2 g.handle g.slot v) bad) s) s

/-- EDGE_DEADLINE (R292): a region whose last row has not arrived by tick + deadline_us takes UNKNOWN. -/
def doEdgeDeadline (k r : Nat) (s : State) : State :=
  match s.edge.srcs[k]?, s.edgeSources[k]? with
  | some x, some e =>
    match x.evals.find? (fun v => (match v.runs[r]? with | some u => u.before.isNone | none => false)) with
    | some v =>
      if s.time.now < v.tick + e.deadlineUs * 1000 then s else s.edgeDecide k r v.frame Outc.unknown Outc.unknown
    | none => s
  | _, _ => s

/-- EDGE_RELEASE (R293, R294, R302): Coastguard software only. -/
def doEdgeRelease (ini : Initiator) (s : State) : State :=
  if ini ≠ .cg then s.ignoredWrite Reg.EDGE_RELEASE
  else
    let was := s.edgeN
    (({ s with edge := { s.edge with awaiting := false, disagree := false } } : State).edgeTryRelease.edgeSettle was).answer St.OK

/-- EDGE_TEST (R302): Coastguard software forces EDGE_N asserted, or ends the force. -/
def doEdgeTest (ini : Initiator) (force : Bool) (s : State) : State :=
  if ini ≠ .cg then s.ignoredWrite Reg.EDGE_TEST
  else
    let was := s.edgeN
    ((s.put Reg.EDGE_TEST (b2n force)).edgeSettle was).answer St.OK

/-! Berth signals. -/

/-- A stage run that waits for the berth of a signal: dispatched, not ended, reading the handle for the signal's frame or the one after (R97,
R98). -/
def Quay.awaits (x : Quay) (g : BerthSig) (f : FrameRec) (r : StageRun) : Bool :=
  r.dispatched && r.status.isNone && (x.stageE r.idx).ins.elem g.handle && (decide (f.num = g.frame) || decide (f.num = g.frame + 1#32))

/-- A signal of quay q's live tide reaches its consumers (R97, R98, R372): it marks the berth ready in every armed consumer of the handle,
held reads that the tag now allows go on, and the Edge Guard sees the rows it completes. -/
def State.signalReaches (s : State) (q : Fin 4) (g : BerthSig) (bad : Option Outc) : State :=
  let x := s.quays[q]
  let s := s.modQuay q (fun y => { y with frames := y.frames.map (fun f =>
    { f with stages := f.stages.map (fun r => if x.awaits g f r then { r with ready := addNew g.berth r.ready } else r) }) })
  let free := s.mem.heldReads.filter (fun r => decide (r.berth = g.berth) && s.berthReady r.berth r.carries && decide (r.tag.quay = g.quay))
  let s := s.modMem (fun m => { m with heldReads := m.heldReads.filter (fun r => !free.elem r) })
  let s := free.reverse.foldl (fun (s : State) r =>
    s.issueRead ⟨r.tag, r.carries, r.berth, r.off, .read, [], 0, false, 0⟩) s
  s.edgeStereo g bad

/-- The oldest berth signal reaches its consumers (R97, R98, R118, R372): dropped when its quay or tide no longer owns the berth. -/
def doBerthSignalArrival (bad : Option Outc) (s : State) : State :=
  match s.mem.signals with
  | [] => s
  | g :: rest =>
    let s := s.modMem (fun m => { m with signals := rest })
    match quayOf? g.quay with
    | none => s
    | some q =>
      let x := s.quays[q]
      let t := s.tag g.berth
      if x.tide ≠ g.tide ∨ !tagOwned t ∨ tagQuay t ≠ g.quay ∨ tagTide t ≠ g.tide.toNat then s.bump (Reg.HM_QUAY_STALE_DROP_COUNT q)
      else s.signalReaches q g bad

/-- BERTH_SIGNAL_ARRIVAL. -/
def execBerthSignalArrival (bad : Option Outc) (s : State) : Res := act (doBerthSignalArrival bad) s
/-- EDGE_DEADLINE. -/
def execEdgeDeadline (source region : Nat) (s : State) : Res := act (doEdgeDeadline source region) s
/-- EDGE_RELEASE. -/
def execEdgeRelease (ini : Initiator) (s : State) : Res := act (doEdgeRelease ini) s
/-- EDGE_TEST. -/
def execEdgeTest (ini : Initiator) (force : Bool) (s : State) : Res := act (doEdgeTest ini force) s

end Sys2Proof.Machine
end

