-- ==== Sys2Proof/Machine/Camera.lean ====
section
/-! DEFINITION. Camera ingress (R123-R139, R149, R150): ticks that open frames, CSI-2 packets, ingress flags and deadlines, pattern
injection, FSYNC pulses. -/
namespace Sys2Proof.Machine

/-! Streams. -/

/-- A stream record (R129). -/
structure StreamRec where
  bytes : List Byte
  deriving DecidableEq, Repr

def StreamRec.u (r : StreamRec) (o n : Nat) : Nat := leAt r.bytes o n
def StreamRec.vc (r : StreamRec) : Nat := r.u 0 1
def StreamRec.dt (r : StreamRec) : Nat := r.u 1 1
def StreamRec.embedded (r : StreamRec) : Bool := bitOf (r.u 2 1) 0
def StreamRec.safety (r : StreamRec) : Bool := bitOf (r.u 2 1) 1
def StreamRec.inject (r : StreamRec) : Bool := bitOf (r.u 2 1) 2
def StreamRec.rolling (r : StreamRec) : Bool := bitOf (r.u 2 1) 3
def StreamRec.triggered (r : StreamRec) : Bool := bitOf (r.u 2 1) 4
def StreamRec.w (r : StreamRec) : Nat := r.u 4 2
def StreamRec.h (r : StreamRec) : Nat := r.u 6 2
def StreamRec.fsync (r : StreamRec) : Nat := r.u 8 1
def StreamRec.i3c (r : StreamRec) : Nat := r.u 9 1
def StreamRec.latch (r : StreamRec) : Nat := r.u 0xA 1
def StreamRec.frozenLimit (r : StreamRec) : Nat := r.u 0xB 1
def StreamRec.delayNs (r : StreamRec) : Nat := r.u 0xC 4
def StreamRec.lineNs (r : StreamRec) : Nat := r.u 0x10 4
def StreamRec.sofUs (r : StreamRec) : Nat := r.u 0x14 4
def StreamRec.eofUs (r : StreamRec) : Nat := r.u 0x18 4
def StreamRec.openUs (r : StreamRec) : Nat := r.u 0x1C 4
def StreamRec.closeUs (r : StreamRec) : Nat := r.u 0x20 4
def StreamRec.counterOff (r : StreamRec) : Nat := r.u 0x24 2
def StreamRec.counterBits (r : StreamRec) : Nat := r.u 0x26 1
def StreamRec.exposure0 (r : StreamRec) : Nat := r.u 0x28 4

/-- The quay that holds port p and the port's CAMERAS entry; none while its PHY is powered down (R124). -/
def State.portEntry (s : State) (p : Nat) : Option (Fin 4 × List Byte) :=
  match s.ownerOf Cls.CAMRX p with
  | some q => (s.quays[q].paramOf Cls.CAMRX p).map (fun b => (q, b))
  | none => none

/-- The stream that context c carries, with the quay that holds it. -/
def State.streamRec? (s : State) (c : Nat) : Option (Fin 4 × StreamRec) :=
  match s.portEntry (c / 3) with
  | some (q, b) => if bitOf (leAt b 0x0C 1) (c % 3) then some (q, ⟨slice b (0x10 + 48 * (c % 3)) 48⟩) else none
  | none => none

/-- The enabled context of port p that carries a virtual channel (R126). -/
def State.ctxOfVc (s : State) (p vc : Nat) : Option Nat :=
  ((List.range 3).map (fun k => 3 * p + k)).find? (fun c => match s.streamRec? c with | some (_, r) => decide (r.vc = vc) | none => false)

/-- A context. -/
def State.ctx (s : State) (c : Nat) : Ctx := s.cam.ctxs.getD c Ctx.reset

/-- Update a context. -/
def State.modCtx (s : State) (c : Nat) (f : Ctx → Ctx) : State := { s with cam := { s.cam with ctxs := modAt s.cam.ctxs c f } }

/-- Update the stream frame a context is receiving. -/
def State.modCur (s : State) (c : Nat) (f : StreamFrame → StreamFrame) : State := s.modCtx c (fun x => { x with cur := x.cur.map f })

/-- The tick that opened frame n of a quay. -/
def State.tickOf (s : State) (q : Fin 4) (n : FrameNo) : Option Nat :=
  (s.cam.ticks.reverse.find? (fun t => t.quay = q.val && t.frame = n)).map (·.tick)

/-- The frame that tick T of a quay opened. -/
def State.frameAt (s : State) (q : Fin 4) (T : Nat) : Option FrameNo :=
  (s.cam.ticks.reverse.find? (fun t => t.quay = q.val && t.tick = T)).map (·.frame)

/-- A harbour-time stamp of an arrival now: within 10 ns of it (R131). -/
def State.stamp (s : State) : Nat × State :=
  let (v, s) := s.drawUpTo 20
  (s.time.now + v - 10, s)

/-! Ingress flags (R134). -/

/-- Invalidating flags: HDR_LOST, CRC, MALFORMED, LATE, INJECT_FAIL, OVERRUN, PHY. -/
def invalidating : Nat := 0x63E

/-- The flags that invalidate a frame of a stream. -/
def StreamRec.kills (r : StreamRec) : Nat := invalidating + bitAt r.safety Ing.TICKET_FAULT

/-- A stream of quay frame n is invalid: the frame cannot be confirmed, and it is squashed (R107, R108). -/
def State.badStream (s : State) (q : Fin 4) (n : FrameNo) (c : Nat) : State :=
  (s.modQuay q (fun x => x.modFrame n (fun f =>
    { f with streams := f.streams.map (fun r => if r.ctx = c then { r with invalid := true } else r) }))).invalidate q n

/-- Mark the stream frame that context c receives (R134): an invalidating flag acts at once. An extra frame carries no flags. -/
def State.markFrame (s : State) (c bits : Nat) : State :=
  match (s.ctx c).cur, s.streamRec? c with
  | some f, some (q, r) =>
    if f.extra then s
    else
      let was := f.flags &&& r.kills
      let s := s.modCur c (fun f => { f with flags := f.flags ||| bits })
      if was ≠ 0 ∨ bits &&& r.kills = 0 then s
      else
        let s := (s.bump (Reg.CAMRX_CTX_INVALID_COUNT c)).modCur c (fun f => { f with discard := true })
        if f.early.isSome then s else s.badStream q f.frame c
  | _, _ => s

/-- Mark every stream frame open on port p: started, not ended and not invalidated (R134). -/
def State.markPort (s : State) (p bits : Nat) : State :=
  ((List.range 3).map (fun k => 3 * p + k)).foldl (fun (s : State) c =>
    match (s.ctx c).cur with
    | some f => if f.extra || f.discard then s else s.markFrame c bits
    | none => s) s

/-- A packet outside a frame: the stream frame that follows is MALFORMED (R134). -/
def State.strayPacket (s : State) (c : Nat) : State := s.modCtx c (fun x => { x with nextFlags := x.nextFlags ||| 2 ^ Ing.MALFORMED })

/-! Tickets in force (R143). -/

/-- The ticket in force for frame n among those that `p` selects: the latest actual frame at or before n, the later entry of equals. -/
def Ctx.inForceAt (x : Ctx) (n : FrameNo) (p : InForce → Bool) : Option InForce :=
  (x.inForce.filter (fun t => p t && frameAtOrBefore t.actual n)).foldl (fun a t =>
    match a with
    | some b => if frameLater b.actual t.actual then some b else some t
    | none => some t) none

/-- The exposure in ns that applies to frame n: that of the last ticket that did not fail (R143, R146). -/
def Ctx.exposureAt (x : Ctx) (r : StreamRec) (n : FrameNo) : Nat :=
  match x.inForceAt n (fun t => !t.fault) with
  | some t => t.exposure
  | none => r.exposure0

/-- A stream frame takes the ticket in force and its marks; TICKET_LATE marks the ticket's first frame only (R143, R146). -/
def State.takeTicket (s : State) (c : Nat) (n : FrameNo) : State :=
  match (s.ctx c).inForceAt n (fun _ => true) with
  | none => s
  | some t =>
    let s := s.modCtx c (fun x => { x with inForce := x.inForce.map (fun e => if e = t then { e with late := false } else e) })
    let s := s.modCur c (fun f => { f with ticket := t.number })
    s.markFrame c (bitAt t.late Ing.TICKET_LATE + bitAt t.fault Ing.TICKET_FAULT)

/-- The camera pipe slot of context c: pipe × 8 + slot (R153). -/
def State.slotOf (s : State) (q : Fin 4) (c : Nat) : Option Nat :=
  (s.quays[q].campRecs.find? (fun r => leAt r.2.2 0 1 = c)).map (fun r => 8 * r.1 + r.2.1)

/-- Update a pipe slot. -/
def State.modSlot (s : State) (k : Nat) (f : CampSlot → CampSlot) : State := { s with camp := { s.camp with slots := modAt s.camp.slots k f } }

/-- A pipe slot. -/
def State.slot (s : State) (k : Nat) : CampSlot := s.camp.slots.getD k CampSlot.reset

/-! Ends of frames. -/

/-- Mid-exposure of a stream frame (R131). -/
def State.midOf (s : State) (q : Fin 4) (c : Nat) (r : StreamRec) (f : StreamFrame) : Nat :=
  let e := (s.ctx c).exposureAt r f.frame / 2
  let roll := if r.rolling then r.h / 2 * r.lineNs else 0
  if r.triggered then
    let tick := (s.tickOf q f.frame).getD 0
    let off := match s.quays[q].paramOf Cls.FSYNC r.fsync with | some b => leAt b 8 4 * 1000 | none => 0
    let edge := ((s.cam.edges.find? (fun g => g.1 = r.fsync && g.2.1 = tick)).map (·.2.2)).getD (tick + off)
    edge + r.delayNs + e + roll
  else f.sof + roll - r.delayNs - e

/-- The frame's signature joins the stream's run of equal ones; FROZEN at frozen_limit (R138). -/
def State.signFrame (s : State) (c : Nat) (r : StreamRec) : State :=
  match (s.ctx c).cur with
  | none => s
  | some f =>
    let sig := f.crc ^^^ 0xFFFFFFFF
    let x := s.ctx c
    let run := if r.frozenLimit ≠ 0 ∧ x.sig = some sig then x.run + 1 else 0
    let s := s.modCtx c (fun x => { x with sig := some sig, run := run })
    let s := s.modCur c (fun f => { f with signature := sig })
    if r.frozenLimit ≠ 0 ∧ r.frozenLimit ≤ run then s.markFrame c (2 ^ Ing.FROZEN) else s

/-- The sensor's frame counter is compared with the previous frame's (R139). -/
def State.countFrame (s : State) (c : Nat) (r : StreamRec) : State :=
  match (s.ctx c).cur with
  | none => s
  | some f =>
    if r.counterOff = 0xFFFF then s
    else if !f.counted then s.markFrame c (2 ^ Ing.MALFORMED)
    else
      let prev := (s.ctx c).counter
      let s := s.modCtx c (fun x => { x with counter := some f.sensorCount })
      match prev with
      | none => s
      | some p =>
        let d := (f.sensorCount + 2 ^ r.counterBits - p) % 2 ^ r.counterBits
        if d = 0 then s.markFrame c (2 ^ Ing.REPEATED)
        else if d = 1 then s
        else s.markFrame c (2 ^ Ing.SKIPPED)

/-- A stream frame ends (R107, R128, R131, R134-R139): its checks, its record, and the frame's confirmation. -/
def State.endStream (s : State) (c : Nat) : State :=
  match (s.ctx c).cur, s.streamRec? c with
  | some f, some (q, r) =>
    let n := f.frame
    let s := if f.lines = r.h ∨ f.discard then s else s.markFrame c (2 ^ Ing.MALFORMED)
    let s := match s.tickOf q n with
      | some T => if T + r.eofUs * 1000 < f.eof ∧ !f.discard then s.markFrame c (2 ^ Ing.LATE) else s
      | none => s
    let s := (s.signFrame c r).countFrame c r
    let mid := s.midOf q c r f
    let s := s.modCur c (fun f => { f with mid := mid })
    match (s.ctx c).cur with
    | none => s
    | some f =>
      let s := s.modCtx c (fun x => { x with last := some f, cur := none })
      let stale := f.flags.testBit Ing.FROZEN || f.flags.testBit Ing.REPEATED
      let s := if stale then s.bump (Reg.CAMRX_CTX_STALE_COUNT c) else s
      let s := s.modQuay q (fun x => x.modFrame n (fun g => { g with
        stale := g.stale || stale
        streams := g.streams.map (fun r => if r.ctx = c then { r with ended := true, mid := some mid } else r) }))
      let s := if f.flags.testBit Ing.FROZEN ∧ q = 0 then s.edgeFrozen c n else s
      s.confirmAll q
  | _, _ => s

/-! Ticks. -/

/-- A stream frame begins as frame n of its quay (R127, R139, R143): the flags that waited for it, and its ticket. -/
def State.bindStream (s : State) (q : Fin 4) (c : Nat) (n : FrameNo) : State :=
  let first := ((s.quays[q].frame? n).map (·.first)).getD false
  let bits := (s.ctx c).nextFlags
  let s := s.modCtx c (fun (x : Ctx) => { x with seen := some n, nextFlags := 0, counter := if first then none else x.counter })
  (s.takeTicket c n).markFrame c bits

/-- A line of a stream frame that is given another number. -/
def CampLine.renumber (a b : FrameNo) (l : CampLine) : CampLine := if l.frame = a then { l with frame := b } else l

/-- Rename a stream frame in its pipe slot. -/
def State.renumber (s : State) (q : Fin 4) (c : Nat) (a b : FrameNo) : State :=
  match s.slotOf q c with
  | some k => s.modSlot k (fun x => { x with
      inbound := x.inbound.map (CampLine.renumber a b)
      held := x.held.map (CampLine.renumber a b)
      runs := x.runs.map (fun (u : CampRun) => if u.frame = a then { u with frame := b } else u) })
  | none => s

/-- Drop a stream frame from its pipe slot. -/
def State.dropRun (s : State) (q : Fin 4) (c : Nat) (n : FrameNo) : State :=
  match s.slotOf q c with
  | some k => s.modSlot k (fun x => { x with
      inbound := x.inbound.filter (fun l => l.frame ≠ n)
      held := x.held.filter (fun l => l.frame ≠ n)
      runs := x.runs.filter (fun u => u.frame ≠ n) })
  | none => s

/-- The stream frame a context receives, begun before its tick, once that tick has come (R127): frame n of the quay, or an extra frame
where the tick opened none. -/
def State.joinCur (s : State) (q : Fin 4) (c : Nat) (n : Option FrameNo) : State :=
  match (s.ctx c).cur with
  | none => s
  | some f =>
    match n with
    | none =>
      let s := ((if q = 0 then s.edgeForget f.frame else s).dropRun q c f.frame).bump (Reg.CAMRX_CTX_EXTRA_COUNT c)
      s.modCur c (fun f => { f with early := none, extra := true, discard := true })
    | some n =>
      let s := (s.renumber q c f.frame n).modCur c (fun f => { f with early := none, frame := n })
      let s := s.bindStream q c n
      if f.discard then s.badStream q n c else s

/-- The stream frames of a quay that began before the tick they belong to, at tick T: `opened` is the frame it opened (R127). -/
def State.joinEarly (s : State) (q : Fin 4) (T : Nat) (opened : Option FrameNo) : State :=
  s.quays[q].streamCtxs.foldl (fun (s : State) c =>
    let due := fun (f : StreamFrame) => match f.early with | some t => decide (t ≤ T) | none => false
    let num := fun (f : StreamFrame) => if f.early = some T then opened else none
    let s := match (s.ctx c).waiting with
      | some f =>
        if due f then
          let held := (s.ctx c).cur
          let s := s.modCtx c (fun x => { x with waiting := none, cur := some f })
          let s := s.joinCur q c (num f)
          let s := if (num f).isSome then s.endStream c else s
          s.modCtx c (fun x => { x with cur := held })
        else s
      | none => s
    match (s.ctx c).cur with
    | some f => if due f then s.joinCur q c (num f) else s
    | none => s) s

/-- A tick has opened frame n of a quay: FSYNC, the camera contexts and the Edge Guard learn of it (R127, R133, R289). -/
def State.noteTick (s : State) (q : Fin 4) (T : Nat) (n : FrameNo) : State :=
  let mine := s.cam.ticks.filter (fun t => t.quay = q.val)
  let rest := s.cam.ticks.filter (fun t => t.quay ≠ q.val)
  let s : State := { s with cam := { s.cam with ticks := rest ++ mine.drop (mine.length - 7) ++ [⟨q.val, T, n⟩] } }
  if q = 0 then s.edgeOpen n T else s

/-- CADENCE_TICK (R43, R45, R75, R76, R113, R484): the latest tick of the quay, if it has not been taken yet. -/
def doCadenceTick (q : Fin 4) (s : State) : State :=
  match s.quays[q].chart with
  | none => s
  | some c =>
    match s.lastTick? c with
    | none => s
    | some T =>
      if s.reg64 (Reg.HM_QUAY_TICK_LO q) = T then s
      else
        let s := s.setReg64 (Reg.HM_QUAY_TICK_LO q) T
        let x := s.quays[q]
        if x.st ≠ .running ∨ T < x.openFrom then s.joinEarly q T none
        else if !x.frameRoom then (if c.cfg.piloted then s.bump (Reg.HM_QUAY_SKIP_COUNT q) else s).joinEarly q T none
        else
          let s : State := if q = 0 ∧ x.firstNext then { s with cg := { s.cg with ages := s.cg.ages.map (fun _ => some 0) } } else s
          let s := (s.noteTick q T x.nextFrame).openFrame q T
          ((s.joinEarly q T (some x.nextFrame)).releaseSignals q).settleRemote q

/-! Packets. -/

/-- A packet's header reaches port p (R134, R149): counted errors, and the lanes known to be synchronised. A lost header marks every open
frame; a corrected one is marked on the frame its header selects. -/
def State.headerSeen (s : State) (p : Nat) (hd : Header) : State :=
  let s := s.setBits (Reg.CAMRX_PORT_STATUS p) 2 1 3
  match hd with
  | .good => s
  | .corrected => (s.bump (Reg.CAMRX_PORT_ECC_COUNT p)).setEvent (Reg.CAMRX_PORT_EVENT p) 1
  | .lost => ((s.bump (Reg.CAMRX_PORT_HDR_LOST_COUNT p)).setEvent (Reg.CAMRX_PORT_EVENT p) 2).markPort p (2 ^ Ing.HDR_LOST)

/-- A packet that matches no enabled context (R126). -/
def State.unmatched (s : State) (p : Nat) : State := s.bump (Reg.CAMRX_PORT_UNMATCHED_COUNT p)

/-- A stream frame that has just begun. -/
def StreamFrame.start (n : FrameNo) (sof : Nat) (extra : Bool) (early : Option Nat) : StreamFrame where
  frame := n
  flags := 0
  sof := sof
  eof := 0
  mid := 0
  ticket := 0
  sensorCount := 0
  signature := 0
  lines := 0
  embedded := 0
  crc := 0xFFFFFFFF
  discard := extra
  extra := extra
  early := early
  counted := false

/-- An extra frame begins: absorbed and counted (R127). -/
def State.extraFrame (s : State) (c sof : Nat) : State :=
  (s.bump (Reg.CAMRX_CTX_EXTRA_COUNT c)).modCtx c (fun x => { x with cur := some (StreamFrame.start 0#32 sof true none) })

/-- A stream frame that a new frame start cuts off (R134): MALFORMED, and it ends there as it stands, with no time of end (log
entry 80). -/
def State.abortStream (s : State) (c : Nat) : State :=
  match (s.ctx c).cur with
  | none => s
  | some f =>
    if f.extra then s
    else
      let s := s.markFrame c (2 ^ Ing.MALFORMED)
      if f.early.isSome then s.modCtx c (fun x => { x with waiting := x.cur }) else s.endStream c

/-- The camera pipe of a stream learns that its frame n has begun. -/
def State.openRun (s : State) (q : Fin 4) (c : Nat) (n : FrameNo) : State :=
  match s.slotOf q c with
  | some k => s.modSlot k (fun x => { x with runs := x.runs ++ [CampRun.start n] })
  | none => s

/-- A frame start packet of context c (R127). -/
def State.startStream (s : State) (q : Fin 4) (c : Nat) (r : StreamRec) : State :=
  let s := (s.abortStream c).modCtx c (fun x => { x with cur := none })
  let (sof, s) := s.stamp
  match s.quays[q].chart with
  | none => s
  | some ch =>
    let T := s.tickAt ch (sof - r.sofUs * 1000)
    if s.reg64 (Reg.HM_QUAY_TICK_LO q) < T then
      let n := s.quays[q].nextFrame
      if (s.ctx c).waiting.isSome then s.extraFrame c sof
      else (s.modCtx c (fun x => { x with cur := some (StreamFrame.start n sof false (some T)) })).openRun q c n
    else
      match s.frameAt q T with
      | none => s.extraFrame c sof
      | some n =>
        let late : Bool := match (s.ctx c).seen with | some m => frameAtOrBefore n m | none => false
        if late then s.extraFrame c sof
        else ((s.modCtx c (fun x => { x with cur := some (StreamFrame.start n sof false none) })).openRun q c n).bindStream q c n

/-- FRAME_START (R124, R126, R127, R131, R134). -/
def doFrameStart (p : Nat) (hd : Header) (vc : Nat) (s : State) : State :=
  match s.portEntry p with
  | none => s
  | some (q, _) =>
    let s := s.headerSeen p hd
    if hd = .lost then s
    else match s.ctxOfVc p vc with
      | none => s.unmatched p
      | some c =>
        match s.streamRec? c with
        | none => s.unmatched p
        | some (_, r) =>
          let s := s.startStream q c r
          if hd = .corrected then s.markFrame c (2 ^ Ing.ECC_CORRECTED) else s

/-- FRAME_END (R128, R131, R134, R135). -/
def doFrameEnd (p : Nat) (hd : Header) (vc : Nat) (s : State) : State :=
  match s.portEntry p with
  | none => s
  | some _ =>
    let s := s.headerSeen p hd
    if hd = .lost then s
    else match s.ctxOfVc p vc with
      | none => s.unmatched p
      | some c =>
        let s := if hd = .corrected then s.markFrame c (2 ^ Ing.ECC_CORRECTED) else s
        match (s.ctx c).cur with
        | none => s.strayPacket c
        | some f =>
          if f.extra then s.modCtx c (fun x => { x with cur := none })
          else
            let (eof, s) := s.stamp
            let s := s.modCur c (fun f => { f with eof := eof })
            if f.early.isSome then s.modCtx c (fun x => { x with waiting := x.cur, cur := none }) else s.endStream c

/-- An embedded-data line: line 0 carries the sensor's frame counter (R139). -/
def State.embeddedLine (s : State) (c : Nat) (r : StreamRec) (bytes : List Byte) : State :=
  s.modCur c (fun f =>
    let here := f.embedded = 0 ∧ r.counterOff ≠ 0xFFFF ∧ r.counterOff + r.counterBits / 8 ≤ bytes.length
    { f with
      embedded := f.embedded + 1
      sensorCount := if here then leAt bytes r.counterOff (r.counterBits / 8) else f.sensorCount
      counted := f.counted || decide here })

/-- A pixel line (R128, R134, R138, R289): checked against width and height, and passed on unless its frame is discarded. -/
def State.pixelLine (s : State) (q : Fin 4) (c : Nat) (r : StreamRec) (bytes : List Byte) (bad : Option Outc) : State :=
  let s := s.modCur c (fun f => { f with crc := crcRun polyC f.crc bytes, lines := f.lines + 1 })
  match (s.ctx c).cur with
  | none => s
  | some f =>
    let wrong := bytes.length ≠ lineBytes r.dt r.w ∨ r.h < f.lines
    let s := if wrong then s.markFrame c (2 ^ Ing.MALFORMED) else s
    if f.discard ∨ wrong then s
    else
      let y := f.lines - 1
      let s := match s.slotOf q c with
        | some k => s.modSlot k (fun x => { x with inbound := x.inbound ++ [⟨f.frame, y, bytes, s.time.now⟩] })
        | none => s
      if q = 0 then s.edgeLine c f.frame (f.early.getD ((s.tickOf q f.frame).getD 0)) y bytes bad else s

/-- Data types the receivers support (R124). -/
def supportedType (dt : Nat) : Bool := [0x1E, 0x2B, 0x2C, 0x2D, 0x2E, 0x12].elem dt

/-- LONG_PACKET (R124, R126, R128, R134, R138, R139). -/
def doLongPacket (p : Nat) (hd : Header) (vc dt : Nat) (bytes : List Byte) (crcOk : Bool) (bad : Option Outc) (s : State) : State :=
  match s.portEntry p with
  | none => s
  | some (q, _) =>
    let s := s.headerSeen p hd
    if hd = .lost then s
    else match s.ctxOfVc p vc with
      | none => s.unmatched p
      | some c =>
        match s.streamRec? c with
        | none => s.unmatched p
        | some (_, r) =>
          let ecc := fun (s : State) => if hd = .corrected then s.markFrame c (2 ^ Ing.ECC_CORRECTED) else s
          if !supportedType dt then ((ecc s).unmatched p).markFrame c (2 ^ Ing.MALFORMED)
          else if !(dt = r.dt || (dt = 0x12 && r.embedded)) then s.unmatched p
          else
            let s := ecc s
            let s := if crcOk then s else (s.bump (Reg.CAMRX_PORT_CRC_COUNT p)).setEvent (Reg.CAMRX_PORT_EVENT p) 4
            match (s.ctx c).cur with
            | none => s.strayPacket c
            | some f =>
              if f.extra then s
              else
                let s := if crcOk then s else s.markFrame c (2 ^ Ing.CRC)
                if dt = 0x12 then s.embeddedLine c r bytes else s.pixelLine q c r bytes bad

/-- SHORT_PACKET (R124, R126, R134): line start and line end are checked to lie in a frame; data types 0 and 1 are frame start and frame
end; any other type matches no context. -/
def doShortPacket (p : Nat) (hd : Header) (vc dt : Nat) (s : State) : State :=
  if dt = 0 then doFrameStart p hd vc s
  else if dt = 1 then doFrameEnd p hd vc s
  else match s.portEntry p with
    | none => s
    | some _ =>
      let s := s.headerSeen p hd
      if hd = .lost then s
      else match s.ctxOfVc p vc with
        | none => s.unmatched p
        | some c =>
          if dt ≠ 2 ∧ dt ≠ 3 then s.unmatched p
          else
            let s := if hd = .corrected then s.markFrame c (2 ^ Ing.ECC_CORRECTED) else s
            match (s.ctx c).cur with
            | none => s.strayPacket c
            | some _ => s

/-- PHY_ERROR (R134, R135). -/
def doPhyError (p : Nat) (s : State) : State :=
  match s.portEntry p with
  | none => s
  | some _ => ((s.bump (Reg.CAMRX_PORT_PHY_ERR_COUNT p)).setEvent (Reg.CAMRX_PORT_EVENT p) 8).markPort p (2 ^ Ing.PHY)

/-! Deadlines and injection. -/

/-- SOF_DEADLINE (R127, R134): frame n's interval has ended without a frame start. -/
def doSofDeadline (c : Nat) (n : FrameNo) (s : State) : State :=
  match s.streamRec? c with
  | none => s
  | some (q, r) =>
    match s.tickOf q n with
    | none => s
    | some T =>
      let had : Bool := match (s.ctx c).seen with | some m => frameAtOrBefore n m | none => false
      if had ∨ s.time.now < T + r.sofUs * 1000 then s
      else ((s.bump (Reg.CAMRX_CTX_INVALID_COUNT c)).modCtx c (fun x => { x with seen := some n })).badStream q n c

/-- EOF_DEADLINE (R134, R135): the frame being received has not ended by tick + eof_deadline_us. -/
def doEofDeadline (c : Nat) (s : State) : State :=
  match s.streamRec? c, (s.ctx c).cur with
  | some (q, r), some f =>
    match s.tickOf q f.frame with
    | some T => if f.extra ∨ f.early.isSome ∨ s.time.now < T + r.eofUs * 1000 then s else s.markFrame c (2 ^ Ing.LATE)
    | none => s
  | _, _ => s

/-- PATTERN_INJECTION (R136, R137): between frames, the pattern's CRC-32C as the context and as the pipe compute it are equal to the
expected one, or not. -/
def doPatternInjection (c : Nat) (ctxOk pipeOk : Bool) (s : State) : State :=
  match s.streamRec? c with
  | none => s
  | some (_, r) =>
    if !r.inject ∨ (s.ctx c).cur.isSome ∨ (ctxOk ∧ pipeOk) then s
    else (s.bump (Reg.CAMRX_CTX_INJECT_FAIL_COUNT c)).modCtx c (fun x => { x with nextFlags := x.nextFlags ||| 2 ^ Ing.INJECT_FAIL })

/-- CTX_FRAME_READ (R150): the latest completed frame's record is captured. -/
def doCtxFrameRead (c : Nat) (s : State) : State :=
  let last := (s.ctx c).last
  (s.modCtx c (fun x => { x with captured := x.last })).answer St.OK (match last with | some f => f.frame.toNat | none => 0)

/-! FSYNC. -/

/-- The active level of FSYNC output i on its pin (R132). -/
def State.fsyncPin (s : State) (i : Nat) (active : Bool) : State :=
  let low := match s.ownerOf Cls.FSYNC i with
    | some q => (match s.quays[q].paramOf Cls.FSYNC i with | some b => decide (leAt b 0xE 1 = 1) | none => false)
    | none => false
  ({ s with cam := { s.cam with fsync := setAt s.cam.fsync i active } } : State).emit (.fsync i (active != low))

/-- FSYNC_EDGE (R133): the pulse of the latest tick that opened a frame, 0 ns to 4 ns after tick + offset_us. -/
def doFsyncEdge (i : Nat) (s : State) : State :=
  match s.ownerOf Cls.FSYNC i with
  | none => s
  | some q =>
    match s.quays[q].paramOf Cls.FSYNC i, s.cam.ticks.reverse.find? (fun t => t.quay = q.val) with
    | some b, some t =>
      let due := t.tick + leAt b 8 4 * 1000
      if s.time.now < due ∨ s.cam.edges.any (fun g => g.1 = i && g.2.1 = t.tick) then s
      else
        let (v, s) := s.drawUpTo 4
        let mine := s.cam.edges.filter (fun g => g.1 = i)
        let s : State := { s with cam := { s.cam with edges := s.cam.edges.filter (fun g => g.1 ≠ i) ++ mine.drop (mine.length - 7) ++ [(i, t.tick, due + v)] } }
        (s.setReg64 (Reg.CAMRX_FSYNC_EDGE_LO i) (due + v)).fsyncPin i true
    | _, _ => s

/-- FSYNC_PULSE_END (R133): the pulse lasts width_us. -/
def doFsyncPulseEnd (i : Nat) (s : State) : State :=
  match s.ownerOf Cls.FSYNC i with
  | none => s
  | some q =>
    match s.quays[q].paramOf Cls.FSYNC i with
    | some b =>
      if !s.cam.fsync.getD i false ∨ s.time.now < s.reg64 (Reg.CAMRX_FSYNC_EDGE_LO i) + leAt b 0xC 2 * 1000 then s else s.fsyncPin i false
    | none => s

/-! The meanings. -/

/-- CADENCE_TICK. -/
def execCadenceTick (q : Fin 4) (s : State) : Res := act (doCadenceTick q) s
/-- CTX_FRAME_READ. -/
def execCtxFrameRead (c : Fin 24) (s : State) : Res := act (doCtxFrameRead c) s
/-- FRAME_START. -/
def execFrameStart (port : Fin 8) (hd : Header) (vc : Nat) (s : State) : Res := act (doFrameStart port hd vc) s
/-- FRAME_END. -/
def execFrameEnd (port : Fin 8) (hd : Header) (vc : Nat) (s : State) : Res := act (doFrameEnd port hd vc) s
/-- LONG_PACKET. -/
def execLongPacket (port : Fin 8) (hd : Header) (vc dt : Nat) (bytes : List Byte) (crcOk : Bool) (bad : Option Outc) (s : State) : Res :=
  act (doLongPacket port hd vc dt bytes crcOk bad) s
/-- SHORT_PACKET. -/
def execShortPacket (port : Fin 8) (hd : Header) (vc dt : Nat) (s : State) : Res := act (doShortPacket port hd vc dt) s
/-- PHY_ERROR. -/
def execPhyError (port : Fin 8) (s : State) : Res := act (doPhyError port) s
/-- SOF_DEADLINE. -/
def execSofDeadline (c : Fin 24) (n : FrameNo) (s : State) : Res := act (doSofDeadline c n) s
/-- EOF_DEADLINE. -/
def execEofDeadline (c : Fin 24) (s : State) : Res := act (doEofDeadline c) s
/-- PATTERN_INJECTION. -/
def execPatternInjection (c : Fin 24) (ctxOk pipeOk : Bool) (s : State) : Res := act (doPatternInjection c ctxOk pipeOk) s
/-- FSYNC_EDGE. -/
def execFsyncEdge (idx : Fin 8) (s : State) : Res := act (doFsyncEdge idx) s
/-- FSYNC_PULSE_END. -/
def execFsyncPulseEnd (idx : Fin 8) (s : State) : Res := act (doFsyncPulseEnd idx) s

end Sys2Proof.Machine
end

