-- ==== Sys2Proof/Machine/SensorIo.lean ====
section
/-! DEFINITION. Sensor control (R140-R148, R151, R152): exposure tickets and their sequencers, firmware transfers and in-band interrupts on
the I3C controllers, SPI stamping. -/
namespace Sys2Proof.Machine

/-! Tickets. -/

/-- A transfer of a script: where it begins, its length and its fields (R145). -/
structure Xfer where
  off : Nat
  target : Nat
  flags : Nat
  regLen : Nat
  dataLen : Nat
  deriving DecidableEq, Repr

/-- Bytes of a transfer, padded to a 4-byte boundary. -/
def Xfer.size (x : Xfer) : Nat := (4 + x.regLen + x.dataLen + 3) / 4 * 4

/-- The transfers of a script from byte `o` on. -/
def xfersFrom (bs : List Byte) : Nat → Nat → List Xfer
  | 0, _ => []
  | n + 1, o =>
    let x : Xfer := ⟨o, leAt bs o 1, leAt bs (o + 1) 1, leAt bs (o + 2) 1, leAt bs (o + 3) 1⟩
    x :: xfersFrom bs n (o + x.size)

/-- A script's transfers. -/
def scriptXfers (bs : List Byte) : List Xfer := xfersFrom bs (leAt bs 0 1) 4

/-- Bytes a script spans. -/
def scriptLen (bs : List Byte) : Nat := 4 + sumNat ((scriptXfers bs).map Xfer.size)

/-- A script is well formed (R145). -/
def scriptOk (bs : List Byte) : Bool :=
  decide (1 ≤ leAt bs 0 1 ∧ leAt bs 0 1 ≤ 16) &&
    (scriptXfers bs).all (fun x => decide (8 ≤ x.target ∧ x.target ≤ 0x77 ∧ x.flags ≤ 1 ∧ x.regLen ≤ 4 ∧ 1 ≤ x.dataLen ∧ x.dataLen ≤ 16)) &&
    decide (scriptLen bs ≤ 256)

/-- Bit times of a script's transfers from transfer k on (R142). -/
def scriptBits (bs : List Byte) (k : Nat) : Nat :=
  sumNat (((scriptXfers bs).drop k).map (fun x => 9 * (1 + x.regLen + x.dataLen) + 20))

/-- A controller's rate in kHz (R140). -/
def State.i3cRate (s : State) (i : Nat) : Option (Fin 4 × Nat) :=
  match s.ownerOf Cls.I3C i with
  | some q => (s.quays[q].paramOf Cls.I3C i).map (fun b => (q, max 1 (leAt b 0xA 2)))
  | none => none

/-- An entry joins the ticket result FIFO, or is counted as lost (R146). -/
def State.pushResult (s : State) (r : TktResult) : State :=
  if s.cam.results.length ≥ 32 then s.bump Reg.CAMRX_TKT_RESULT_LOST_COUNT
  else { s with cam := { s.cam with results := s.cam.results ++ [r] } }

/-- Ticket number after n: 65,535 wraps to 1 (R144). -/
def nextTicket (n : Nat) : Nat := if n ≥ 65535 then 1 else n + 1

/-- The script at a device address: its bytes and whether its read failed (R144). -/
def State.readScript (s : State) (a : Nat) : List Byte × Bool :=
  let bs := (s.devRead a 256).2.1
  let n := max 4 (min 256 (scriptLen bs))
  (slice bs 0 n, decide ((s.devRead a n).1 ≠ St.OK))

/-- TICKET_SUBMIT (R144, R145, R151): the ticket in quay q's submission registers, for a context. -/
def doTicketSubmit (q : Fin 4) (c : Nat) (s : State) : State :=
  let st := s.quays[q].st
  let target := s.reg (Reg.CAMRX_TKT_TARGET q)
  let exposure := (s.reg (Reg.CAMRX_TKT_EXPOSURE q)).toNat
  let (script, failed) := s.readScript (s.addr48 (Reg.CAMRX_TKT_SCRIPT_LO q))
  let x := s.ctx c
  let held : Bool := match s.streamRec? c with | some (o, r) => decide (o = q) && decide (r.i3c ≠ 0xFF) | none => false
  let old : Bool := match x.lastTarget with | some t => frameLater t target | none => false
  let answer := fun (s : State) (status : Status) (number : Nat) =>
    (s.put (Reg.CAMRX_TKT_STATUS q) (status.toNat + number * 65536)).answer status
  if st = .empty ∨ st = .faulted ∨ st = .resetting then
    answer (s.bump (Reg.CAMRX_TKT_BAD_STATE_COUNT q)) St.BAD_STATE 0
  else
    let bad := worst ((if !held || old || decide (exposure < 1) || decide (1000000000 < exposure) || (!failed && !scriptOk script) then [St.REFUSED] else []) ++
      (if failed then [St.FAULT] else []) ++ (if x.queue.length ≥ 8 then [St.BUSY] else []))
    if bad ≠ St.OK then answer s bad 0
    else
      let s := match x.queue.find? (fun t => t.target = target) with
        | some t => s.pushResult ⟨t.number, c, 0x81#8, 0#32⟩
        | none => s
      let t : Ticket := ⟨x.nextNumber, c, target, exposure, script, false⟩
      let s := s.modCtx c (fun x => { x with
        queue := x.queue.filter (fun t => t.target ≠ target) ++ [t], lastTarget := some target, nextNumber := nextTicket x.nextNumber })
      answer s St.OK t.number

/-- The windows of a stream open now: frame, tick and close (R142). -/
def State.openWindows (s : State) (q : Fin 4) (r : StreamRec) : List (FrameNo × Nat × Nat) :=
  (s.cam.ticks.filter (fun t => t.quay = q.val && decide (t.tick + r.openUs * 1000 ≤ s.time.now) &&
    decide (s.time.now < t.tick + r.closeUs * 1000))).map (fun t => (t.frame, t.tick, t.tick + r.closeUs * 1000))

/-- A transfer of `bits` bit times that begins now ends at or before `close`. -/
def State.fits (s : State) (rate bits close : Nat) : Bool := decide (s.time.now * rate + bits * 1000000 ≤ close * rate)

/-- The controller sends nothing now. -/
def State.i3cIdle (s : State) (i : Nat) : Bool :=
  match s.cam.i3c.getD i none with
  | none => true
  | some (.firmware e) => decide (e ≤ s.time.now)
  | some (.ticket _ _ _ _) => false

/-- What controller i sends. -/
def State.setI3c (s : State) (i : Nat) (b : Option I3cBusy) : State := { s with cam := { s.cam with i3c := setAt s.cam.i3c i b } }

/-- The tickets that controller i may begin now: close, context, ticket, window's frame and tick, in the order of R142. -/
def State.eligible (s : State) (q : Fin 4) (i rate : Nat) : List (Nat × Nat × Ticket × FrameNo × Nat) :=
  let all := (List.range 24).filterMap (fun c =>
    match s.streamRec? c, (s.ctx c).queue with
    | some (o, r), t :: _ =>
      if o ≠ q ∨ r.i3c ≠ i then none
      else
        let ws := (s.openWindows q r).filter (fun w =>
          frameAtOrBefore (t.target - BitVec.ofNat 32 r.latch) w.1 && s.fits rate (scriptBits t.script 0) w.2.2)
        match ws with
        | w :: _ => some (w.2.2, c, t, w.1, w.2.1)
        | [] => none
    | _, _ => none)
  all.foldl (fun a e => (a.takeWhile (fun b => b.1 ≤ e.1)) ++ [e] ++ (a.dropWhile (fun b => b.1 ≤ e.1))) []

/-- TICKET_WINDOW_OPEN (R142): the sequencer of controller i begins the first eligible ticket. -/
def doTicketWindowOpen (i : Nat) (s : State) : State :=
  match s.i3cRate i with
  | none => s
  | some (q, rate) =>
    if !s.i3cIdle i then s
    else match s.eligible q i rate with
      | [] => s
      | (_, c, t, w, tick) :: _ =>
        ((s.modCtx c (fun x => { x with queue := x.queue.drop 1 })).setI3c i (some (.ticket t w tick none))).emit (.i3c i t.script)

/-- TICKET_DONE (R143, R146): the transfers of the ticket being sent have ended, every one acknowledged or transfer k not. A transfer not
acknowledged is sent once more where the prediction allows it. -/
def doTicketDone (i : Nat) (nack : Option Nat) (s : State) : State :=
  match s.cam.i3c.getD i none, s.i3cRate i with
  | some (.ticket t w tick retried), some (_, rate) =>
    match s.streamRec? t.ctx with
    | none => s.setI3c i none
    | some (_, r) =>
      let close := tick + r.closeUs * 1000
      let again : Bool := match nack with
        | some k => decide (retried ≠ some k) && s.fits rate (scriptBits t.script k) close
        | none => false
      if again then
        let k := nack.getD 0
        (s.setI3c i (some (.ticket t w tick (some k)))).emit (.i3c i (t.script.drop (((scriptXfers t.script)[k]?).map (·.off)).toList.sum))
      else
        let late := decide (close < s.time.now)
        let actual := w + BitVec.ofNat 32 (r.latch + b2n late)
        let moved := late || decide (w + BitVec.ofNat 32 r.latch ≠ t.target)
        let status : Status := if nack.isSome then 0x82#8 else if moved then 0x80#8 else St.OK
        let s := (s.setI3c i none).pushResult ⟨t.number, t.ctx, status, actual⟩
        s.modCtx t.ctx (fun x =>
          let all := x.inForce ++ [⟨actual, t.number, t.exposure, moved && nack.isNone, nack.isSome⟩]
          { x with inForce := all })
  | _, _ => s

/-- TICKET_RESULT_POP (R151): the oldest result entry is removed. -/
def doTicketResultPop (s : State) : State := ({ s with cam := { s.cam with results := s.cam.results.drop 1 } } : State).answer St.OK

/-- A firmware transfer of `bits` bit times may begin now on controller i: its predicted end precedes the opening of every ticket window
there, and no window is open (R141). -/
def State.clearOfWindows (s : State) (q : Fin 4) (i rate bits : Nat) : Bool :=
  match s.quays[q].chart with
  | none => true
  | some ch =>
    if s.quays[q].st ≠ .running ∧ s.quays[q].st ≠ .docking then true
    else
      let period := ch.cfg.periodUs * 1000
      (List.range 24).all (fun c => match s.streamRec? c with
        | some (o, r) =>
          if o ≠ q ∨ r.i3c ≠ i then true
          else
            let base := s.tickAt ch 0 + r.openUs * 1000
            let phase := if base ≤ s.time.now then (s.time.now - base) % period else period - 1 - (base - s.time.now - 1) % period
            decide ((r.closeUs - r.openUs) * 1000 ≤ phase) && decide (bits * 1000000 < (period - phase) * rate)
        | none => true)

/-- I3C_FW_TRANSFER (R141): firmware queues a transfer on controller i; the oldest queued one is issued if it may be. An empty transfer
queues nothing. -/
def doI3cFwTransfer (i bits : Nat) (bytes : List Byte) (s : State) : State :=
  let s : State := if bytes.isEmpty then s
    else { s with cam := { s.cam with i3cQueue := modAt s.cam.i3cQueue i (fun l => l ++ [(bits, bytes)]) } }
  match s.i3cRate i, s.cam.i3cQueue.getD i [] with
  | some (q, rate), x :: _ =>
    if s.i3cIdle i && s.clearOfWindows q i rate x.1 then
      let s : State := { s with cam := { s.cam with i3cQueue := modAt s.cam.i3cQueue i (fun l => l.drop 1) } }
      (s.setI3c i (some (.firmware (s.time.now + ceilDiv (x.1 * 1000000) rate)))).emit (.i3c i x.2)
    else s
  | _, _ => s

/-- I3C_IBI (R140, R518): an in-band interrupt of a target is received and passed to firmware. -/
def doI3cIbi (i target : Nat) (bytes : List Byte) (s : State) : State :=
  match s.ownerOf Cls.I3C i with
  | none => s
  | some _ => ({ s with cam := { s.cam with ibi := modAt s.cam.ibi i (fun l => l ++ [(target, bytes)]) } } : State).raiseMsi (72 + i)

/-! SPI stamping (R147, R148, R152). -/

/-- A port's control register fields. -/
def State.spiEnabled (s : State) (p : Nat) : Bool := flag (s.reg (Reg.SPI_STAMP_CTRL p)) 0
def State.spiCmd (s : State) (p : Nat) : List Byte := natLE (fld (s.reg (Reg.SPI_STAMP_CTRL p)) 6 4) (s.reg (Reg.SPI_STAMP_CMD p)).toNat
def State.spiLen (s : State) (p : Nat) : Nat := fld (s.reg (Reg.SPI_STAMP_CTRL p)) 12 7

/-- A port. -/
def State.spi (s : State) (p : Nat) : SpiPort := s.cam.spi.getD p ⟨[], 0, false⟩
def State.setSpi (s : State) (p : Nat) (x : SpiPort) : State := { s with cam := { s.cam with spi := setAt s.cam.spi p x } }

/-- SPI_DRDY_EDGE (R147, R148): stamped 0 ns to 6 ns after the edge, and held or dropped. -/
def doSpiDrdyEdge (p : Nat) (s : State) : State :=
  if !s.spiEnabled p then s
  else
    let x := s.spi p
    if x.held.length ≥ 2 then (s.bump (Reg.SPI_STAMP_DROP_COUNT p)).setSpi p { x with dropped := true }
    else
      let (v, s) := s.drawUpTo 6
      let s := s.setSpi p { x with held := x.held ++ [s.time.now + v] }
      if x.held.isEmpty then s.emit (.spi p (s.spiCmd p)) else s

/-- A sample's 64-byte record (R147). -/
def spiRecord (p stamp seq len : Nat) (dropped : Bool) (data : List Byte) : List Byte :=
  natLE 8 stamp ++ natLE 4 seq ++ natLE 1 p ++ natLE 1 len ++ natLE 1 (b2n dropped) ++ [0#8] ++ slice (data.take len) 0 48

/-- SPI_SAMPLE_DONE (R147, R148): the sample's record is written to the ring, or dropped where it is full; the next held read begins. -/
def doSpiSampleDone (p : Nat) (data : List Byte) (s : State) : State :=
  let x := s.spi p
  match x.held with
  | [] => s
  | stamp :: rest =>
    let size := 2 ^ fld (s.reg (Reg.SPI_STAMP_CTRL p)) 24 21
    let prod := fld (s.reg (Reg.SPI_STAMP_PRODUCER p)) 11 0
    let cons := fld (s.reg (Reg.SPI_STAMP_CONSUMER p)) 11 0
    let s :=
      if ringFull size prod cons then
        (s.bump (Reg.SPI_STAMP_DROP_COUNT p)).setSpi p { x with held := rest, dropped := true }
      else
        let a := s.addr48 (Reg.SPI_STAMP_RING_LO p)
        let s := (s.devWrite .app (a + 64 * prod) (spiRecord p stamp x.seq (s.spiLen p) x.dropped data)).1
        let s := s.setSpi p { held := rest, seq := (x.seq + 1) % 2 ^ 32, dropped := false }
        (s.put (Reg.SPI_STAMP_PRODUCER p) ((prod + 1) % size)).raiseMsi (48 + p)
    if rest.isEmpty then s else s.emit (.spi p (s.spiCmd p))

/-! The meanings. -/

/-- TICKET_SUBMIT. -/
def execTicketSubmit (q : Fin 4) (c : Nat) (s : State) : Res := act (doTicketSubmit q c) s
/-- TICKET_WINDOW_OPEN. -/
def execTicketWindowOpen (idx : Fin 4) (s : State) : Res := act (doTicketWindowOpen idx) s
/-- TICKET_DONE. -/
def execTicketDone (idx : Fin 4) (nack : Option Nat) (s : State) : Res := act (doTicketDone idx nack) s
/-- TICKET_RESULT_POP. -/
def execTicketResultPop (s : State) : Res := act doTicketResultPop s
/-- I3C_FW_TRANSFER. -/
def execI3cFwTransfer (idx : Fin 4) (bits : Nat) (bytes : List Byte) (s : State) : Res := act (doI3cFwTransfer idx bits bytes) s
/-- I3C_IBI. -/
def execI3cIbi (idx : Fin 4) (target : Nat) (bytes : List Byte) (s : State) : Res := act (doI3cIbi idx target bytes) s
/-- SPI_DRDY_EDGE. -/
def execSpiDrdyEdge (port : Fin 4) (s : State) : Res := act (doSpiDrdyEdge port) s
/-- SPI_SAMPLE_DONE. -/
def execSpiSampleDone (port : Fin 4) (data : List Byte) (s : State) : Res := act (doSpiSampleDone port data) s

end Sys2Proof.Machine
end

