-- ==== Sys2Proof/Machine/CampPipe.lean ====
section
/-! DEFINITION. The camera pipes as they run (R153, R154, R169-R171, R175-R183, R191-R193): line slots and passes, output rows, statistics
records and adjustments. -/
namespace Sys2Proof.Machine

/-- The quay and stream record of pipe slot k (pipe × 8 + slot) (R153). -/
def State.campRec? (s : State) (k : Nat) : Option (Fin 4 × List Byte) :=
  match s.ownerOf Cls.CAMP (k / 8) with
  | some q => (s.quays[q].campRecs.find? (fun r => r.1 = k / 8 && r.2.1 = k % 8)).map (fun r => (q, r.2.2))
  | none => none

/-- The stream record of a pipe slot with its stream's sizes. -/
def State.campRecord (s : State) (bs : List Byte) : CampRec :=
  match s.streamRec? (leAt bs 0 1) with
  | some (_, r) => ⟨bs, r.w, r.h, r.dt⟩
  | none => ⟨bs, 0, 0, 0⟩

/-- Pixel clocks of a pass (R181). -/
def CampRec.passClocks (r : CampRec) : Nat := ceilDiv r.w 2 + 16

/-- Flush passes of a frame (R183). -/
def CampRec.delta (r : CampRec) : Nat := match r.cfa with | 0 => 4 | 3 => 2 | _ => 6

/-- Update the run of frame n in slot k. -/
def State.modRun (s : State) (k : Nat) (n : FrameNo) (f : CampRun → CampRun) : State :=
  s.modSlot k (fun x => { x with runs := x.runs.map (fun u => if u.frame = n then f u else u) })

/-- The stream frame as ingress knows it: the one being received, or the last that ended. -/
def State.streamFrameOf (s : State) (c : Nat) (n : FrameNo) : Option StreamFrame :=
  let x := s.ctx c
  match x.cur.filter (fun f => f.frame = n && !f.extra) with
  | some f => some f
  | none => x.last.filter (fun f => f.frame = n)

/-- Ingress has received the end of stream frame n, and every line of it has reached the pipe. -/
def State.runEnded (s : State) (k c : Nat) (n : FrameNo) : Bool :=
  let x := s.ctx c
  (x.cur.filter (fun f => f.frame = n && !f.extra)).isNone && (x.waiting.filter (fun f => f.frame = n)).isNone &&
    !(s.slot k).inbound.any (fun l => l.frame = n)

/-! Passes. -/

/-- What a slot has for the pipe next, with the harbour time since which it waits: the lines of its oldest frame first, then the
frame's flush passes (R181, R183). -/
def State.nextPass (s : State) (k : Nat) : Option (Nat × Pass) :=
  match s.campRec? k with
  | none => none
  | some (_, bs) =>
    let x := s.slot k
    let r := s.campRecord bs
    let c := leAt bs 0 1
    (x.runs.filter (fun u => !u.discarded)).findSome? (fun u =>
      match x.held.find? (fun l => l.frame = u.frame) with
      | some l => some (some (l.at', Pass.line k))
      | none =>
        if !s.runEnded k c u.frame then some none
        else if u.flushed < r.delta ∧ 0 < u.lines then
          some (some (((s.streamFrameOf c u.frame).map (·.eof)).getD 0, Pass.flush k))
        else none) |>.join

/-- Slot k holds at least 6 lines (R181). -/
def State.urgent (s : State) (k : Nat) : Bool := decide (6 ≤ (s.slot k).held.length)

/-- The best of a list by a strict order, the first among equals. -/
def bestBy {α : Type} (lt : α → α → Bool) : List α → Option α
  | [] => none
  | x :: xs => match bestBy lt xs with
    | some y => if lt y x then some y else some x
    | none => some x

/-- The pass that pipe i runs next (R181). -/
def State.choosePass (s : State) (i : Nat) : Option Pass :=
  let cs := (List.range 8).filterMap (fun j => (s.nextPass (8 * i + j)).map (fun p => (8 * i + j, p)))
  let prio := fun (k : Nat) => ((s.campRec? k).map (fun e => leAt e.2 1 1)).getD 0
  match bestBy (fun (a b : Nat × Nat × Pass) => decide (prio b.1 < prio a.1)) (cs.filter (fun c => s.urgent c.1)) with
  | some c => some c.2.2
  | none => (bestBy (fun (a b : Nat × Nat × Pass) => decide (a.2.1 < b.2.1)) cs).map (fun c => c.2.2)

/-- An idle pipe begins a pass when something waits for one. -/
def State.beginPass (s : State) (i : Nat) : State :=
  match s.camp.pass.getD i none with
  | some _ => s
  | none => { s with camp := { s.camp with pass := setAt s.camp.pass i (s.choosePass i) } }

/-! Pixels. -/

/-- A frame's pixels: the lines whose passes have ended. -/
def CampRun.image (u : CampRun) (r : CampRec) (init : List Byte) : CampFrame :=
  let rows : Array (Array Nat) := ((List.range r.h).map (fun y => match u.rows.find? (fun l => l.1 = y) with
    | some l => (unpackLine r.dt r.w l.2).toArray
    | none => #[])).toArray
  let chroma := fun (v : Bool) => (((List.range r.h).map (fun y => match u.rows.find? (fun l => l.1 = y) with
    | some l => (unpackChroma r.w l.2 v).toArray
    | none => #[])).toArray : Array (Array Nat))
  let cu := chroma false
  let cv := chroma true
  { rec' := r
    adj := ⟨if u.adj.2.isEmpty then init else u.adj.2⟩
    raw := fun x y => (rows.getD y #[]).getD x 0
    chroma := fun v x y => ((if v then cv else cu).getD y #[]).getD x 0 }

/-! Statistics. -/

/-- The record of a frame (R178). -/
def State.statsRecord (s : State) (q : Fin 4) (k : Nat) (bs : List Byte) (u : CampRun) : List Byte :=
  let r := s.campRecord bs
  let c := leAt bs 0 1
  let f := s.streamFrameOf c u.frame
  let get := fun (g : StreamFrame → Nat) => (f.map g).getD 0
  let ys := (u.rows.map (·.1)).foldl (fun a y => if a.elem y then a else a ++ [y]) []
  let (dpcs, sats, hist, zones) := (u.image r (slice bs 0x40 64)).statistics ys
  let partly := u.discarded || decide (0 < u.lost)
  natLE 1 1 ++ natLE 1 c ++ natLE 1 q.val ++ natLE 1 s.quays[q].tide.toNat ++ natLE 4 u.frame.toNat ++ natLE 8 (get (·.mid)) ++
    natLE 2 (get (·.ticket)) ++ natLE 2 u.adj.1 ++ natLE 2 (get (·.flags)) ++
    natLE 1 (bitAt u.adjLate 0 + bitAt partly 1 + (r.u 0x30 1 % 4) * 4) ++ natLE 1 0 ++
    natLE 1 (r.u 0x31 1) ++ natLE 1 (r.u 0x32 1) ++ natLE 2 0 ++ natLE 4 u.lines ++ natLE 4 dpcs ++ natLE 4 sats ++
    natLE 4 (s.slot k).sequence ++ natLE 20 0 ++ hist ++ zones

/-- The statistics record of a frame is written to its ring, or dropped (R177, R179). -/
def State.writeStats (s : State) (q : Fin 4) (k : Nat) (bs : List Byte) (u : CampRun) : State :=
  if !bitOf (leAt bs 3 1) 1 then s
  else
    let h := leAt bs 0xA 2
    let x := s.quays[q]
    let size := match x.handle? h with | some e => e.length * 4096 / 20544 | none => 0
    let p := (s.reg (Reg.CAMP_SLOT_STATS_PRODUCER k)).toNat
    let drop := fun (s : State) (ev : Nat) =>
      (s.bump (Reg.CAMP_SLOT_STATS_DROP_COUNT k)).setEvent (Reg.CAMP_PIPE_EVENT (k / 8)) ev
    if ringFull size p (s.reg (Reg.CAMP_SLOT_STATS_CONSUMER k)).toNat then drop s 2
    else
      let t : ReqTag := ⟨q, x.tide, h, (x.stageIdx? (leAt bs 8 2)).getD 0, u.frame, 0, 0⟩
      match s.blockedAt t h 0 (20544 * p) 20544 true with
      | some b => drop (s.noteBlocked t b true 0 []) 4
      | none =>
        let s := (s.putSlot t h 0 [⟨20544 * p, s.statsRecord q k bs u, false⟩]).1
        (s.put (Reg.CAMP_SLOT_STATS_PRODUCER k) ((p + 1) % size)).modSlot k (fun x => { x with sequence := (x.sequence + 1) % 2 ^ 32 })

/-- Every line of frame n has been processed or discarded: its statistics record, once (R177). -/
def State.settleRun (s : State) (k : Nat) (n : FrameNo) : State :=
  match s.campRec? k, (s.slot k).runs.find? (fun u => u.frame = n) with
  | some (q, bs), some u =>
    if u.statsDone && u.discarded then s.modSlot k (fun x => { x with runs := x.runs.filter (fun v => v.frame ≠ n) })
    else if u.statsDone || !s.runEnded k (leAt bs 0 1) n || (s.slot k).held.any (fun l => l.frame = n) then s
    else
      let s := s.writeStats q k bs u
      let s := s.setBits (Reg.CAMP_SLOT_LINES k) 7 4 u.most
      if u.discarded then s.modSlot k (fun x => { x with runs := x.runs.filter (fun v => v.frame ≠ n) })
      else s.modRun k n (fun u => { u with statsDone := true })
  | _, _ => s

/-- The same for every frame of a slot. -/
def State.settleRuns (s : State) (k : Nat) : State := (s.slot k).runs.foldl (fun (s : State) u => s.settleRun k u.frame) s

/-! Lines. -/

/-- The first line of frame n enters the pipe: the latest eligible adjustment is put in force (R170). -/
def State.applyAdj (s : State) (k : Nat) (n : FrameNo) : State :=
  let x := s.slot k
  let due := x.queue.filter (fun a => frameAtOrBefore (BitVec.ofNat 32 a.target) n)
  let s := match due.getLast? with
    | none => s
    | some a =>
      let late := decide (BitVec.ofNat 32 a.target ≠ n)
      let s := s.modSlot k (fun x => { x with inForce := (a.number, a.bytes), queue := x.queue.filter (fun b => !due.elem b) })
      let s := if late then s.setEvent (Reg.CAMP_PIPE_EVENT (k / 8)) 8 else s
      s.modRun k n (fun u => { u with adjLate := late })
  let f := (s.slot k).inForce
  ((s.modRun k n (fun u => { u with adj := f })).put (Reg.CAMP_SLOT_ADJ k) f.1).setReg (Reg.CAMP_SLOT_FRAME k) n

/-- The stream frame is OVERRUN (R134, R182). -/
def State.overrun (s : State) (q : Fin 4) (c : Nat) (n : FrameNo) : State :=
  match (s.ctx c).cur with
  | some f =>
    if f.frame = n ∧ !f.extra then s.markFrame c (2 ^ Ing.OVERRUN) else ended s
  | none => ended s
where
  /-- The frame has ended in ingress: its record takes the flag. -/
  ended (s : State) : State :=
    let s := s.modCtx c (fun x => { x with last := x.last.map (fun f => if f.frame = n then { f with flags := f.flags ||| 2 ^ Ing.OVERRUN } else f) })
    (s.bump (Reg.CAMRX_CTX_INVALID_COUNT c)).badStream q n c

/-- LINE_ARRIVE (R170, R180-R182): the next line on its way to slot k. -/
def doLineArrive (k : Nat) (s : State) : State :=
  match s.campRec? k, (s.slot k).inbound with
  | some (q, bs), l :: rest =>
    let c := leAt bs 0 1
    let s := s.modSlot k (fun x => { x with inbound := rest })
    match (s.slot k).runs.find? (fun u => u.frame = l.frame) with
    | none => s
    | some u =>
      let s := if u.lines = 0 then s.applyAdj k l.frame else s
      let s := s.modRun k l.frame (fun u => { u with lines := u.lines + 1 })
      let s :=
        if u.discarded then s
        else if (s.slot k).held.length ≥ 8 then
          let s := s.modSlot k (fun x => { x with held := x.held.filter (fun h => h.frame ≠ l.frame) })
          let s := s.modRun k l.frame (fun u => { u with discarded := true, lost := u.lost + 1 })
          let s := ((s.bump (Reg.CAMP_SLOT_LOST_COUNT k)).bump (Reg.CAMP_SLOT_OVERRUN_COUNT k)).setEvent (Reg.CAMP_PIPE_EVENT (k / 8)) 1
          s.overrun q c l.frame
        else
          let s := s.modSlot k (fun x => { x with held := x.held ++ [l] })
          let m := (s.slot k).held.length
          s.modRun k l.frame (fun u => { u with most := max u.most m })
      (s.settleRuns k).beginPass (k / 8)
  | _, _ => s

/-- The pass that pipe i runs ends. -/
def State.endPass (s : State) (i : Nat) (p : Pass) : State :=
  let k := match p with | .line k => k | .flush k => k
  match s.campRec? k with
  | none => s
  | some (_, bs) =>
    let r := s.campRecord bs
    let s := s.wrapBy (Reg.CAMP_PIPE_BUSY_CLOCKS i) r.passClocks
    let s := match p with
      | .line _ =>
        (match (s.slot k).held with
        | l :: rest =>
          (s.modSlot k (fun x => { x with held := rest })).modRun k l.frame (fun u =>
            { u with rows := u.rows ++ [(l.y, l.bytes)], passes := u.passes + 1 })
        | [] => s)
      | .flush _ =>
        (match (s.slot k).runs.find? (fun (u : CampRun) => !u.discarded && decide (u.flushed < r.delta)) with
        | some u => s.modRun k u.frame (fun (u : CampRun) => { u with flushed := u.flushed + 1, passes := u.passes + 1 })
        | none => s)
    s.settleRuns k

/-- PASS_END (R181, R183): the pass in progress ends, and the pipe chooses the next one. An idle pipe only chooses. -/
def doPassEnd (i : Nat) (s : State) : State :=
  let s := match s.camp.pass.getD i none with
    | some p => ({ s with camp := { s.camp with pass := setAt s.camp.pass i none } } : State).endPass i p
    | none => s
  ((List.range 8).foldl (fun (s : State) j => s.settleRuns (8 * i + j)) s).beginPass i

/-! Outputs. -/

/-- The last input row that contributes to output row j (R172, R173). -/
def CampOut.lastRow (o : CampOut) (j : Nat) : Nat :=
  o.u 6 2 + (ceilDiv (64 * (j + 1) * o.u 0xA 2 / o.u 0xE 2) 64 - 1)

/-- The data layout of an output: row pitch, rows, planes (R175). -/
def CampOut.pitch (o : CampOut) : Nat := rowPitch (o.u 0xC 2) (contentChannels (o.u 0 1)) (elemBytes (o.u 2 1)) (o.u 1 1)
def CampOut.planes (o : CampOut) : Nat := if o.u 1 1 = 0 then 1 else contentChannels (o.u 0 1)

/-- Every byte that the output writes to berth b of its slot has been written when its first `done` rows have been (R176). -/
def CampOut.berthDone (o : CampOut) (done b : Nat) : Bool :=
  let h := o.u 0xE 2
  (List.range o.planes).all (fun c => (List.range (h - done)).all (fun i =>
    let lo := 4096 + (c * h + done + i) * o.pitch
    decide (lo + o.pitch ≤ 4096 * b ∨ 4096 * b + 4096 ≤ lo)))

/-- The next row of output m of run u of slot k is written for its stage, with what precedes the first row and follows the last: its
descriptor, its berths' full tags (R173-R176). -/
def State.writeRow (s : State) (q : Fin 4) (k m i h : Nat) (bs : List Byte) (u : CampRun) (f : FrameRec) : State :=
  let r := s.campRecord bs
  let o : CampOut := ⟨slice bs (0x80 + 64 * m) 64⟩
  let j := u.written.getD m 0
  let t := s.tagFor q f i
  let n := contentChannels (o.u 0 1)
  let e := elemBytes (o.u 2 1)
  let a := s.outAddr t m
  let d := imageDesc q t.tide (o.u 2 1) 0 (a + 4096) (o.u 0xC 2) (o.u 0xE 2) n e (o.u 1 1)
  let (s, st0) := if j = 0 then
      (let (s, st) := s.putSlot t h t.slot [⟨0, d.bytes, false⟩]
       (s.fullBerths t h t.slot (fun b => b = 0), st))
    else (s, [])
  let img := u.image r (slice bs 0x40 64)
  let rows := (List.range o.planes).map (fun c =>
    (⟨4096 + (c * o.u 0xE 2 + j) * o.pitch, img.outRow o c j, false⟩ : Chunk))
  let (s, st1) := s.putSlot t h t.slot rows
  let s := s.modRun k u.frame (fun u => { u with written := setAt u.written m (j + 1) })
  let last := ceilDiv (imageBytes (o.u 0xC 2) (o.u 0xE 2) n e (o.u 1 1)) 4096
  let s := s.fullBerths t h t.slot (fun b => if j + 1 = o.u 0xE 2 then true else 1 ≤ b && b ≤ last && o.berthDone (j + 1) b)
  s.modStage q u.frame i (fun r => { r with gathered := r.gathered ++ st0 ++ st1 })

/-- The run of slot k that has a row of output m still to write: the oldest that is not discarded (R173). -/
def State.rowRun? (s : State) (k m : Nat) (bs : List Byte) : Option CampRun :=
  let o : CampOut := ⟨slice bs (0x80 + 64 * m) 64⟩
  (s.slot k).runs.find? (fun u => !u.discarded && decide (u.written.getD m 0 < o.u 0xE 2))

/-- The pass that completes the next row's last contributing input row has ended (R173, R183). -/
def State.rowReady (s : State) (m : Nat) (bs : List Byte) (u : CampRun) : Bool :=
  let o : CampOut := ⟨slice bs (0x80 + 64 * m) 64⟩
  decide (o.lastRow (u.written.getD m 0) + (s.campRecord bs).delta + 1 ≤ u.passes)

/-- OUTPUT_ROW_WRITE (R173-R176, R183): the next row of output m of the oldest frame of slot k, once the pass that completes its last
contributing input row has ended and the frame's stage runs. -/
def doOutputRowWrite (k m : Nat) (s : State) : State :=
  match s.campRec? k with
  | none => s
  | some (q, bs) =>
    let x := s.quays[q]
    match x.stageIdx? (leAt bs 8 2), s.rowRun? k m bs with
    | some i, some u =>
      match (x.stageE i).outs[m]?, x.frame? u.frame, s.stageRun? q u.frame i with
      | some h, some f, some run => if !run.running || !s.rowReady m bs u then s else s.writeRow q k m i h bs u f
      | _, _, _ => s
    | _, _ => s

/-- A slot's stage has written its last output row and its statistics record (R154). -/
def State.campDone (s : State) (q : Fin 4) (n : FrameNo) (i : Nat) : Option Nat :=
  let x := s.quays[q]
  match x.campRecs.find? (fun r => leAt r.2.2 8 2 = (x.stageE i).stage) with
  | none => none
  | some (p, k, bs) =>
    match (s.slot (8 * p + k)).runs.find? (fun u => u.frame = n) with
    | none => none
    | some u =>
      let all := (List.range (x.stageE i).outs.length).all (fun m => decide (leAt bs (0x80 + 64 * m + 0xE) 2 ≤ u.written.getD m 0))
      if all && u.statsDone then some (8 * p + k) else none

/-! Adjustments. -/

/-- ADJ_SUBMIT (R169, R188, R193): the adjustment in quay q's submission registers, for a context. -/
def doAdjSubmit (q : Fin 4) (c : Nat) (s : State) : State :=
  let st := s.quays[q].st
  let target := (s.reg (Reg.CAMP_ADJ_TARGET q)).toNat
  let rd := s.devRead (s.addr48 (Reg.CAMP_ADJ_RECORD_LO q)) 64
  let failed := decide (rd.1 ≠ St.OK)
  let slot := s.slotOf q c
  let x := s.slot (slot.getD 0)
  let old : Bool := match x.lastTarget with | some t => frameLater (BitVec.ofNat 32 t) (BitVec.ofNat 32 target) | none => false
  let same := x.queue.find? (fun a => a.target = target)
  let answer := fun (s : State) (status : Status) (number : Nat) =>
    (s.put (Reg.CAMP_ADJ_STATUS q) (status.toNat + number * 65536)).answer status
  if st = .empty ∨ st = .faulted ∨ st = .resetting then answer (s.bump (Reg.CAMP_ADJ_BAD_STATE_COUNT q)) St.BAD_STATE 0
  else
    let bad := worst ((if slot.isNone || old || (!failed && !(⟨rd.2.1⟩ : Adj).ok) then [St.REFUSED] else []) ++
      (if failed then [St.FAULT] else []) ++ (if same.isNone && decide (4 ≤ x.queue.length) then [St.BUSY] else []))
    if bad ≠ St.OK then answer s bad 0
    else
      let a : AdjQ := ⟨x.nextNumber, target, rd.2.1⟩
      let s := s.modSlot (slot.getD 0) (fun x => { x with
        queue := if same.isSome then x.queue.map (fun b => if b.target = target then a else b) else x.queue ++ [a]
        nextNumber := nextTicket x.nextNumber
        lastTarget := some target })
      answer s St.OK a.number

/-! The meanings. -/

/-- LINE_ARRIVE. -/
def execLineArrive (slot : Fin 32) (s : State) : Res := act (doLineArrive slot) s
/-- PASS_END. -/
def execPassEnd (pipe : Fin 4) (s : State) : Res := act (doPassEnd pipe) s
/-- OUTPUT_ROW_WRITE. -/
def execOutputRowWrite (slot : Fin 32) (output : Fin 4) (s : State) : Res := act (doOutputRowWrite slot output) s
/-- ADJ_SUBMIT. -/
def execAdjSubmit (q : Fin 4) (c : Nat) (s : State) : Res := act (doAdjSubmit q c) s

end Sys2Proof.Machine
end

