-- ==== Sys2Proof/Machine/FleetSide.lean ====
section
/-! DEFINITION. What a node does with a peer's requests of one of its quays (R445, R453-R458, R460): resolving offsets, judging tides and
frames, storing, and the answers. -/
namespace Sys2Proof.Machine

/-- The port a device address is reached through, and its die. -/
def portOf (pa : Nat) : Nat × Nat :=
  match regionOf pa with
  | .hbm d => (d, d)
  | .onnak _ => (5, 0)
  | _ => (2 + berthDie (berthOf pa), berthDie (berthOf pa))

/-- Take lines from every lane for a request of `n` lines that no bucket finds empty: as many as each bucket has (R382). -/
def State.chargeUpTo (s : State) (q : Nat) (ls : List Lane) (n : Nat) : Option State :=
  if ls.all (fun l => 1 ≤ s.bucket q l) then
    some (ls.foldl (fun (s : State) l =>
      let k := min n (s.bucket q l)
      (s.modMem (fun m => { m with buckets := Tab.set nat0 m.buckets (bucketKey q l) (Tab.get nat0 m.buckets (bucketKey q l) - k) })).countLines
        q l k) s)
  else none

/-- Where an offset of a quay's fleet window leads (R453). -/
inductive FleetAt where
  | mem (pa : Nat)
  | berth (b off : Nat)
  /-- It leads nowhere; the kind of its fault record. -/
  | hole (kind : Nat)
  deriving DecidableEq, Repr

/-- Slot index of a frame that a peer names: that of the frame in flight, or of the next to open (R99, R458). -/
def Quay.kFor (x : Quay) (n : FrameNo) : Nat := match x.frame? n with | some f => f.k | none => x.nextK

/-- Resolve an offset of a quay's fleet window for a message of frame n (R453). -/
def State.fleetAt (s : State) (q : Fin 4) (n : FrameNo) (o : Nat) (write : Bool) : FleetAt :=
  if o < 0xF00000000 then
    match s.walk q o write with
    | .ok pa _ _ => (match regionOf pa with | .onnak _ => .hole 3 | _ => .mem pa)
    | .fault k => .hole k
  else if o < 0xF0C000000 then
    let x := s.quays[q]
    match x.chart with
    | none => .hole 1
    | some c =>
      let b := c.cfg.berthFirst + (o - 0xF00000000) / 4096
      let seen := c.berths.any (fun e => e.fleet && decide (c.cfg.berthFirst + e.first ≤ b ∧ b < c.cfg.berthFirst + e.first + e.count))
      let rot := x.handles.find? (fun h => h.kind = 0 && h.rotated && decide (h.base ≤ b ∧ b < h.base + h.length))
      if !seen then .hole 1
      else match rot with
        | none => .berth b (o % 4096)
        | some h =>
          let i := b - h.base
          let per := h.length / x.fif
          if per ≤ i then .hole 1 else .berth (h.base + (x.kFor n % x.fif) * per + i) (o % 4096)
  else .hole 1

/-- The device address that a resolved offset names. -/
def FleetAt.pa? : FleetAt → Option Nat
  | .mem pa => some pa
  | .berth b off => some (berthAddr b + off)
  | .hole _ => none

/-- Offsets at which a range of a fleet window enters a page. -/
def pagesOf (o n : Nat) : List Nat := (List.range ((o + n - 1) / 4096 - o / 4096 + 1)).map (fun i => max o ((o / 4096 + i) * 4096))

/-- The first offset of a range that leads nowhere, and the kind of its fault. -/
def State.fleetBad (s : State) (q : Fin 4) (n : FrameNo) (o len : Nat) (write : Bool) : Option (Nat × Nat) :=
  (pagesOf o len).findSome? (fun a => match s.fleetAt q n a write with | .hole k => some (a, k) | _ => none)

/-- Bytes of a range of a fleet window, with their lines' marks. -/
def State.fleetRead (s : State) (q : Fin 4) (n : FrameNo) (o len : Nat) : List (Byte × Bool) :=
  (pagesOf o len).flatMap (fun a =>
    let k := min (o + len) ((a / 4096 + 1) * 4096) - a
    match (s.fleetAt q n a false).pa? with
    | some pa => (List.range k).map (fun i => (s.byte (pa + i), s.marked (pa + i)))
    | none => List.replicate k (0#8, false))

/-- The request's answer: the request's own fields with the answer's type, status and payload, on the response lane (R446, R455). -/
def State.fleetAnswer (s : State) (n : Nat) (h : OHdr) (ty : Nat) (st : Status) (payload : List Byte) (poison : Nat) : State :=
  s.sendMsg n 1 { h with type := ty, flags := 0, status := st.toNat, crc := 0, poison := poison, count := 0 } payload

/-- The answer type of a request (R446). -/
def answerType (ty : Nat) : Nat :=
  if ty = Msg.READ then Msg.READ_RESP else if ty = Msg.WRITE then Msg.WRITE_ACK else if ty = Msg.SIGNAL then Msg.SIGNAL_ACK
  else if ty = Msg.BIND then Msg.BIND_ACK else Msg.STREAM_END

/-- A request that leads nowhere completes with OOB, with a fault record whose class is 0 and whose instance is the requester's node
(R417, R453). -/
def State.fleetOob (s : State) (q : Fin 4) (n : Nat) (h : OHdr) (va kind : Nat) (write : Bool) : State :=
  let rec' := natLE 1 1 ++ natLE 1 q ++ natLE 1 s.quays[q].tide.toNat ++ natLE 1 kind ++ natLE 4 h.frame ++ natLE 8 va ++ natLE 1 0 ++
    natLE 1 n ++ natLE 2 0 ++ natLE 1 (b2n write) ++ natLE 3 0 ++ natLE 8 0 ++ natLE 24 0 ++ natLE 8 s.time.now
  ((s.faultRing q rec').setEvent Reg.XLT_EVENT (2 ^ q.val)).fleetAnswer n h (answerType h.type) St.OOB [] 0

/-- The lines a target moves for a request, and the lanes it moves them on: rm of port 5 and of the port its memory is behind (R460). -/
def State.fleetLanes (s : State) (q : Fin 4) (h : OHdr) (write : Bool) : List Lane :=
  let d := if write then 0 else 1
  match (s.fleetAt q (BitVec.ofNat 32 h.frame) h.address write).pa? with
  | some pa => [(5, 2, d), ((portOf pa).1, 2, 0)]
  | none => []

/-- What R458 says of a WRITE or SIGNAL into the fleet berth region. -/
inductive FrameJudge where
  | apply | skew | absorb
  deriving DecidableEq, Repr

/-- Judge the frame of a WRITE or SIGNAL (R458): between the oldest unpublished frame and the youngest opened plus one. -/
def Quay.judgeFrame (x : Quay) (n : FrameNo) : FrameJudge :=
  let oldest := match x.frames.find? (fun f => !f.committed) with | some f => f.num | none => x.nextFrame
  if !(frameAtOrBefore oldest n && frameAtOrBefore n x.nextFrame) then .skew
  else match x.frame? n with
    | some f => if f.squashed then .absorb else .apply
    | none => .apply

/-- The tag under which a peer's write reaches a berth: the receiving quay's, with the message's frame (R373, R457). -/
def State.fleetTag (s : State) (q : Fin 4) (h : OHdr) : ReqTag :=
  let x := s.quays[q]
  let n : FrameNo := BitVec.ofNat 32 h.frame
  let slot := x.kFor n % x.fif
  ⟨q, x.tide, h.handle, 0xFFFF, n, slot, x.gens.getD slot 0⟩

/-- The handle of a quay that maps a berth, 0xFFFF when none does. -/
def Quay.handleOfBerth (x : Quay) (b : Nat) : Nat :=
  ((x.handles.find? (fun h => h.kind = 0 && decide (h.base ≤ b ∧ b < h.base + h.length))).map (·.handle)).getD 0xFFFF

/-- Store enabled bytes of one line at a resolved place: the status that R373 gives a berth's write. -/
def State.fleetStore (s : State) (q : Fin 4) (h : OHdr) (o : Nat) (bs : List Byte) (en : Nat) (poison : Bool) : State × Status :=
  match s.fleetAt q (BitVec.ofNat 32 h.frame) o true with
  | .mem pa => (s.storeMasked (pa / 64 * 64) bs en poison, St.OK)
  | .berth b off => s.berthWrite (s.fleetTag q h) b off bs en poison
  | .hole _ => (s, St.OOB)

/-- A WRITE's lines: offset of the line, its 64 bytes with those to be stored in place, enables and mark. A masked write's bits are merged
with the line's own (R445, R351). -/
def State.fleetLines (s : State) (q : Fin 4) (h : OHdr) (b : List Byte) (v12 : Bool) : List (Nat × List Byte × Nat × Bool) :=
  let bad := fun (k : Nat) => if v12 then h.poison.testBit k else bitOf h.flags 1
  if bitOf h.flags 2 then
    let line := h.address / 64 * 64
    let old := (s.fleetRead q (BitVec.ofNat 32 h.frame) line 64).map (·.1)
    let mask := fun (i : Nat) => if bitOf h.flags 4 then leAt b (64 + i) 1
      else (if bitOf (leAt b (64 + i / 4) 1) (2 * (i % 4)) then 0x0F else 0) + (if bitOf (leAt b (64 + i / 4) 1) (2 * (i % 4) + 1) then 0xF0 else 0)
    let bs := (List.range 64).map (fun i =>
      BitVec.ofNat 8 (((b.getD i 0#8).toNat &&& mask i) ||| ((old.getD i 0#8).toNat &&& (0xFF - mask i))))
    let en := sumNat ((List.range 64).map (fun i => if mask i = 0 then 0 else 2 ^ i))
    [(line, bs, en, bad 0)]
  else
    (List.range (ceilDiv b.length 64)).flatMap (fun k =>
      (cutLines (h.address + 64 * k) (slice b (64 * k) (min 64 (b.length - 64 * k)))).map (fun e =>
        (e.1, List.replicate e.2.1 0#8 ++ e.2.2, enables e.2.1 e.2.2.length, bad k)))

/-- READ (R453): the range's bytes and marks. -/
def State.fleetReadReq (s : State) (q : Fin 4) (n : Nat) (h : OHdr) : State :=
  let f : FrameNo := BitVec.ofNat 32 h.frame
  if h.count = 0 ∨ 4096 < h.count then s.fleetAnswer n h Msg.READ_RESP St.REFUSED [] 0
  else match s.fleetBad q f h.address h.count false with
    | some (a, k) => s.fleetOob q n h a k false
    | none =>
      let bs := s.fleetRead q f h.address h.count
      let poison := sumNat ((List.range (ceilDiv h.count 64)).map (fun k => bitAt (((bs.drop (64 * k)).take 64).any (·.2)) k))
      s.fleetAnswer n h Msg.READ_RESP St.OK (bs.map (·.1)) poison

/-- WRITE (R445, R453, R458): into the fleet berth region only for a frame of R458's interval. -/
def State.fleetWriteReq (s : State) (q : Fin 4) (n : Nat) (h : OHdr) (b : List Byte) : State :=
  let f : FrameNo := BitVec.ofNat 32 h.frame
  let ls := s.fleetLines q h b (decide ((s.peer n).version = 0x12))
  let done := fun (s : State) st => s.fleetAnswer n h Msg.WRITE_ACK st [] 0
  if b = [] then done s St.REFUSED
  else match s.fleetBad q f h.address (if bitOf h.flags 2 then 64 else b.length) true with
    | some (a, k) => s.fleetOob q n h a k true
    | none =>
      let judge := if h.address < 0xF00000000 then FrameJudge.apply else s.quays[q].judgeFrame f
      match judge with
      | .skew => done (s.bump (Reg.ONNAK_PEER_SKEW_COUNT n)) 0x80#8
      | .absorb => done (s.bump (Reg.ONNAK_PEER_SQUASHED_DROP_COUNT n)) St.OK
      | .apply =>
        let (s, sts) := ls.foldl (fun (a : State × List Status) e =>
          let (s, st) := a.1.fleetStore q h e.1 e.2.1 e.2.2.1 e.2.2.2
          (s, addNew st a.2)) (s, [])
        done s (worst sts)

/-- SIGNAL (R97, R374, R457, R458): the berth is FULL for the message's frame. -/
def State.fleetSignalReq (s : State) (q : Fin 4) (n : Nat) (h : OHdr) : State :=
  let f : FrameNo := BitVec.ofNat 32 h.frame
  let done := fun (s : State) st => s.fleetAnswer n h Msg.SIGNAL_ACK st [] 0
  match s.fleetAt q f h.address true with
  | .berth b _ =>
    match s.quays[q].judgeFrame f with
    | .skew => done (s.bump (Reg.ONNAK_PEER_SKEW_COUNT n)) 0x80#8
    | .absorb => done (s.bump (Reg.ONNAK_PEER_SQUASHED_DROP_COUNT n)) St.OK
    | .apply =>
      let (s, st) := s.setFull (s.fleetTag q h) (s.quays[q].handleOfBerth b) b
      done s st
  | .mem _ => s.fleetOob q n h h.address 1 true
  | .hole k => s.fleetOob q n h h.address k true

/-- STREAM (R446, R456): its range as segments of 4,096 bytes over every reachable port, then STREAM_END. -/
def State.fleetStreamReq (s : State) (q : Fin 4) (n : Nat) (h : OHdr) : State :=
  let f : FrameNo := BitVec.ofNat 32 h.frame
  if h.count < 16384 ∨ 67108864 < h.count ∨ h.count % 64 ≠ 0 then s.fleetAnswer n h Msg.STREAM_END St.REFUSED [] 0
  else match s.fleetBad q f h.address h.count false with
    | some (a, k) => s.fleetOob q n h a k false
    | none =>
      let ports := s.reachable n
      let s := (List.range (ceilDiv h.count 4096)).foldl (fun (s : State) i =>
        let len := min 4096 (h.count - 4096 * i)
        let bs := s.fleetRead q f (h.address + 4096 * i) len
        let poison := sumNat ((List.range (ceilDiv len 64)).map (fun k => bitAt (((bs.drop (64 * k)).take 64).any (·.2)) k))
        match ports[i % max 1 ports.length]? with
        | none => s
        | some p => s.sendMsg n (2 + p) { h with
            type := Msg.STREAM_DATA, flags := 0, address := h.address + 4096 * i, count := 0, crc := 0, poison := poison } (bs.map (·.1))) s
      s.fleetAnswer n h Msg.STREAM_END St.OK [] 0

/-- A peer's READ, WRITE, SIGNAL or STREAM of a quay (R453-R458): judged by tide, charged to the quay's rm class, and answered. A request that
must wait for a window keeps later ones of the same peer behind it (R382, R449). -/
def State.fleetRequest (s : State) (n p : Nat) (h : OHdr) (b : List Byte) : State :=
  let ans := fun (s : State) st => s.fleetAnswer n h (answerType h.type) st [] 0
  match quayOf? h.dstQuay with
  | none => ans s St.OOB
  | some q =>
    let x := s.quays[q]
    if x.tide.toNat ≠ h.dstTide then ans (s.bump (Reg.HM_QUAY_STALE_DROP_COUNT q)) St.STALE_TIDE
    else if !((x.fleetE n).any (fun f => f.remoteQuay = h.srcQuay)) then ans s St.REFUSED
    else
      let write := decide (h.type = Msg.WRITE ∨ h.type = Msg.SIGNAL)
      let ls := if h.type = Msg.SIGNAL then [] else s.fleetLanes q h write
      let lines := if write then ceilDiv b.length 64 else ceilDiv h.count 64
      let behind := s.mem.drlWait.any (fun w => match w with | .fleet m _ _ => decide (m = n) | _ => false)
      match (if behind then none else s.chargeUpTo q ls (max 1 lines)) with
      | none => s.throttle q ls (.fleet n p (h.bytes ++ b))
      | some s =>
        if h.type = Msg.READ then s.fleetReadReq q n h
        else if h.type = Msg.WRITE then s.fleetWriteReq q n h b
        else if h.type = Msg.SIGNAL then s.fleetSignalReq q n h
        else s.fleetStreamReq q n h

/-- A peer's request that waited for the window is tried again (R382). -/
def State.retryFleet (s : State) (n p : Nat) (frame : List Byte) : State :=
  let (h, b) := splitFrame frame
  s.fleetRequest n p h b

end Sys2Proof.Machine
end

