-- ==== Sys2Proof/Machine/Onnak.lean ====
section
/-! DEFINITION. The commands of Onnak (R442-R464): frames received, its timers, and links that come up and go down. -/
namespace Sys2Proof.Machine

/-! Frames received (R442, R444, R445, R450). -/

/-- The EtherType of a frame and what follows it, past an 802.1Q tag (R442, R444). -/
def etherBody (b : List Byte) : Nat × List Byte :=
  if leNat (slice b 12 2).reverse = 0x8100 then (leNat (slice b 16 2).reverse, b.drop 18) else (leNat (slice b 12 2).reverse, b.drop 14)

/-- Fleet port p can receive Onnak frames now. -/
def State.onnakUp (s : State) (p : Nat) : Bool := decide (p < 4) && (s.port p).up && flag (s.reg Reg.ONNAK_CTRL) 0

/-- The lane index of a frame received on a port: request 0, response 1, stream 2 + p (R449). -/
def rxLane (p lane : Nat) : Nat := if lane = 3 then 2 + p else lane - 1

/-- Acknowledgements and limits of a frame received on port p apply to the request, response and that port's stream lane (R450). -/
def State.applyAcks (s : State) (n p : Nat) (h : OHdr) : State :=
  let lanes := [0, 1, 2 + p]
  let s := s.modPeer n (fun x => { x with
    lastRx := s.time.now
    tx := (enum lanes).foldl (fun tx e => modAt tx e.2 (fun t => t.acked (h.ack.getD e.1 0) (h.limit.getD e.1 0) s.time.now)) x.tx })
  lanes.foldl (fun (s : State) l => s.pump n l) s

/-- A sequenced frame that is not accepted is dropped, and an ACK with gap goes at most once per microsecond per lane and port (R450). -/
def State.gapAck (s : State) (n p lane : Nat) : State :=
  let l := (s.peer n).rx.getD lane LaneRx.idle
  let due := match l.gapAt with | some t => decide (t + 1000 ≤ s.time.now) | none => true
  if !due then s
  else (s.modPeer n (fun x => { x with rx := modAt x.rx lane (fun l => { l with gapAt := some s.time.now }) })).sendAck n p true

/-- A sequenced frame is accepted in order: the lane's next number advances and an acknowledgement is due (R450). -/
def State.acceptSeq (s : State) (n p lane : Nat) : State :=
  let key := if lane < 2 then 0 else 1 + p
  s.modPeer n (fun x => { x with
    rx := modAt x.rx lane (fun l => { l with next := (l.next + 1) % 0x10000 })
    ackDue := if x.ackDue.any (fun e => e.1 = key) then x.ackDue else x.ackDue ++ [(key, s.time.now)] })

/-- A frame at port p is judged as a message of type `ty` (R445, R447-R450): the state after its checks, and the message it brings, if it is
taken: the node that sent it, its header and its payload. -/
def State.arrival (s : State) (ty p : Nat) (frame : List Byte) (fcs : Bool) : State × Option (Nat × OHdr × List Byte) :=
  let (et, body) := etherBody frame
  let h := OHdr.ofBytes (body.take 64)
  let b := body.drop 64
  if !s.onnakUp p || et ≠ 0x88B5 then (s, none)
  else if !fcs || body.length < 64 || b.length ≠ h.length || 4096 < h.length then (s.bump (Reg.ONNAK_PORT_FCS_COUNT p), none)
  else
    let n := h.src
    let x := s.peer n
    match msgLane h.type with
    | some (lane, v) =>
      if h.type ≠ ty || 8 ≤ n || n = s.nodeId || h.dst ≠ s.nodeId then (s, none)
      else if x.st ≠ .up || h.version ≠ x.version || x.version < v || h.lane ≠ lane then (s.bump (Reg.ONNAK_PEER_BAD_FRAME_COUNT n), none)
      else if x.theirs ≠ some h.session then (s.bump (Reg.ONNAK_PEER_SESSION_DROP_COUNT n), none)
      else
        let crcOk := !bitOf h.flags 3 || decide (crc32c b = h.crc)
        if lane = 0 then
          if crcOk then (s.applyAcks n p h, some (n, h, b)) else (s.bump (Reg.ONNAK_PORT_FCS_COUNT p), none)
        else
          let l := rxLane p lane
          let r := x.rx.getD l LaneRx.idle
          if !crcOk then ((s.bump (Reg.ONNAK_PORT_FCS_COUNT p)).gapAck n p l, none)
          else
            let s := s.applyAcks n p h
            if !seqLe h.seq r.limit then ((s.bump (Reg.ONNAK_PEER_BAD_FRAME_COUNT n)).gapAck n p l, none)
            else if h.seq ≠ r.next then (s.gapAck n p l, none)
            else (s.acceptSeq n p l, some (n, h, b))
    | none => (if 8 ≤ n then s else s.bump (Reg.ONNAK_PEER_BAD_FRAME_COUNT n), none)

/-- A frame of one type arrives on a port and, where every check passes, `go` has its effect (R442-R450). Frames of another defined type are other
commands. -/
def State.receive (s : State) (ty p : Nat) (frame : List Byte) (fcs : Bool) (go : Nat → OHdr → List Byte → State → State) : State :=
  match s.arrival ty p frame fcs with
  | (s, some (n, h, b)) => go n h b s
  | (s, none) => s

/-! HELLO (R447, R448). -/

/-- The highest version in both ranges (R447). -/
def commonVersion (lo hi : Nat) : Option Nat :=
  let v := min hi 0x12
  if max lo 0x10 ≤ v then some v else none

/-- A peer found again, or with a new session: every lane of the pair restarts; what was outstanding to it is lost with the old pair (R448,
R452). -/
def State.restartPeer (s : State) (n : Nat) (limits : List Nat) : State :=
  (s.dropPeer n).modPeer n (fun x => x.restart limits s.time.now)

/-- A HELLO record that names another node of this fleet (R447, R448); `mine` says that it was sent to this node alone. -/
def State.helloFrom (s : State) (p n : Nat) (r : List Byte) (mine : Bool) : State :=
  let limits := [leAt r 13 2, leAt r 15 2, leAt r 17 2]
  let s := s.modPeer n (fun x => { x with
    heard := addNew p x.heard
    mac := (p, slice r 19 6) :: x.mac.filter (fun e => e.1 ≠ p)
    part := leAt r 0 4
    lastRx := s.time.now })
  match commonVersion (leAt r 4 1) (leAt r 5 1) with
  | none =>
    let s := if (s.peer n).st = .up then s.dropPeer n else s
    (s.modPeer n (fun x => { x with st := .incompatible, version := 0 })).setEvent Reg.ONNAK_EVENT 8
  | some v =>
    let session := leAt r 12 1
    let s :=
      if (s.peer n).st ≠ .up then
        (s.restartPeer n limits).modPeer n (fun x => { x with st := .up, version := v, session := (x.session + 1) % 256, theirs := none })
      else if mine ∧ (s.peer n).theirs ≠ none ∧ (s.peer n).theirs ≠ some session then s.restartPeer n limits
      else s
    let s := s.modPeer n (fun x => { x with version := v, theirs := if mine then some session else x.theirs })
    s.settleFleetPeer

/-- HELLO (R447, R448): received, answered by unicast when it was sent to the group, and used for the peer's state and version. -/
def doHello (p : Nat) (frame : List Byte) (fcs : Bool) (s : State) : State :=
  let (et, body) := etherBody frame
  let h := OHdr.ofBytes (body.take 64)
  let r := body.drop 64
  if !s.onnakUp p || et ≠ 0x88B5 then s
  else if !fcs || body.length < 64 || r.length ≠ h.length then s.bump (Reg.ONNAK_PORT_FCS_COUNT p)
  else if h.type ≠ Msg.HELLO then s
  else
    let n := leAt r 10 1
    if 8 ≤ n then s
    else if leAt r 6 4 ≠ (s.reg Reg.ONNAK_FLEET_ID).toNat ∨ r.length ≠ 64 ∨ h.version ≠ 0x10 then s.bump (Reg.ONNAK_PEER_BAD_FRAME_COUNT n)
    else
      let s := { s with onnak := { s.onnak with ports := modAt s.onnak.ports p (fun x => { x with helloed := true }) } }
      let group := decide (frame.take 6 = s.helloMac)
      let s :=
        if n = s.nodeId then
          let was := (s.peer n).st
          let s := (s.modPeer n (fun x => { x with st := .duplicate })).setEvent Reg.ONNAK_EVENT 4
          if was = .duplicate then s else s.service 5
        else s.helloFrom p n r (!group)
      let s := if group then s.answerHello p n (slice r 19 6) else s
      (List.range 6).foldl (fun (s : State) l => s.pump n l) s.settleAllDraining

/-- HELLO_TIMER (R447): every 10 ms, on every fleet port that is up. -/
def doHelloTimer (s : State) : State :=
  if !flag (s.reg Reg.ONNAK_CTRL) 0 || s.time.now < s.onnak.helloAt + 10000000 then s
  else
    let s := { s with onnak := { s.onnak with helloAt := s.time.now } }
    ((List.range 4).filter (fun p => (s.port p).up)).foldl (fun (s : State) p => s.sendHello p) s

/-! Acknowledgements and peers (R450, R452). -/

/-- The lanes of a pair that use port p and have frames unacknowledged send again (R450). -/
def State.resendPort (s : State) (n p : Nat) : State :=
  (List.range 6).foldl (fun (s : State) l =>
    if s.lanePort n l = some p ∧ ((s.peer n).tx.getD l LaneTx.idle).unacked ≠ [] then s.resend n l else s) s

/-- ACK (R450): acknowledgements and limits are applied; with gap set, the lanes that use the port send again. -/
def doAck (p : Nat) (frame : List Byte) (fcs : Bool) (s : State) : State :=
  s.receive Msg.ACK p frame fcs (fun n h _ s => if bitOf h.flags 0 then s.resendPort n p else s)

/-- ACK_TIMER (R450): 2 µs after an in-order receipt that no frame has acknowledged. -/
def doAckTimer (n : Nat) (s : State) : State :=
  if (s.peer n).st ≠ .up then s
  else
    let due := (s.peer n).ackDue.filter (fun e => decide (e.2 + 2000 ≤ s.time.now))
    due.foldl (fun (s : State) e =>
      match (if e.1 = 0 then s.lanePort n 1 else s.lanePort n (1 + e.1)) with
      | some p => if (s.peer n).ackDue.any (fun d => d = e) then s.sendAck n p false else s
      | none => s) s

/-- KEEPALIVE_ACK (R452): an UP peer has received nothing from this node for 20 µs. -/
def doKeepaliveAck (n : Nat) (s : State) : State :=
  if (s.peer n).st ≠ .up ∨ s.time.now < (s.peer n).lastTx + 20000 then s
  else match s.lanePort n 0 with
    | some p => s.sendAck n p false
    | none => s

/-- RTO_EXPIRY (R450): ONNAK_RTO has passed with no advance of a lane's acknowledgement. -/
def doRtoExpiry (n lane : Nat) (s : State) : State :=
  let t := (s.peer n).tx.getD lane LaneTx.idle
  let rto := fld (s.reg Reg.ONNAK_RTO) 9 0 * 1000
  if (s.peer n).st ≠ .up ∨ t.unacked = [] ∨ s.time.now < t.since + rto then s else s.resend n lane

/-- PEER_TIMEOUT (R452): nothing received, or a frame unacknowledged, for ONNAK_PEER_TIMEOUT. -/
def doPeerTimeout (n : Nat) (s : State) : State :=
  let x := s.peer n
  let limit := fld (s.reg Reg.ONNAK_PEER_TIMEOUT) 16 0 * 1000
  let stuck := x.tx.any (fun t => match t.unacked.head? with | some u => decide (u.2.1 + limit ≤ s.time.now) | none => false)
  if x.st ≠ .up || !(decide (x.lastRx + limit ≤ s.time.now) || stuck) then s
  else (s.losePeer n).settleAllDraining

/-! Bindings (R454). -/

/-- The record that answers a BIND of node n. -/
def State.bindMine (s : State) (n : Nat) (q : Fin 4) : List Byte :=
  s.bindRecord q s.quays[q].tide.toNat (((s.quays[q].fleetE n).map (·.minVersion)).getD 0x10)

/-- The status that answers a BIND: the first condition that applies (R454). -/
def State.bindStatus (s : State) (n : Nat) (h : OHdr) (b : List Byte) (q : Fin 4) : Status :=
  let x := s.quays[q]
  let mine := s.bindMine n q
  let v := (s.peer n).version
  if x.st = .empty ∨ x.st = .resetting ∨ x.st = .faulted then St.FENCED
  else match x.fleetE n with
    | none => St.REFUSED
    | some f =>
      if f.remoteQuay ≠ h.srcQuay then St.REFUSED
      else if v < f.minVersion ∨ v < leAt b 26 1 then St.VERSION
      else if slice b 0 16 ≠ slice mine 0 16 ∨ !s.time.locked ∨ !bitOf (leAt b 24 1) 0 ∨ slice b 16 8 ≠ slice mine 16 8 then 0x81#8
      else St.OK

/-- BIND (R454): the target's answer, by the first condition that applies. -/
def doBind (p : Nat) (frame : List Byte) (fcs : Bool) (s : State) : State :=
  s.receive Msg.BIND p frame fcs (fun n h b s =>
    match quayOf? h.dstQuay with
    | none => s.fleetAnswer n h Msg.BIND_ACK St.FENCED (natLE 32 0) 0
    | some q => s.fleetAnswer n h Msg.BIND_ACK (s.bindStatus n h b q) (s.bindMine n q) 0)

/-- An answer of a peer to one of this node's requests (R455): judged by its tide and its tag, then applied by `go`. -/
def State.answered (s : State) (n : Nat) (h : OHdr) (kinds : List FleetKind) (go : Fin 4 → FleetReq → State → State) : State :=
  match quayOf? h.srcQuay with
  | none => s.bump (Reg.ONNAK_PEER_LATE_ANSWER_COUNT n)
  | some q =>
    if s.quays[q].tide.toNat ≠ h.srcTide then s.bump (Reg.HM_QUAY_STALE_DROP_COUNT q)
    else match s.onnak.reqs.find? (fun r => r.peer = n && r.tag = h.tag && r.quay = q.val && kinds.elem r.kind) with
      | none => (s.bump (Reg.HM_QUAY_STALE_DROP_COUNT q)).bump (Reg.ONNAK_PEER_LATE_ANSWER_COUNT n)
      | some r => (go q r (s.progress q)).settleAllDraining

/-- A binding is STALE, and Onnak rebinds at once (R454). -/
def State.bindStale (s : State) (q : Fin 4) (n : Nat) : State :=
  ((s.modBind q n (fun b => { b with st := .stale })).bump (Reg.ONNAK_BIND_STALE_COUNT (q * 8 + n))).sendBind q n

/-- A request ends with its answer's status; STALE_TIDE to a request that carried the binding's tide makes the binding STALE (R454,
R456). -/
def State.answerStatus (s : State) (q : Fin 4) (n : Nat) (r : FleetReq) (st : Status) : State :=
  let s := s.endRequest r st
  let b := s.binding q n
  if st = St.STALE_TIDE ∧ b.st = .bound ∧ b.tide = r.dstTide then s.bindStale q n else s

/-- The answer to a BIND sets its binding (R454). -/
def State.bindAnswered (s : State) (n : Nat) (h : OHdr) (b : List Byte) (q : Fin 4) (r : FleetReq) : State :=
  let st : Status := BitVec.ofNat 8 h.status
  let tide : Tide := BitVec.ofNat 8 (leAt b 25 1)
  let s := { s with onnak := { s.onnak with reqs := s.onnak.reqs.filter (fun x => x ≠ r) } }
  let s := s.modBind q n (fun x => { x with lastStatus := st })
  let old := s.binding q n
  if old.st = .none then s
  else if st ≠ St.OK then s
  else if old.st = .bound ∧ old.tide ≠ tide then s.bindStale q n
  else s.modBind q n (fun x => { x with st := .bound, tide := tide })

/-- BIND_ACK (R454). -/
def doBindAck (p : Nat) (frame : List Byte) (fcs : Bool) (s : State) : State :=
  s.receive Msg.BIND_ACK p frame fcs (fun n h b s => s.answered n h [.bind] (fun q r s => s.bindAnswered n h b q r))

/-- BIND_RETRY (R454): a binding of a quay that is RUNNING, DOCKING or DOCKED is not BOUND timeout_us after its last BIND. -/
def doBindRetry (q : Fin 4) (n : Nat) (s : State) : State :=
  let b := s.binding q n
  match s.quays[q].fleetE n with
  | some f =>
    if s.quays[q].st.active && b.st ≠ .bound && decide (b.sentAt + f.timeoutNs ≤ s.time.now) && decide ((s.peer n).st = .up) then s.sendBind q n
    else s
  | none => s

/-! Requests of peers (R453-R458). -/

/-- A peer's request of a quay. -/
def State.requestFrom (s : State) (ty p : Nat) (frame : List Byte) (fcs : Bool) : State :=
  s.receive ty p frame fcs (fun n h b s => s.fleetRequest n p h b)

/-- READ (R453). -/
def doRead (p : Nat) (frame : List Byte) (fcs : Bool) (s : State) : State := s.requestFrom Msg.READ p frame fcs
/-- WRITE (R453, R458). -/
def doWrite (p : Nat) (frame : List Byte) (fcs : Bool) (s : State) : State := s.requestFrom Msg.WRITE p frame fcs
/-- SIGNAL (R457, R458): every earlier WRITE of the request lane has been applied. -/
def doSignal (p : Nat) (frame : List Byte) (fcs : Bool) (s : State) : State := s.requestFrom Msg.SIGNAL p frame fcs
/-- STREAM (R456). -/
def doStream (p : Nat) (frame : List Byte) (fcs : Bool) (s : State) : State := s.requestFrom Msg.STREAM p frame fcs

/-! Answers (R455, R456, R459). -/

/-- Deliver the lines of an answer's payload, from an offset of the peer's window, with their marks (R456). -/
def State.deliverLines (s : State) (n : Nat) (r : FleetReq) (o : Nat) (b : List Byte) (bad : Nat → Bool) : State :=
  (List.range (ceilDiv b.length 64)).foldl (fun (s : State) k =>
    let s := s.deliver r.req (fleetAddr n (o + 64 * k)) (slice b (64 * k) 64) (bad k)
    if bad k then s.gather r.req St.POISON else s) s

/-- Which payload lines of an answer are poisoned (R445, R447). -/
def State.poisonedLines (s : State) (n : Nat) (h : OHdr) : Nat → Bool :=
  if (s.peer n).version = 0x12 then fun k => h.poison.testBit k else fun _ => bitOf h.flags 1

/-- The answer to a READ: the round trip is recorded, and a good answer's lines are delivered (R456). -/
def State.readAnswered (s : State) (n : Nat) (h : OHdr) (b : List Byte) (q : Fin 4) (r : FleetReq) : State :=
  let st : Status := BitVec.ofNat 8 h.status
  let s := s.put (Reg.ONNAK_PEER_RTT n) (s.time.now - r.issued)
  let s := if st = St.OK then s.deliverLines n r r.address b (s.poisonedLines n h) else s
  s.answerStatus q n r st

/-- READ_RESP (R456). -/
def doReadResp (p : Nat) (frame : List Byte) (fcs : Bool) (s : State) : State :=
  s.receive Msg.READ_RESP p frame fcs (fun n h b s => s.answered n h [.read] (fun q r s => s.readAnswered n h b q r))

/-- WRITE_ACK (R456). -/
def doWriteAck (p : Nat) (frame : List Byte) (fcs : Bool) (s : State) : State :=
  s.receive Msg.WRITE_ACK p frame fcs (fun n h _ s => s.answered n h [.write] (fun q r s => s.answerStatus q n r (BitVec.ofNat 8 h.status)))

/-- SIGNAL_ACK (R446). -/
def doSignalAck (p : Nat) (frame : List Byte) (fcs : Bool) (s : State) : State :=
  s.receive Msg.SIGNAL_ACK p frame fcs (fun n h _ s => s.answered n h [.signal] (fun q r s => s.answerStatus q n r (BitVec.ofNat 8 h.status)))

/-- Bytes of a stream received so far without a gap from its start (R459). -/
def streamHead (base : Nat) (segs : List (Nat × List Byte × Bool)) : Nat → Nat → Nat
  | 0, at' => at'
  | fuel + 1, at' =>
    match segs.find? (fun g => g.1 = base + at' && g.2.1 ≠ []) with
    | some g => streamHead base segs fuel (at' + g.2.1.length)
    | none => at'

/-- A stream's segments are delivered in offset order as far as they join, and leave the reassembly buffer; the request ends when STREAM_END has
come and nothing is missing (R459). -/
def State.streamDeliver (s : State) (q : Fin 4) (n : Nat) (r : FleetReq) : State :=
  let head := streamHead r.address r.segs r.segs.length 0
  let ready := r.segs.filter (fun g => decide (g.1 < r.address + head))
  let s := ready.foldl (fun (s : State) g => s.deliverLines n r g.1 g.2.1 (fun _ => g.2.2)) s
  let r' := { r with address := r.address + head, count := r.count - head, segs := r.segs.filter (fun g => decide (r.address + head ≤ g.1)) }
  let s := { s with onnak := { s.onnak with reqs := s.onnak.reqs.map (fun x => if x = r then r' else x) } }
  let s := s.modMem (fun m => { m with outstanding := m.outstanding.map (fun o =>
    if o.pa = fleetAddr n r.address ∧ o.req.tag.quay = r.req.quay ∧ o.req.tag.frame = r.req.frame ∧ o.req.tag.stage = r.req.stage then
      { o with pa := fleetAddr n r'.address } else o) })
  if r'.ended ∧ r'.count = 0 then s.answerStatus q n r' St.OK else s

/-- The segments of a STREAM_DATA that are new are held (R459). -/
def State.streamHeld (s : State) (n : Nat) (h : OHdr) (b : List Byte) (q : Fin 4) (r : FleetReq) : State :=
  let bad := s.poisonedLines n h
  let segs := (List.range (ceilDiv b.length 64)).map (fun k => (h.address + 64 * k, slice b (64 * k) (min 64 (b.length - 64 * k)), bad k))
  let fresh := segs.filter (fun g => decide (r.address ≤ g.1 ∧ g.1 < r.address + r.count) && !r.segs.any (fun e => e.1 = g.1))
  let r' := { r with segs := r.segs ++ fresh }
  let s := { s with onnak := { s.onnak with reqs := s.onnak.reqs.map (fun x => if x = r then r' else x) } }
  s.streamDeliver q n r'

/-- STREAM_DATA (R459): a segment is held until those before it have come. Its lines' marks are kept line by line. -/
def doStreamData (p : Nat) (frame : List Byte) (fcs : Bool) (s : State) : State :=
  s.receive Msg.STREAM_DATA p frame fcs (fun n h b s => s.answered n h [.stream] (fun q r s => s.streamHeld n h b q r))

/-- A STREAM_END ends the request with a bad status, or marks its end, to be reached once its segments have come (R456, R459). -/
def State.streamEnded (s : State) (h : OHdr) (q : Fin 4) (n : Nat) (r : FleetReq) : State :=
  let st : Status := BitVec.ofNat 8 h.status
  if st ≠ St.OK then s.answerStatus q n r st
  else
    let r' := { r with ended := true }
    let s := { s with onnak := { s.onnak with reqs := s.onnak.reqs.map (fun x => if x = r then r' else x) } }
    s.streamDeliver q n r'

/-- STREAM_END (R446, R456): the status of the whole stream. -/
def doStreamEnd (p : Nat) (frame : List Byte) (fcs : Bool) (s : State) : State :=
  s.receive Msg.STREAM_END p frame fcs (fun n h _ s => s.answered n h [.stream] (fun q r s => s.streamEnded h q n r))

/-- REQUEST_DEADLINE (R459): a request to peer n with an identifier has not been answered by its deadline. -/
def doRequestDeadline (n tag : Nat) (s : State) : State :=
  match s.onnak.reqs.find? (fun r => r.peer = n && r.tag = tag) with
  | some r => if s.time.now < r.deadline then s else (s.endRequest r St.TIMEOUT).settleAllDraining
  | none => s

/-- WRITE_PACK_TIMEOUT (R456): 64 cycles have passed since the first byte of the i-th partly filled WRITE. -/
def doWritePackTimeout (i : Nat) (s : State) : State :=
  match s.onnak.packs[i]? with
  | some w => if 64 ≤ s.cyclesSince 0 w.since then s.sendPack w else s
  | none => s

/-! Links (R442, R449, R464). -/

/-- Some fleet port that had exchanged HELLO is down (R464). -/
def State.portLost (s : State) : Bool := s.onnak.ports.any (fun x => x.helloed && !x.up)

/-- LINK_UP (R442, R447): an enabled port's link comes up, and HELLO goes on it. -/
def doLinkUp (p : Nat) (s : State) : State :=
  if 4 ≤ p ∨ (s.port p).up ∨ !flag (s.reg (Reg.ONNAK_PORT_CTRL p)) 0 then s
  else
    let s := { s with onnak := { s.onnak with ports := setAt s.onnak.ports p ⟨true, true, false⟩ } }
    let s := if !s.portLost && flag (s.reg Reg.PMC_SERVICE_ACTIVE) 4 then s.serviceEnd 4 else s
    if flag (s.reg Reg.ONNAK_CTRL) 0 then s.sendHello p else s

/-- A lane whose port has changed sends its unacknowledged frames again on the new one; those of a stream lane whose port is gone are sent on the
lowest port that is left, in its own sequence (R449). -/
def State.moveLanes (s : State) (n p : Nat) (before : List (Option Nat)) : State :=
  let s := [0, 1].foldl (fun (s : State) l =>
    if s.lanePort n l = before.getD l none then s else (s.resend n l).pump n l) s
  let t := (s.peer n).tx.getD (2 + p) LaneTx.idle
  match s.reachable n with
  | [] => s
  | p' :: _ =>
    let again := t.unacked.map (·.2.2) ++ t.waiting
    if again = [] then s
    else
      let first := match t.unacked.head? with | some u => u.1 | none => t.seq
      let s := s.modPeer n (fun x => { x with
        tx := modAt (modAt x.tx (2 + p) (fun t => { t with unacked := [], waiting := [], seq := first })) (2 + p')
          (fun t => { t with waiting := again ++ t.waiting }) })
      s.pump n (2 + p')

/-- LINK_DOWN (R449, R464): a port goes down, its lanes move, and service is requested where it had exchanged HELLO. -/
def doLinkDown (p : Nat) (s : State) : State :=
  if 4 ≤ p ∨ !(s.port p).up then s
  else
    let before := (List.range 8).map (fun n => [s.lanePort n 0, s.lanePort n 1])
    let had := (s.port p).helloed
    let s := { s with onnak := { s.onnak with
      ports := modAt s.onnak.ports p (fun x => { x with up := false, fecLocked := false })
      peers := s.onnak.peers.map (fun (x : Peer) => { x with heard := x.heard.filter (fun e => decide (e ≠ p)) }) } }
    let s := (s.bump (Reg.ONNAK_PORT_DOWN_COUNT p)).setEvent Reg.ONNAK_EVENT 2
    let s := if had then s.service 4 else s
    (List.range 8).foldl (fun (s : State) n => if (s.peer n).st = .up then s.moveLanes n p (before.getD n []) else s) s

/-- OTHER_ETHERTYPE_FRAME (R442, R443): a frame that is neither Onnak nor 802.1AS is dropped on a fleet port and counted; on ETH_MGMT (port 4) an Onnak
frame is. -/
def doOtherEthertypeFrame (p : Nat) (frame : List Byte) (s : State) : State :=
  let et := (etherBody frame).1
  if p = 4 then (if s.eth.up ∧ et = 0x88B5 then s.bump Reg.ETH_MGMT_DROP_COUNT else s)
  else if 4 < p ∨ !(s.port p).up ∨ et = 0x88B5 ∨ et = 0x88F7 then s
  else s.bump (Reg.ONNAK_PORT_OTHER_COUNT p)

/-- HELLO. -/
def execHello (p : Fin 4) (frame : List Byte) (fcs : Bool) (s : State) : Res := act (doHello p frame fcs) s
/-- HELLO_TIMER. -/
def execHelloTimer (s : State) : Res := act (doHelloTimer) s
/-- ACK. -/
def execAck (p : Fin 4) (frame : List Byte) (fcs : Bool) (s : State) : Res := act (doAck p frame fcs) s
/-- ACK_TIMER. -/
def execAckTimer (n : Fin 8) (s : State) : Res := act (doAckTimer n) s
/-- KEEPALIVE_ACK. -/
def execKeepaliveAck (n : Fin 8) (s : State) : Res := act (doKeepaliveAck n) s
/-- RTO_EXPIRY. -/
def execRtoExpiry (n : Fin 8) (lane : Fin 6) (s : State) : Res := act (doRtoExpiry n lane) s
/-- PEER_TIMEOUT. -/
def execPeerTimeout (n : Fin 8) (s : State) : Res := act (doPeerTimeout n) s
/-- BIND. -/
def execBind (p : Fin 4) (frame : List Byte) (fcs : Bool) (s : State) : Res := act (doBind p frame fcs) s
/-- BIND_ACK. -/
def execBindAck (p : Fin 4) (frame : List Byte) (fcs : Bool) (s : State) : Res := act (doBindAck p frame fcs) s
/-- BIND_RETRY. -/
def execBindRetry (q : Fin 4) (n : Fin 8) (s : State) : Res := act (doBindRetry q n) s
/-- READ. -/
def execRead (p : Fin 4) (frame : List Byte) (fcs : Bool) (s : State) : Res := act (doRead p frame fcs) s
/-- READ_RESP. -/
def execReadResp (p : Fin 4) (frame : List Byte) (fcs : Bool) (s : State) : Res := act (doReadResp p frame fcs) s
/-- WRITE. -/
def execWrite (p : Fin 4) (frame : List Byte) (fcs : Bool) (s : State) : Res := act (doWrite p frame fcs) s
/-- WRITE_ACK. -/
def execWriteAck (p : Fin 4) (frame : List Byte) (fcs : Bool) (s : State) : Res := act (doWriteAck p frame fcs) s
/-- SIGNAL. -/
def execSignal (p : Fin 4) (frame : List Byte) (fcs : Bool) (s : State) : Res := act (doSignal p frame fcs) s
/-- SIGNAL_ACK. -/
def execSignalAck (p : Fin 4) (frame : List Byte) (fcs : Bool) (s : State) : Res := act (doSignalAck p frame fcs) s
/-- STREAM. -/
def execStream (p : Fin 4) (frame : List Byte) (fcs : Bool) (s : State) : Res := act (doStream p frame fcs) s
/-- STREAM_DATA. -/
def execStreamData (p : Fin 4) (frame : List Byte) (fcs : Bool) (s : State) : Res := act (doStreamData p frame fcs) s
/-- STREAM_END. -/
def execStreamEnd (p : Fin 4) (frame : List Byte) (fcs : Bool) (s : State) : Res := act (doStreamEnd p frame fcs) s
/-- REQUEST_DEADLINE. -/
def execRequestDeadline (n : Fin 8) (tag : Nat) (s : State) : Res := act (doRequestDeadline n tag) s
/-- WRITE_PACK_TIMEOUT. -/
def execWritePackTimeout (idx : Nat) (s : State) : Res := act (doWritePackTimeout idx) s
/-- LINK_UP. -/
def execLinkUp (p : Fin 4) (s : State) : Res := act (doLinkUp p) s
/-- LINK_DOWN. -/
def execLinkDown (p : Fin 4) (s : State) : Res := act (doLinkDown p) s
/-- OTHER_ETHERTYPE_FRAME. -/
def execOtherEthertypeFrame (p : Fin 5) (frame : List Byte) (s : State) : Res := act (doOtherEthertypeFrame p frame) s

end Sys2Proof.Machine
end

