-- ==== Sys2Proof/Machine/Eth.lean ====
section
/-! DEFINITION. ETH_MGMT (R443, R469, R525, R539): its application rings, its 802.1Qbv gate control list, and the safety messages that wait for
class 7 (R493, R494). -/
namespace Sys2Proof.Machine

/-! Gates (R469). -/

/-- A list's next entry after the present one: the list restarts at every cycle, its last entry lasting to the cycle's end (R469). -/
def EthState.advance (e : EthState) (g : Gcl) : EthState :=
  let last := g.entries.length - 1
  let ends := fun (base at' i : Nat) => if i = last then base + g.cycle else min (base + g.cycle) (at' + (g.entries.getD i (0, 0)).2)
  if e.entry < last ∧ e.entryEnds < g.base + g.cycle then
    { e with entry := e.entry + 1, entryEnds := ends g.base e.entryEnds (e.entry + 1) }
  else
    let base := g.base + g.cycle
    { e with active := some { g with base := base }, entry := 0, entryEnds := ends base base 0 }

/-- GCL_COMMIT (R443, R469): Coastguard software commits the list its registers hold; it takes effect at the first cycle start at or after its
base time. -/
def doGclCommit (ini : Initiator) (val : Word) (s : State) : State :=
  if ini ≠ .cg then s.ignoredWrite Reg.ETH_MGMT_GCL_COMMIT
  else if !flag val 0 then s
  else
    let base := s.reg64 Reg.ETH_MGMT_GCL_BASE_LO
    let cycle := (s.reg Reg.ETH_MGMT_GCL_CYCLE).toNat
    let len := fld (s.reg Reg.ETH_MGMT_GCL_LEN) 6 0
    if cycle < 1000 ∨ 200000000 < cycle ∨ len = 0 ∨ 64 < len then s.ignoredWrite Reg.ETH_MGMT_GCL_COMMIT
    else
      let start := if s.time.now ≤ base then base else base + ceilDiv (s.time.now - base) cycle * cycle
      let entries := (List.range len).map (fun k => let w := s.reg (Reg.ETH_MGMT_GCL k); (fld w 7 0, fld w 31 8 * 8))
      { s with eth := { s.eth with pending := some ⟨start, cycle, entries⟩ } }

/-- GCL_TAKE_EFFECT (R469). -/
def doGclTakeEffect (s : State) : State :=
  match s.eth.pending with
  | none => s
  | some g =>
    if s.time.now < g.base then s
    else
      let first := (g.entries.getD 0 (0, 0)).2
      let ends := if g.entries.length = 1 then g.base + g.cycle else g.base + min first g.cycle
      { s with eth := { s.eth with pending := none, active := some g, entry := 0, entryEnds := ends } : State }.drainClass7

/-- GCL_ENTRY_EXPIRY (R469): the next entry's gates take effect. -/
def doGclEntryExpiry (s : State) : State :=
  match s.eth.active with
  | none => s
  | some g =>
    if s.time.now < s.eth.entryEnds then s
    else ({ s with eth := s.eth.advance g } : State).drainClass7

/-! Application rings (R525, R539). -/

/-- log2 of a ring's descriptors, none when it is disabled. -/
def State.ethRing (s : State) (hi : Nat) : Option Nat :=
  let k := s.ringK hi
  if 4 ≤ k ∧ k ≤ 12 then some k else none

/-- Device address of descriptor i of a ring. -/
def State.ethDesc (s : State) (lo i : Nat) : Nat := s.ringBase lo + 32 * i

/-- Write a descriptor's status and time. -/
def State.ethStatus (s : State) (a : Nat) (st : Status) (time : Nat) : State :=
  (s.store (a + 0x0B) [st]).store (a + 0x10) (natLE 8 time)

/-- ETH_MGMT_RX_FRAME (R443, R525): a frame without its FCS. -/
def doEthMgmtRxFrame (frame : List Byte) (fcs : Bool) (s : State) : State :=
  if !s.eth.up || !fcs then s
  else
    let et := (etherBody frame).1
    if et = 0x88B5 then s.bump Reg.ETH_MGMT_DROP_COUNT
    else if et = 0x88F7 then s
    else match s.ethRing Reg.ETH_MGMT_RX_BASE_HI with
      | none => s.bump Reg.ETH_MGMT_RX_DROP_COUNT
      | some k =>
        let p := fld (s.reg Reg.ETH_MGMT_RX_PRODUCER) 11 0
        let c := fld (s.reg Reg.ETH_MGMT_RX_CONSUMER) 11 0
        if ringFull (2 ^ k) p c ∨ fld (s.reg Reg.ETH_MGMT_RX_BUF_SIZE) 13 0 < frame.length then s.bump Reg.ETH_MGMT_RX_DROP_COUNT
        else
          let a := s.ethDesc Reg.ETH_MGMT_RX_BASE_LO p
          let buf := s.natAt a 6
          let cls := if leNat (slice frame 12 2).reverse = 0x8100 then (leNat (slice frame 14 2).reverse) / 8192 else 0
          let s := (s.devWrite .app buf frame).1
          let s := (s.store (a + 8) (natLE 2 frame.length ++ natLE 1 cls)).ethStatus a St.OK s.time.now
          (s.put Reg.ETH_MGMT_RX_PRODUCER ((p + 1) % 2 ^ k)).raiseMsi 80

/-- The transmit ring's head descriptor: its device address, buffer, length and class. -/
def State.txHead (s : State) : Option (Nat × Nat × Nat × Nat) :=
  match s.ethRing Reg.ETH_MGMT_TX_BASE_HI with
  | none => none
  | some k =>
    let p := fld (s.reg Reg.ETH_MGMT_TX_PRODUCER) 11 0 % 2 ^ k
    let c := fld (s.reg Reg.ETH_MGMT_TX_CONSUMER) 11 0 % 2 ^ k
    if p = c then none
    else
      let a := s.ethDesc Reg.ETH_MGMT_TX_BASE_LO c
      some (a, s.natAt a 6, s.natAt (a + 8) 2, s.natAt (a + 0x0A) 1)

/-- The transmit ring's consumer index advances (R518, R525). -/
def State.txAdvance (s : State) : State :=
  match s.ethRing Reg.ETH_MGMT_TX_BASE_HI with
  | none => s
  | some k => (s.put Reg.ETH_MGMT_TX_CONSUMER ((fld (s.reg Reg.ETH_MGMT_TX_CONSUMER) 11 0 + 1) % 2 ^ k)).raiseMsi 81

/-- Descriptors at the head that may not be sent are written back with REFUSED (R525). -/
def State.txRefuse (s : State) : Nat → State
  | 0 => s
  | fuel + 1 =>
    match s.txHead with
    | none => s
    | some (a, _, len, cls) =>
      if 7 ≤ cls ∨ len < 60 ∨ 9216 < len then State.txRefuse ((s.store (a + 0x0B) [St.REFUSED]).txAdvance) fuel
      else s

/-- ETH_MGMT_TX_DOORBELL (R525): the producer index advances. -/
def doEthMgmtTxDoorbell (val : Word) (s : State) : State := (s.put Reg.ETH_MGMT_TX_PRODUCER (fld val 11 0)).txRefuse 4096

/-- ETH_MGMT_TX_SENT (R525): the head descriptor's frame leaves, if its class's gate is open; its status and the harbour time of its start are written
back. -/
def doEthMgmtTxSent (s : State) : State :=
  match s.txHead with
  | none => s
  | some (a, buf, len, cls) =>
    if !s.eth.up ∨ !s.gateOpen cls ∨ 7 ≤ cls ∨ len < 60 ∨ 9216 < len then s
    else (((s.emit (.eth (s.devRead buf len).2.1)).ethStatus a St.OK s.time.now).txAdvance).txRefuse 4096

/-- GCL_COMMIT. -/
def execGclCommit (ini : Initiator) (val : Word) (s : State) : Res := act (doGclCommit ini val) s
/-- GCL_TAKE_EFFECT. -/
def execGclTakeEffect (s : State) : Res := act doGclTakeEffect s
/-- GCL_ENTRY_EXPIRY. -/
def execGclEntryExpiry (s : State) : Res := act doGclEntryExpiry s
/-- ETH_MGMT_RX_FRAME. -/
def execEthMgmtRxFrame (frame : List Byte) (fcs : Bool) (s : State) : Res := act (doEthMgmtRxFrame frame fcs) s
/-- ETH_MGMT_TX_DOORBELL. -/
def execEthMgmtTxDoorbell (val : Word) (s : State) : Res := act (doEthMgmtTxDoorbell val) s
/-- ETH_MGMT_TX_SENT. -/
def execEthMgmtTxSent (s : State) : Res := act doEthMgmtTxSent s

end Sys2Proof.Machine
end

