-- ==== Sys2Proof/Machine/Vision.lean ====
section
/-! DEFINITION. The vision engines' jobs as they run (R194-R197, R203, R211-R215, R219-R222, R233, R239, R240, R243, R244, R246, R252,
R257-R263, R267): start and descriptor check, warp bands, and the work of a job at its completion. -/
namespace Sys2Proof.Machine

/-! Inputs. -/

/-- A job's input: its handle, frame slot, the frame whose slot that is, and the tag its reads carry. -/
structure JobIn where
  h : Nat
  slot : Nat
  frame : FrameNo
  tag : ReqTag
  deriving DecidableEq, Repr

/-- Input k of STAGES entry i of frame f: FLOW's in[1] is the previous frame's (R100, R240). -/
def State.jobIn (s : State) (q : Fin 4) (f : FrameRec) (i k : Nat) : JobIn :=
  let x := s.quays[q]
  let t := s.tagFor q f i
  let h := (x.stageE i).ins.getD k 0xFFFF
  if (x.engineE i).cls = Cls.FLOW ∧ k = 1 then ⟨h, (t.slot + x.fif - 1) % x.fif, f.num - 1#32, t⟩ else ⟨h, t.slot, f.num, t⟩

/-- The stages of frame n that write a handle have completed (R196). -/
def Quay.producersDone (x : Quay) (n : FrameNo) (i h : Nat) : Bool :=
  match x.frame? n with
  | none => true
  | some f => f.stages.all (fun r => decide (r.idx = i) || !(x.stageE r.idx).outs.elem h || r.status.isSome)

/-- Bytes [off, off + n) of an input may be read (R196). -/
def State.inReady (s : State) (q : Fin 4) (i : Nat) (j : JobIn) (off n : Nat) : Bool :=
  let x := s.quays[q]
  match x.handle? j.h with
  | some e => if e.kind = 1 then x.producersDone j.frame i j.h else s.slotReady j.tag j.h j.slot j.frame off n
  | none => true

/-- The bytes of an input; once a translation faults, every later byte carries the mark (R416). -/
def State.inBytes (s : State) (q : Fin 4) (j : JobIn) (off n : Nat) : SrcBytes :=
  let src := s.srcOf j.tag j.h j.slot
  let bad := (pageStarts off n).find? (fun o => match s.locate q j.h j.slot o false with | .fault _ _ => true | _ => false)
  match bad with
  | some b => fun o => if b ≤ o ∧ o < off + n then (0#8, true) else src o
  | none => src

/-- Data bytes of an input that a descriptor spans: slot offset and length. -/
def State.inSpan (s : State) (q : Fin 4) (j : JobIn) (d : Desc) : Nat × Nat :=
  let (a, n) := d.byteSpan
  (((s.dataOff q j.h j.slot d : Int) + (a - (d.base : Int))).toNat, n)

/-- Every byte a descriptor spans may be read. -/
def State.descReady (s : State) (q : Fin 4) (i : Nat) (j : JobIn) (d : Desc) : Bool :=
  let (o, n) := s.inSpan q j d
  s.inReady q i j o n

/-- The image a descriptor names, with the statuses its reads meet. -/
def State.inImage (s : State) (q : Fin 4) (j : JobIn) (d : Desc) : State × Img × List Status :=
  let (o, n) := s.inSpan q j d
  let (s, st) := s.readSlot j.tag j.h j.slot o n (s.slotAddr q j.h j.slot)
  (s, Img.ofDesc d (s.dataOff q j.h j.slot d) (s.inBytes q j o n), st)

/-! Starting a job (R194, R195). -/

/-- A descriptor a job reads: input index, head offset, and what it must name: channels, width, height, format, layout. -/
structure Want where
  input : Nat
  off : Nat
  ch : Nat
  w : Nat
  h : Nat
  fmt : Nat
  layout : Nat
  deriving DecidableEq, Repr

/-- What a job's record says of its inputs (R195, R221, R240, R246). -/
def jobWants (cls : Nat) (b : List Byte) : List Want :=
  match cls with
  | 3 => let j : PyrJob := ⟨b⟩; [⟨0, 0, j.ch, j.inW, j.inH, j.fmt, j.layout⟩]
  | 4 => let j : WarpJob := ⟨b⟩; [⟨0, 0, j.ch, j.inW, j.inH, j.fmt, j.layout⟩]
  | 5 => let j : StereoJob := ⟨b⟩; [⟨0, 0, 1, j.w, j.h, j.fmt, j.layout⟩, ⟨1, 0, 1, j.w, j.h, j.fmt, j.layout⟩]
  | 6 =>
    let j : FlowJob := ⟨b⟩
    [0, 1].flatMap (fun k => (List.range j.levels).map (fun l => (⟨k, 128 * l, 1, levelSize j.w l, levelSize j.h l, j.fmt, j.layout⟩ : Want)))
  | 7 => let j : FeatJob := ⟨b⟩; [⟨0, 128 * j.level, 1, j.w, j.h, j.fmt, j.layout⟩]
  | _ => []

/-- The stage whose job an instance takes next: dispatched, not held, the earliest dispatched, in frame and STAGES order among equals. -/
def State.nextJob (s : State) (q : Fin 4) (cls inst : Nat) : Option (FrameRec × StageRun) :=
  let x := s.quays[q]
  let all := x.frames.flatMap (fun f => (f.stages.filter (fun r =>
    r.running && !r.draining && decide ((x.engineE r.idx).cls = cls) && decide ((x.engineE r.idx).inst = inst))).map (fun r => (f, r)))
  bestBy (fun a b => decide (a.2.startedAt < b.2.startedAt)) all

/-- Keep the prediction a FEAT job latched, none for one that it runs without. -/
def LedgerState.latch (l : LedgerState) (inst m : Nat) (p : Option Pred) : LedgerState :=
  { l with latched := l.latched.filter (fun e => e.1 ≠ inst) ++ [(inst, m, p)] }

/-- A FEAT job starts: its prediction is latched and its frame's tag is live (R257, R263). -/
def State.featStart (s : State) (q : Fin 4) (inst : Nat) (n : FrameNo) (b : List Byte) : State :=
  let j : FeatJob := ⟨b⟩
  if !j.assoc then s
  else
    let mine := fun (p : Pred) => decide (p.quay = q.val) && decide (p.ctx = j.ctx)
    let p := s.ledger.preds.find? (fun p => mine p && decide (p.target = n.toNat))
    let left := s.ledger.preds.filter (fun p => !(mine p && frameAtOrBefore (BitVec.ofNat 32 p.target) n))
    let s : State := { s with ledger := (({ s.ledger with preds := left } : LedgerState).latch inst n.toNat p).begin j n.toNat }
    if p.isSome then s else (s.bump (Reg.FEAT_UNPREDICTED_COUNT inst)).setEvent (Reg.FEAT_EVENT inst) 0x10

/-- The head berths of a job's inputs are full (R194). -/
def State.headsReady (s : State) (q : Fin 4) (cls : Nat) (f : FrameRec) (r : StageRun) (b : List Byte) : Bool :=
  (jobWants cls b).all (fun w => s.inReady q r.idx (s.jobIn q f r.idx w.input) w.off 128)

/-- The head descriptors of a job's inputs are read and judged: the job ends with STALE_TIDE or SHAPE, or starts (R194-R196). -/
def State.judgeHeads (s : State) (q : Fin 4) (cls inst : Nat) (f : FrameRec) (r : StageRun) (b : List Byte) : State :=
  let x := s.quays[q]
  let ws := jobWants cls b
  let ins := ws.map (fun w => (w, s.jobIn q f r.idx w.input))
  let s := if cls = Cls.FEAT then s.featStart q inst f.num b else s
  let (s, st) := ins.foldl (fun (a : State × List Status) e =>
    let (s, st) := a.1.readSlot e.2.tag e.2.h e.2.slot e.1.off 128
    (s, a.2 ++ st)) (s, [])
  let ds := ins.map (fun e => descAt (s.srcOf e.2.tag e.2.h e.2.slot) e.1.off)
  let st := if ds.any (·.2) then st ++ [St.POISON] else st
  let stale := ds.any (fun d => decide (d.1.quay ≠ q.val) || decide (d.1.tide ≠ x.tide))
  let shape := (ws.zip ds).any (fun e => !e.2.1.matchesImage e.1.ch e.1.w e.1.h e.1.fmt e.1.layout)
  if stale then s.completeStage q f.num r.idx [St.STALE_TIDE]
  else if shape then s.completeStage q f.num r.idx (st ++ [0x80#8])
  else { s with vis := s.vis ++ [{
    cls := cls, inst := inst, quay := q.val, frame := f.num, idx := r.idx, descs := ds.map (·.1)
    startedAt := s.time.now, band := 0, statuses := st }] }

/-- HEAD_DESCRIPTOR_CHECK (R194-R196, R239): the next job of an instance starts once its head berths are full, or ends with SHAPE or
STALE_TIDE. -/
def doHeadDescriptorCheck (cls inst : Nat) (s : State) : State :=
  match s.ownerOf cls inst with
  | none => s
  | some q =>
    if cls < 3 ∨ 7 < cls ∨ (s.visRun? cls inst).isSome then s
    else match s.nextJob q cls inst with
      | none => s
      | some (f, r) =>
        match s.quays[q].jobOf r.idx with
        | none => s
        | some (_, b) =>
          if cls = Cls.FLOW ∧ r.gathered.elem 0x82#8 then ((s.flowNoHist q f.num r.idx).settlePiloted q).settleRemote q
          else if !s.headsReady q cls f r b then s
          else s.judgeHeads q cls inst f r b

/-! Outputs. -/

/-- Berth b of a slot holds only rows below `done` of an image of `planes` planes of `h` rows of `pitch` bytes (R176). -/
def rowsFull (pitch h planes done b : Nat) : Bool :=
  (List.range planes).all (fun c => (List.range (h - done)).all (fun i =>
    let lo := 4096 + (c * h + done + i) * pitch
    decide (lo + pitch ≤ 4096 * b ∨ 4096 * b + 4096 ≤ lo)))

/-- A stage's statuses gathered with what a job met. -/
def jobStatuses (bad : Bool) (xs : List Status) : List Status := if bad then xs ++ [St.POISON] else xs

/-- Update the job that runs on an instance. -/
def State.modVis (s : State) (cls inst : Nat) (f : VisRun → VisRun) : State :=
  { s with vis := s.vis.map (fun v => if v.cls = cls ∧ v.inst = inst then f v else v) }

/-! Warp bands. -/

/-- The mesh rows a band reads may be read (R207). -/
def State.meshReady (s : State) (q : Fin 4) (v : VisRun) (j : WarpJob) (m : JobIn) (rows : List Nat) : Bool :=
  match rows.head?, rows.getLast? with
  | some a, some b =>
    let lo := a / 2 ^ j.cellLog2
    let hi := b / 2 ^ j.cellLog2 + 2
    s.inReady q v.idx m (lo * j.gridW * 8) ((hi - lo) * j.gridW * 8)
  | _, _ => true

/-- The source rows that the pixels of a band touch may be read (R196). -/
def State.bandReady (s : State) (q : Fin 4) (v : VisRun) (j : WarpJob) (src : JobIn) (d : Desc) (px : List (List WarpPix)) : Bool :=
  let ys := dedup (px.flatMap (fun r => r.flatMap (fun p => p.taps.map (·.2))))
  let e := (fmtGroup j.fmt).2
  let off := s.dataOff q src.h src.slot d
  ys.all (fun y => (if j.layout = 0 then [0] else List.range j.ch).all (fun c =>
    s.inReady q v.idx src ((off : Int) + d.offset [c, 0, y]).toNat (if j.layout = 0 then j.inW * j.ch * e else j.inW * e)))

/-- The pixels of a band and what reading its source and mesh gave (R206-R212). -/
def State.bandPixels (s : State) (q : Fin 4) (v : VisRun) (j : WarpJob) (f : FrameRec) (d : Desc) : State × List Status × List (List WarpPix) :=
  let rows := j.bandRows v.band
  let src := s.jobIn q f v.idx 0
  let mesh := s.jobIn q f v.idx 1
  let meshLen := j.gridW * j.gridH * 8
  let (s1, img, st0) := s.inImage q src d
  let (s1, st1) := if j.mode = 1 then s1.readSlot mesh.tag mesh.h mesh.slot 0 meshLen else (s1, [])
  let mb := if j.mode = 1 then s1.inBytes q mesh 0 meshLen else fun _ => (0#8, false)
  let px := rows.map (fun y => (List.range j.outW).map (fun x => j.pixel img mb x y))
  (s1, st0 ++ st1, px)

/-- A band of a WARP job is written: its rows, the mask where there is one, the first band's descriptors, the berths it completes, and the
counts of what it fetched (R206-R213, R215, R220). -/
def State.warpBand (s : State) (q : Fin 4) (i : Nat) (v : VisRun) (j : WarpJob) (f : FrameRec) (d : Desc) : State :=
  let rows := j.bandRows v.band
  let (s1, st01, px) := s.bandPixels q v j f d
  let t := s.tagFor q f v.idx
  let e := (fmtGroup j.fmt).2
  let a0 := s1.outAddr t 0
  let a1 := s1.outAddr t 1
  let d0 := imageDesc q t.tide j.fmt 0 (a0 + 4096) j.outW j.outH j.ch e j.layout
  let d1 := imageDesc q t.tide 0x02 0 (a1 + 4096) j.outW j.outH 1 1 0
  let head := fun (d : Desc) => if v.band = 0 then [(⟨0, d.bytes, false⟩ : Chunk)] else []
  let done := 16 * (v.band + 1)
  let put := fun (s : State) (k : Nat) (cs : List Chunk) (pitch planes bytes : Nat) =>
    match (s.quays[q].stageE v.idx).outs[k]? with
    | none => (s, ([] : List Status))
    | some h =>
      let (s, st) := s.putSlot t h t.slot cs
      let last := ceilDiv bytes 4096
      (s.fullBerths t h t.slot (fun b =>
        if j.outH ≤ done then true else decide (b = 0) || (decide (b ≤ last) && rowsFull pitch j.outH planes done b)), st)
  let body := (rows.zip px).flatMap (fun r => j.rowOut r.1 r.2)
  let (s, st2) := put s1 0 (head d0 ++ body) (rowPitch j.outW j.ch e j.layout) (if j.layout = 0 then 1 else j.ch)
    (imageBytes j.outW j.outH j.ch e j.layout)
  let (s, st3) := if j.mask then
      put s 1 (head d1 ++ (rows.zip px).flatMap (fun r => j.maskOut r.1 r.2)) (rowPitch j.outW 1 1 0) 1 (imageBytes j.outW j.outH 1 1 0)
    else (s, [])
  let (fetched, s) := s.drawUpTo (j.maxFetch px)
  let (hits, s) := s.drawUpTo 0xFFFFFFFF
  let s := (s.bumpBy (Reg.WARP_TILE_FETCH_COUNT i) fetched).bumpBy (Reg.WARP_TILE_HIT_COUNT i) hits
  let s := s.bumpBy (Reg.WARP_OUTSIDE_COUNT i) (sumNat (px.map (fun r => (r.filter (fun p => !p.inRange)).length)))
  let s := if px.any (fun r => r.any (·.meshMarked)) then s.setEvent (Reg.WARP_EVENT i) 0x10 else s
  let bad := px.any (fun r => r.any (fun p => p.els.any (·.bad)))
  s.modVis Cls.WARP i (fun v => { v with
    band := v.band + 1, statuses := jobStatuses bad (v.statuses ++ st01 ++ st2 ++ st3) })

/-- WARP_BAND_COMPLETE (R206-R213, R215, R220): the next band of the job on WARP instance i, once its source rows can be read. -/
def doWarpBandComplete (i : Nat) (s : State) : State :=
  match s.visRun? Cls.WARP i with
  | none => s
  | some v =>
    match quayOf? v.quay with
    | none => s
    | some q =>
      match s.quays[q].jobOf v.idx, s.quays[q].frame? v.frame, v.descs.head? with
      | some (_, b), some f, some d =>
        let j : WarpJob := ⟨b⟩
        if v.band ≥ j.bands then s
        else if j.mode = 1 && !s.meshReady q v j (s.jobIn q f v.idx 1) (j.bandRows v.band) then s
        else if !s.bandReady q v j (s.jobIn q f v.idx 0) d (s.bandPixels q v j f d).2.2 then s
        else s.warpBand q i v j f d
      | _, _, _ => s

/-! The work of a job at its completion. -/

/-- A pyramid job (R198-R205). -/
def State.pyrDone (s : State) (q : Fin 4) (f : FrameRec) (v : VisRun) (j : PyrJob) (d : Desc) : State :=
  let (s, img, st0) := s.inImage q (s.jobIn q f v.idx 0) d
  let outs := j.outputs img
  let t := s.tagFor q f v.idx
  let cs := (enum outs).map (fun o => pyrSlot q t.tide (s.outAddr t o.1) j.layout o.2)
  let (s, st1) := s.writeOutputs t 0 cs
  s.completeStage q f.num v.idx (jobStatuses (outs.any (fun o => o.any Img.anyBad)) (v.statuses ++ st0 ++ st1))

/-- A stereo job (R226-R233, R243). -/
def State.stereoDone (s : State) (q : Fin 4) (f : FrameRec) (v : VisRun) (j : StereoJob) (dl dr : Desc) : State :=
  let (s, l, st0) := s.inImage q (s.jobIn q f v.idx 0) dl
  let (s, r, st1) := s.inImage q (s.jobIn q f v.idx 1) dr
  let rows := j.run l r
  let t := s.tagFor q f v.idx
  let d0 := imageDesc q t.tide 0x13 5 (s.outAddr t 0 + 4096) j.w j.h 1 2 0
  let d1 := imageDesc q t.tide 0x02 0 (s.outAddr t 1 + 4096) j.w j.h 1 1 0
  let (s, st2) := s.writeOutputs t 0 ([⟨0, d0.bytes, false⟩ :: valueChunks 1 j.w rows] ++
    (if j.confOut then [⟨0, d1.bytes, false⟩ :: confChunks j.w rows] else []))
  let s := ((s.bumpBy (Reg.STEREO_CONSISTENCY_COUNT v.inst) (countWhy rows .consistency)).bumpBy (Reg.STEREO_AMBIGUOUS_COUNT v.inst)
    (countWhy rows .ambiguous)).bumpBy (Reg.STEREO_BORDER_COUNT v.inst) (countWhy rows .border)
  s.completeStage q f.num v.idx (jobStatuses (rows.any (fun r => r.any (·.bad))) (v.statuses ++ st0 ++ st1 ++ st2))

/-- The level images of a flow job's two pyramids, coarsest first, down to out_level. -/
def State.flowImages (s : State) (q : Fin 4) (f : FrameRec) (v : VisRun) (j : FlowJob) : State × List (Img × Img) × List Status :=
  ((List.range (j.levels - j.outLevel)).map (fun k => j.levels - 1 - k)).foldl (fun (a : State × List (Img × Img) × List Status) l =>
    match v.descs[l]?, v.descs[j.levels + l]? with
    | some c, some p =>
      let (s, ic, st0) := a.1.inImage q (a.1.jobIn q f v.idx 0) c
      let (s, ip, st1) := s.inImage q (s.jobIn q f v.idx 1) p
      (s, a.2.1 ++ [(ic, ip)], a.2.2 ++ st0 ++ st1)
    | _, _ => a) (s, [], [])

/-- A flow job (R236-R240, R244). -/
def State.flowDone (s : State) (q : Fin 4) (f : FrameRec) (v : VisRun) (j : FlowJob) : State :=
  let (s, ls, st0) := s.flowImages q f v j
  let rows := j.run ls
  let w := levelSize j.w j.outLevel
  let h := levelSize j.h j.outLevel
  let t := s.tagFor q f v.idx
  let d0 := imageDesc q t.tide 0x13 5 (s.outAddr t 0 + 4096) w h 2 2 0
  let d1 := imageDesc q t.tide 0x02 0 (s.outAddr t 1 + 4096) w h 1 1 0
  let (s, st1) := s.writeOutputs t 0 ([⟨0, d0.bytes, false⟩ :: valueChunks 2 w rows] ++
    (if j.confOut then [⟨0, d1.bytes, false⟩ :: confChunks w rows] else []))
  let s := (s.bumpBy (Reg.FLOW_AMBIGUOUS_COUNT v.inst) (countWhy rows .ambiguous)).bumpBy (Reg.FLOW_BORDER_COUNT v.inst) (countWhy rows .border)
  s.completeStage q f.num v.idx (jobStatuses (rows.any (fun r => r.any (·.bad))) (v.statuses ++ st0 ++ st1))

/-- Births and retirements that folding committed reach their blocks' counters (R262, R268). -/
def State.countFolded (s : State) (xs : List (Nat × Nat × Nat)) : State :=
  xs.foldl (fun (s : State) e =>
    (s.bumpBy (Reg.LEDGER_BLOCK_BIRTH_COUNT e.1) e.2.1).bumpBy (Reg.LEDGER_BLOCK_RETIRE_COUNT e.1) e.2.2) s

/-- A feature job (R246-R263, R267): detection, association and births, and the list. -/
def State.featDone (s : State) (q : Fin 4) (f : FrameRec) (v : VisRun) (j : FeatJob) (d : Desc) : State :=
  let (s, img, st0) := s.inImage q (s.jobIn q f v.idx 0) d
  let (fs, cut, bad) := j.detect img
  let m := f.num.toNat
  let pred := ((s.ledger.latched.find? (fun e => e.1 = v.inst && e.2.1 = m)).bind (·.2.2))
  let a : Assoc := if j.assoc then j.associate s.ledger s.quays[q].fif m pred fs cut
    else { ledger := s.ledger, results := fs.map (fun _ => FeatRes.plain), head := ⟨0xFFFFFFFF, 0, 0, 0, 0, false, cut, 0⟩, folded := [] }
  let s := ({ s with ledger := a.ledger } : State).countFolded a.folded
  let s := if 0 < a.head.dropped then s.setEvent (Reg.FEAT_EVENT v.inst) 0x20 else s
  let t := s.tagFor q f v.idx
  let (s, st1) := s.writeOutputs t 0 [featSlot q t.tide (s.outAddr t 0) m a.head (fs.zip a.results) bad]
  let sts := jobStatuses bad (v.statuses ++ st0 ++ st1)
  let s := if worst sts ≠ St.OK then s
    else (s.bumpBy (Reg.FEAT_FEATURE_COUNT v.inst) fs.length).bumpBy (Reg.FEAT_MATCH_COUNT v.inst) a.head.matched
  s.completeStage q f.num v.idx sts

/-- The work of the vision job that runs stage i of frame n is done: its outputs are written and the stage completes; nothing happens
while its inputs cannot be read. -/
def State.visionDone (s : State) (q : Fin 4) (n : FrameNo) (i : Nat) : State :=
  match s.vis.find? (fun v => v.quay = q.val && v.frame = n && v.idx = i), s.quays[q].frame? n, s.quays[q].jobOf i with
  | some v, some f, some (_, b) =>
    let ws := jobWants v.cls b
    let ready := (ws.zip v.descs).all (fun e => s.descReady q i (s.jobIn q f i e.1.input) e.2)
    if v.cls = Cls.WARP then
      (if v.band < (⟨b⟩ : WarpJob).bands then s else s.completeStage q n i v.statuses)
    else if !ready then s
    else match v.cls, v.descs with
      | 3, d :: _ => s.pyrDone q f v ⟨b⟩ d
      | 5, d :: e :: _ => s.stereoDone q f v ⟨b⟩ d e
      | 6, _ => s.flowDone q f v ⟨b⟩
      | 7, d :: _ => s.featDone q f v ⟨b⟩ d
      | _, _ => s
  | _, _, _ => s

/-! Predictions and the Ledger window. -/

/-- A prediction record is well formed (R256). -/
def predOk (b : List Byte) : Bool :=
  (List.range 9).all (fun i => fp32Finite (leAt b (4 * i) 4)) && decide (8 ≤ leAt b 0x24 2) && decide (leNat (slice b 0x26 26) = 0)

/-- The target's job has started: a frame at or after it is being processed or has been by an associating job of the context (R256). -/
def State.targetStarted (s : State) (q : Fin 4) (c target : Nat) : Bool :=
  match s.quays[q].chart with
  | none => false
  | some ch => ch.allStages.any (fun i =>
    match s.quays[q].engineE i, s.quays[q].jobOf i with
    | e, some (_, b) =>
      decide (e.cls = Cls.FEAT) && (⟨b⟩ : FeatJob).assoc && decide ((⟨b⟩ : FeatJob).ctx = c) &&
        s.ledger.latched.any (fun l => decide (l.1 = e.inst) && frameAtOrBefore (BitVec.ofNat 32 target) (BitVec.ofNat 32 l.2.1))
    | _, none => false)

/-- Some associating job of the quay names context c. -/
def State.associates (s : State) (q : Fin 4) (c : Nat) : Bool :=
  match s.quays[q].chart with
  | none => false
  | some ch => ch.allStages.any (fun i =>
    decide ((s.quays[q].engineE i).cls = Cls.FEAT) &&
      (match s.quays[q].jobOf i with | some (_, b) => (⟨b⟩ : FeatJob).assoc && decide ((⟨b⟩ : FeatJob).ctx = c) | none => false))

/-- PREDICTION_SUBMIT (R256): the prediction in quay q's submission registers, for a context. -/
def doPredictionSubmit (q : Fin 4) (c : Nat) (s : State) : State :=
  let st := s.quays[q].st
  let target := (s.reg (Reg.LEDGER_PRED_TARGET q)).toNat
  let rd := s.devRead (s.addr48 (Reg.LEDGER_PRED_RECORD_LO q)) 64
  let failed := decide (rd.1 ≠ St.OK)
  let mine := s.ledger.preds.filter (fun p => p.quay = q.val && p.ctx = c)
  let notLater := mine.any (fun p => frameAtOrBefore (BitVec.ofNat 32 target) (BitVec.ofNat 32 p.target))
  let answer := fun (s : State) (status : Status) =>
    let queued := (s.ledger.preds.filter (fun p => p.quay = q.val && p.ctx = c)).length
    (s.put (Reg.LEDGER_PRED_STATUS q) (status.toNat + 256 * queued)).answer status
  if st = .empty ∨ st = .faulted ∨ st = .resetting then answer (s.bump (Reg.LEDGER_PRED_BAD_STATE_COUNT q)) St.BAD_STATE
  else
    let bad := worst ((if !s.associates q c || notLater || s.targetStarted q c target || (!failed && !predOk rd.2.1) then [St.REFUSED] else []) ++
      (if failed then [St.FAULT] else []) ++ (if mine.length ≥ 4 then [St.BUSY] else []))
    if bad ≠ St.OK then answer s bad
    else
      let p : Pred := ⟨c, q.val, target, (List.range 9).map (fun i => leAt rd.2.1 (4 * i) 4), leAt rd.2.1 0x24 2⟩
      answer { s with ledger := { s.ledger with preds := s.ledger.preds ++ [p] } } St.OK

/-- LEDGER_WINDOW_READ (R254, R407): the context is settled, then its bytes are returned. -/
def doLedgerWindowRead (a n : Nat) (s : State) : State :=
  let t := (a - Addr.ledger) / 64
  let b := blockOfTrack t
  if (s.ownerOf Cls.LEDGER b).isNone then s.answer St.OK 0 (List.replicate n 0#8)
  else
    let (l, births, retires) := s.ledger.touch t
    let s := ({ s with ledger := l } : State).countFolded [(b, births, retires)]
    let bs := slice (l.track t).bytes ((a - Addr.ledger) % 64) n
    s.answer St.OK (leNat bs) bs

/-- LEDGER_WINDOW_WRITE (R254). -/
def doLedgerWindowWrite (s : State) : State := (s.bump Reg.LEDGER_WRITE_DROP_COUNT).answer St.FENCED

/-- LEDGER_SWEEP_DONE (R264): the sweep of a quay's blocks on a base die ends; the clear of a quay reset is RESET_QUIESCENT's. -/
def doLedgerSweepDone (die : Nat) (q : Fin 4) (s : State) : State :=
  if !s.ledger.sweeps.elem (die, q.val) then s
  else
    let bs := s.quays[q].ledgerBlocks.filter (fun b => b / 8 = die)
    let s := bs.foldl (fun (s : State) b =>
      let (l, births, retires) := s.ledger.sweepBlock b
      ({ s with ledger := l } : State).countFolded [(b, births, retires)]) s
    { s with ledger := { s.ledger with sweeps := s.ledger.sweeps.filter (fun e => e ≠ (die, q.val)) } }

/-! The meanings. -/

/-- HEAD_DESCRIPTOR_CHECK. -/
def execHeadDescriptorCheck (cls inst : Nat) (s : State) : Res := act (doHeadDescriptorCheck cls inst) s
/-- WARP_BAND_COMPLETE. -/
def execWarpBandComplete (inst : Fin 2) (s : State) : Res := act (doWarpBandComplete inst) s
/-- PREDICTION_SUBMIT. -/
def execPredictionSubmit (q : Fin 4) (c : Nat) (s : State) : Res := act (doPredictionSubmit q c) s
/-- LEDGER_WINDOW_READ. -/
def execLedgerWindowRead (a n : Nat) (s : State) : Res := act (doLedgerWindowRead a n) s
/-- LEDGER_WINDOW_WRITE. -/
def execLedgerWindowWrite (a : Nat) (bs : List Byte) (s : State) : Res := act (fun s => let _ := (a, bs); doLedgerWindowWrite s) s
/-- LEDGER_SWEEP_DONE. -/
def execLedgerSweepDone (die : Fin 2) (q : Fin 4) (s : State) : Res := act (doLedgerSweepDone die q) s

end Sys2Proof.Machine
end

