-- ==== Sys2Proof/Machine/SndJobs.lean ====
section
/-! DEFINITION. Soundings' commands: pose submission (R274), integration once the producers are done (R276-R284), and the output of a
job that completes (R285). -/
namespace Sys2Proof.Machine

/-- POSE_SUBMIT (R274, R301): the pose in the submission registers, for a job. -/
def doPoseSubmit (k : Nat) (s : State) : State :=
  let target := (s.reg Reg.SND_POSE_TARGET).toNat
  let answer := fun (s : State) (status : Status) =>
    let queued := (s.snd.poses.filter (fun p => p.job = k)).length
    (s.put Reg.SND_POSE_STATUS (status.toNat + 256 * queued)).answer status
  let badState := answer (s.bump Reg.SND_POSE_BAD_STATE_COUNT) St.BAD_STATE
  match s.ownerOf Cls.SND 0 with
  | none => badState
  | some q =>
    if s.quays[q].st = .faulted ∨ s.quays[q].st = .resetting then badState
    else
      let rd := s.devRead (s.addr48 Reg.SND_POSE_RECORD_LO) 64
      let failed := decide (rd.1 ≠ St.OK)
      let count := (s.quays[q].sndMap.map (·.count)).getD 0
      let mine := s.snd.poses.filter (fun p => p.job = k)
      let notLater := mine.any (fun p => frameAtOrBefore (BitVec.ofNat 32 target) (BitVec.ofNat 32 p.target))
      let started := s.snd.latched.any (fun l => decide (l.1 = k) && frameAtOrBefore (BitVec.ofNat 32 target) (BitVec.ofNat 32 l.2.1))
      let bad := worst ((if decide (count ≤ k) || notLater || started || (!failed && !poseOk rd.2.1) then [St.REFUSED] else []) ++
        (if failed then [St.FAULT] else []) ++ (if mine.length ≥ 4 then [St.BUSY] else []))
      if bad ≠ St.OK then answer s bad
      else answer { s with snd := { s.snd with poses := s.snd.poses ++ [poseOf k target rd.2.1] } } St.OK

/-- The inputs of an SND job and what they must be (R195, R270, R288). -/
def SndJob.wants (j : SndJob) : List Want :=
  ⟨0, 0, 1, j.w, j.h, j.fmt, j.layout⟩ :: (if j.confIn then [⟨1, 0, 1, j.w, j.h, 0x02, j.layout⟩] else [])

/-- The floor height a job compares with, in metres (R284). -/
def State.floorZ (s : State) (m : SndMap) : Nat :=
  match m.floorTrack, s.snd.fitC with
  | true, some c => c
  | _, _ => f32Div (f32OfInt m.floorZ0) (f32OfInt 1000)

/-- A job that integrates (R277-R284): the map and the export ring are written, the counters and the sums move on. -/
def State.integrate (s : State) (q : Fin 4) (v : VisRun) (t : ReqTag) (m : SndMap) (j : SndJob) (pose : Pose) (dep conf : Img)
    (st0 : List Status) : State :=
  let n := v.frame.toNat
  let ring := if m.exportHandle = 0xFFFF then 0
    else match s.quays[q].handle? m.exportHandle with | some h => h.length * 4096 / 1088 | none => 0
  let producer := (s.reg Reg.SND_EXPORT_PRODUCER).toNat
  let consumer := (s.reg Reg.SND_EXPORT_CONSUMER).toNat
  let src := s.srcOf t m.mapHandle 0
  let d := j.run m pose dep conf n (s.floorZ m) ring producer consumer s.snd.cursor src
  let (s, st1) := s.putSlot t m.mapHandle 0 (runsOf d.view.writes)
  let (s, st2) := if ring = 0 then (s, [])
    else s.putSlot t m.exportHandle 0 (d.evict.records.map (fun r => ⟨1088 * r.1, r.2, false⟩))
  let s := (((s.put Reg.SND_EXPORT_PRODUCER d.evict.producer).bumpBy Reg.SND_EXPORT_DROP_COUNT d.evict.exportDrops).bumpBy
    Reg.SND_ALLOC_DROP_COUNT d.view.allocDrop).bumpBy Reg.SND_EVICT_COUNT d.evict.evicted
  let s := (s.bumpBy Reg.SND_CORRUPT_COUNT d.view.corrupt).put Reg.SND_BLOCKS_LIVE (d.view.live % 2 ^ 23)
  let s := s.setEvent Reg.SND_EVENT (bitAt (decide (0 < d.view.allocDrop)) 0 + bitAt (decide (0 < d.view.corrupt)) 1 +
    bitAt (decide (0 < d.evict.exportDrops)) 4)
  let sums := d.floor.foldl FloorSums.add (if s.snd.sumFrame = n then s.snd.sums else FloorSums.zero)
  let s : State := { s with snd := { s.snd with
    cursor := d.evict.cursor, sumFrame := n, sums := sums, done := some d.out } }
  let sts := jobStatuses (j.sawPoison m pose dep conf d.phase.touched) (st0 ++ st1 ++ st2)
  s.modVis Cls.SND 0 (fun u => { u with band := 1, statuses := u.statuses ++ sts })

/-- The producers of stage idx's inputs in a frame (R276). -/
def Quay.producersOf (x : Quay) (f : FrameRec) (idx : Nat) : List StageRun :=
  f.stages.filter (fun r => decide (r.idx ≠ idx) && (x.stageE r.idx).outs.any (fun h => (x.stageE idx).ins.elem h))

/-- The inputs a job record of Soundings names, each with where it is read (R276, R287). -/
def State.sndInputs (s : State) (q : Fin 4) (v : VisRun) (f : FrameRec) (j : SndJob) : List (Want × JobIn) :=
  j.wants.map (fun w => (w, s.jobIn q f v.idx w.input))

/-- A Soundings job whose producers have completed with OK and whose heads can be read: it ends with STALE_TIDE or SHAPE, waits for its
data, or integrates (R276-R280). -/
def State.sndIntegrate (s : State) (q : Fin 4) (v : VisRun) (f : FrameRec) (k : Nat) (j : SndJob) (m : SndMap) : State :=
  let x := s.quays[q]
  let ws := s.sndInputs q v f j
  let (s, st) := ws.foldl (fun (a : State × List Status) e =>
    let (s, st) := a.1.readSlot e.2.tag e.2.h e.2.slot e.1.off 128
    (s, a.2 ++ st)) (s, [])
  let ds := ws.map (fun e => descAt (s.srcOf e.2.tag e.2.h e.2.slot) e.1.off)
  let st := if ds.any (·.2) then st ++ [St.POISON] else st
  if ds.any (fun d => decide (d.1.quay ≠ q.val) || decide (d.1.tide ≠ x.tide)) then s.completeStage q f.num v.idx [St.STALE_TIDE]
  else if (ws.zip ds).any (fun e => !e.2.1.matchesImage e.1.1.ch e.1.1.w e.1.1.h e.1.1.fmt e.1.1.layout) then
    s.completeStage q f.num v.idx (st ++ [0x80#8])
  else if !(ws.zip ds).all (fun e => s.descReady q v.idx e.1.2 e.2.1) then s
  else
    match ws, ds, (s.snd.latched.find? (fun l => l.1 = k)).bind (·.2.2) with
    | w0 :: wr, d0 :: dr, some pose =>
      let (s, dep, st1) := s.inImage q w0.2 d0.1
      let (s, conf, st2) := match wr, dr with
        | w1 :: _, d1 :: _ => s.inImage q w1.2 d1.1
        | _, _ => (s, dep, [])
      s.integrate q v (s.tagFor q f v.idx) m j pose dep conf (st ++ st1 ++ st2)
    | _, _, _ => s

/-- SND_PRODUCERS_DONE (R276): the running job's same-frame producers have all completed; it integrates, or ends without writing when
one of them failed or an input is not what its job record says. -/
def doSndProducersDone (s : State) : State :=
  match s.ownerOf Cls.SND 0 with
  | none => s
  | some q =>
    let s := s.sndNext q
    match s.vis.find? (fun v => v.cls = Cls.SND) with
    | none => s
    | some v =>
      match s.quays[q].frame? v.frame, s.quays[q].jobOf v.idx, s.quays[q].sndMap with
      | some f, some (k, b), some m =>
        let producers := s.quays[q].producersOf f v.idx
        if v.band ≠ 0 || !producers.all (fun r => r.status.isSome) then s
        else if producers.any (fun r => r.status ≠ some St.OK) then s.completeStage q f.num v.idx [0x83#8]
        else if !(s.sndInputs q v f ⟨b⟩).all (fun e => s.inReady q v.idx e.2 e.1.off 128) then s
        else s.sndIntegrate q v f k ⟨b⟩ m
      | _, _, _ => s

/-- An SND job that has integrated completes (R283-R285): its output slot is written; the frame's last job also fits the floor. -/
def State.sndDone (s : State) (q : Fin 4) (n : FrameNo) (i : Nat) : State :=
  match s.vis.find? (fun v => v.cls = Cls.SND && v.quay = q.val && v.frame = n && v.idx = i), s.quays[q].frame? n, s.snd.done,
    s.quays[q].sndMap with
  | some v, some f, some d, some m =>
    let x := s.quays[q]
    let last := f.stages.all (fun r => decide (r.idx = i) || decide ((x.engineE r.idx).cls ≠ Cls.SND) || r.status.isSome)
    let fit := if m.floorFit && last && decide (s.snd.sumFrame = n.toNat) then some (s.snd.sums.fit m.floorMin, s.snd.sums.n) else none
    let s : State := match fit with
      | some (g, _) => if g.valid then { s with snd := { s.snd with fitC := some g.cMetres } } else s
      | none => s
    let gen := ((s.reg Reg.SND_MAP_GEN) + 1#32).toNat
    let t := s.tagFor q f i
    let (s, st) := s.writeOutputs t 0 [d.slot q t.tide (s.outAddr t 0) n.toNat gen fit]
    s.completeStage q n i (v.statuses ++ st)
  | _, _, _, _ => s

/-- POSE_SUBMIT. -/
def execPoseSubmit (k : Nat) (s : State) : Res := act (doPoseSubmit k) s
/-- SND_PRODUCERS_DONE. -/
def execSndProducersDone (s : State) : Res := act doSndProducersDone s

end Sys2Proof.Machine
end

