-- ==== Sys2Proof/Machine/TensorOps.lean ====
section
/-! DEFINITION. How a tensor or layout command reaches its operands (R307-R311, R314, R345-R360): the command's context, operand
resolution, elements read and written, padding, bounds, aliasing and faults partway. -/
namespace Sys2Proof.Machine

/-- The command a running stage comes to next, with all it runs in. -/
structure CmdCtx where
  q : Fin 4
  cls : Nat
  inst : Nat
  run : ProgRun
  t : ReqTag
  prog : Prog
  e : ProgStage
  c : TCmd

/-- Running stages of an instance. -/
def State.progRuns (s : State) (cls inst : Nat) : List ProgRun := (if cls = Cls.ELV then s.prog.elv else s.prog.lay).getD inst []

/-- A stage's context at one of its commands. -/
def State.cmdAt (s : State) (cls inst : Nat) (r : ProgRun) : Option CmdCtx :=
  match quayOf? r.quay with
  | none => none
  | some q =>
    match s.quays[q].frame? r.frame, s.programOf q cls inst with
    | some f, some p =>
      (p.entryOf (s.quays[q].stageE r.idx).stage).map (fun e =>
        ⟨q, cls, inst, r, s.tagFor q f r.idx, p, e, s.progCmd q p (e.first + r.pc)⟩)
    | _, _ => none

/-- The context of the k-th running stage of an instance. -/
def State.cmdCtx (s : State) (cls inst k : Nat) : Option CmdCtx := ((s.progRuns cls inst)[k]?).bind (s.cmdAt cls inst)

/-- Update a running stage. -/
def State.modProg (s : State) (cx : CmdCtx) (f : ProgRun → ProgRun) : State :=
  let g := fun (r : ProgRun) => if r.quay = cx.run.quay ∧ r.frame = cx.run.frame ∧ r.idx = cx.run.idx then f r else r
  if cx.cls = Cls.ELV then { s with prog := { s.prog with elv := modAt s.prog.elv cx.inst (fun rs => rs.map g) } }
  else { s with prog := { s.prog with lay := modAt s.prog.lay cx.inst (fun rs => rs.map g) } }

/-! Addresses. -/

/-- A handle covers an address: a device address of its berths, or a virtual address. -/
def HandleT.covers (h : HandleT) (a : Nat) : Bool :=
  let b := if h.kind = 0 then berthAddr h.base else h.base
  decide (h.kind ≤ 2 ∧ b ≤ a ∧ a < b + 4096 * h.length)

/-- A quay address of a descriptor: a berth of one of the quay's handles by its device address, as R175's heads name it, or a
virtual address (R307, R378, R413). -/
def State.locateVa (s : State) (q : Fin 4) (a : Nat) (write : Bool) : Located :=
  let cov := s.quays[q].handles.filter (fun h => h.covers a)
  let may := fun (h : HandleT) => bitOf h.access (if write then 1 else 0)
  match (cov.find? may).orElse (fun _ => cov.head?) with
  | none => match s.walk q a write with | .ok pa _ _ => .at pa | .fault k => .fault k a
  | some h =>
    if h.fenced then .fenced
    else if h.kind = 0 then (if may h then .at a else .oob)
    else match s.walk q a write with | .ok pa _ _ => .at pa | .fault k => .fault k a

/-- Locate an operand's address. -/
def State.locRef (s : State) (cx : CmdCtx) (sp : Space) (a : Nat) (write : Bool) : Located :=
  match sp with
  | .slot h k =>
    let b := s.slotAddr cx.q h k
    if a < b then .oob else s.locate cx.q h k (a - b) write
  | _ => s.locateVa cx.q a write

/-- The Chain members of a voyage in ring order: instance and stage-table entry (R314). -/
def State.chainMembers (s : State) (q : Fin 4) (voyage : Nat) : List (Nat × ProgStage) :=
  (List.range 12).filterMap (fun i =>
    match s.ownerOf Cls.ELV i with
    | none => none
    | some p =>
      if p ≠ q then none
      else ((s.programOf q Cls.ELV i).bind (fun g => g.table.find? (fun e => e.isChain && decide (e.voyage = voyage)))).map (fun e => (i, e)))

/-- Instance and tile offset of an address of the chain space, the members' shards end to end (R314). -/
def chainAt : List (Nat × ProgStage) → Nat → Option (Nat × Nat)
  | [], _ => none
  | (i, e) :: t, a => if a < e.chainBytes then some (i, e.tileBase + a) else chainAt t (a - e.chainBytes)

/-- A byte of an operand: its value and mark. -/
def State.refByte (s : State) (cx : CmdCtx) (sp : Space) (a : Nat) : Byte × Bool :=
  match sp with
  | .tile => (s.tileByte cx.inst (a % 2 ^ 21), s.tileMarked cx.inst (a % 2 ^ 21))
  | .chain =>
    match chainAt (s.chainMembers cx.q cx.e.voyage) a with
    | some (i, o) => (s.tileByte i o, s.tileMarked i o)
    | none => (0#8, true)
  | _ => match s.locRef cx sp a false with
    | .at pa => s.engineByte cx.t pa
    | _ => (0#8, true)

/-! Elements. -/

/-- Address of an in-bounds element's packing group and its position; none where it counts as out of bounds: a block without a valid
owner, or an address outside the space (R347, R359). -/
def OpRef.place (r : OpRef) (me : Nat) (i : List Int) : Option (Nat × Nat) :=
  let (a, p) := r.d.addr i
  let g := (fmtGroup r.d.format).2
  let at' : Option Int := match r.own with
    | none => some a
    | some o =>
      let e := o.entries.getD (r.d.blockOf i) 0
      if !bitOf e 7 then none
      else if e % 8 = me then some a
      else some ((o.bases.getD (e % 8) 0 : Int) + (a - (r.d.base : Int)))
  match at' with
  | some a => if a < 0 ∨ a + g > 2 ^ 48 then none else some (a.toNat, p)
  | none => none

/-- The place of an index in the order of R355: increasing |stride|, innermost first, negative strides from the highest index down. -/
def Desc.rankOf (d : Desc) (i : List Int) : Nat :=
  (d.byStride.foldl (fun (a : Nat × Nat) k =>
    let x := (i.getD k 0).toNat
    let p := if d.stride k < 0 then d.size k - 1 - x else x
    (a.1 + p * a.2, a.2 * d.size k)) (0, 1)).1

/-- What stops an access to an in-bounds element. -/
def State.stopAt (s : State) (cx : CmdCtx) (r : OpRef) (write : Bool) (i : List Int) : Option Blocked :=
  if r.space = .tile ∨ r.space = .chain then none
  else match r.place s.nodeId i with
    | none => none
    | some (a, _) => [a, a + (fmtGroup r.d.format).2 - 1].findSome? (fun a =>
        match s.locRef cx r.space a write with
        | .at _ => none
        | .oob => some ⟨St.OOB, none⟩
        | .fenced => some ⟨St.FENCED, none⟩
        | .fault k va => some ⟨St.FAULT, some (k, va)⟩)

/-- The first element, in traversal order, whose access is stopped: its rank, index and what stops it (R416). -/
def State.firstStop (s : State) (cx : CmdCtx) (r : OpRef) (write : Bool) : Option (Nat × List Int × Blocked) :=
  r.d.indices.foldl (fun (a : Option (Nat × List Int × Blocked)) i =>
    match s.stopAt cx r write i with
    | none => a
    | some b =>
      let k := r.d.rankOf i
      match a with
      | some x => if k < x.1 then some (k, i, b) else a
      | none => some (k, i, b)) none

/-- An operand as its command reads it (R348, R349, R359, R416). -/
def State.opnd (s : State) (cx : CmdCtx) (r : OpRef) : Opnd :=
  let stop := s.firstStop cx r false
  let me := s.nodeId
  let n := (fmtGroup r.d.format).2
  ⟨r.d, fun i =>
    match r.d.readAt i with
    | .elem j _ =>
      match r.place me j with
      | none => ⟨r.d.fill, false⟩
      | some (a, p) =>
        if (match stop with | some x => decide (x.1 ≤ r.d.rankOf j) | none => false) then ⟨r.d.fill, true⟩
        else
          let g := (List.range n).map (fun k => s.refByte cx r.space (a + k))
          ⟨elemIn r.d.format (g.map (·.1)) p, g.any (·.2)⟩
    | _ => ⟨r.d.fill, false⟩⟩

/-- An index is out of bounds: outside the padded extent, or in a block that nothing owns (R348, R359). -/
def OpRef.isOob (r : OpRef) (me : Nat) (i : List Int) : Bool :=
  match r.d.readAt i with
  | .oob => true
  | .elem j _ => (r.place me j).isNone
  | .fill => false

/-- A byte of an operand may be read now: its berth is ready, its region's producers are done, its remote line has come (R196, R311). -/
def State.byteReady (s : State) (cx : CmdCtx) (sp : Space) (a : Nat) : Bool :=
  match s.locRef cx sp a false with
  | .at pa =>
    (match regionOf pa with
    | .spad => s.berthReady (berthOf pa) cx.run.frame
    | .onnak _ => (s.remoteLine? cx.t pa).isSome
    | _ =>
      let x := s.quays[cx.q]
      match sp with
      | .slot h _ => x.producersDone cx.run.frame cx.run.idx h
      | _ => (x.handles.filter (fun h => h.covers a)).all (fun h => x.producersDone cx.run.frame cx.run.idx h.handle))
  | _ => true

/-- Every element of an operand may be read now. -/
def State.refReady (s : State) (cx : CmdCtx) (r : OpRef) : Bool :=
  r.space = .tile || r.space = .chain || r.d.indices.all (fun i =>
    match r.place s.nodeId i with
    | none => true
    | some (a, _) => s.byteReady cx r.space a && s.byteReady cx r.space (a + (fmtGroup r.d.format).2 - 1))

/-! Resolution of operands (R308, R345, R358). -/

/-- What an operand field resolves to: nothing named, an operand, or why not. -/
inductive RefRes where
  | unused
  | ref (r : OpRef) (bad : Bool)
  /-- A BAD_COMMAND reason (R311). -/
  | bad (reason : Nat)
  /-- A status that ends the stage: SHAPE, STALE_TIDE, OOB. -/
  | status (st : Status)
  /-- The head it is read from is not yet full. -/
  | wait
  deriving DecidableEq, Repr

/-- Read an owner table (R358): none where it breaks the layout. -/
def State.owners (s : State) (cx : CmdCtx) (d : Desc) : Option Owners :=
  let rd := fun (o n : Nat) => (List.range n).map (fun k => (s.refByte cx .va (d.owner + o + k)).1)
  let count := leNat (rd 0 4)
  let bases := (List.range 8).map (fun k => leNat (rd (0x10 + 8 * k) 8))
  let entries := (rd 0x80 (min count 65536)).map (fun b => b.toNat)
  if 1 ≤ count ∧ count ≤ 65536 ∧ d.blocks ≤ count ∧ leNat (rd 4 12) = 0 ∧ leNat (rd 0x50 48) = 0 ∧ bases.all (fun b => b < 2 ^ 48) ∧
    entries.all (fun e => bitsOf e 6 3 = 0) then some ⟨bases, entries⟩ else none

/-- Resolve an operand field: `tile` where the engine has a tile store, `scale` for a scale operand, `chain` for b in the Chain. -/
def State.refOf (s : State) (cx : CmdCtx) (n : Nat) (scale chain : Bool) : RefRes :=
  let tile := decide (cx.cls = Cls.ELV)
  let fin := fun (d : Desc) (sp : Space) (no : RefRes) (bad : Bool) =>
    if d.owned then (match s.owners cx d with | some o => .ref ⟨d, sp, some o⟩ bad | none => no) else .ref ⟨d, sp, none⟩ bad
  if n = 0xFFFF then .unused
  else if n < 0x8000 then
    if cx.prog.descCount ≤ n then .bad 5
    else
      let b := s.handleBytes cx.q cx.prog.handle (cx.prog.at' + cx.prog.descOffset + 128 * n) 128
      let d := Desc.ofBytes b
      if d.format = 0x0F ∧ !scale then .bad 2
      else if !(descOk b (tile && !chain) scale && decide (d.quay = 0) && decide (d.tide = 0#8)) then .bad 3
      else fin d (if chain then .chain else if d.isTile then .tile else .va) (.bad 3) false
  else
    let h := n - 0x8000
    let slot := cx.t.slot
    match s.quays[cx.q].handle? h with
    | none => .status St.OOB
    | some _ =>
      match s.locate cx.q h slot 0 false with
      | .oob => .status St.OOB
      | .fenced => .status St.FENCED
      | .fault _ _ => .status St.FAULT
      | .at _ =>
        if !s.byteReady cx (.slot h slot) (s.slotAddr cx.q h slot) then .wait
        else
          let src := s.srcOf cx.t h slot
          let b := (List.range 128).map (fun k => src k)
          let d := Desc.ofBytes (b.map (·.1))
          if !(descOk (b.map (·.1)) false scale) then .status 0x80#8
          else if d.quay ≠ cx.q.val ∨ d.tide ≠ cx.t.tide then .status St.STALE_TIDE
          else fin d (.slot h slot) (.status 0x80#8) (b.any (·.2))

/-- The operand a resolution found. -/
def RefRes.ref? : RefRes → Option OpRef
  | .ref r _ => some r
  | _ => none

/-! Writing (R348, R350, R353, R354, R416). -/

/-- Elements a command writes, as stored where two of them fall on one place or on a source of the same command: one of the values
written (R354); `pick` gives free numbers. -/
def resolveOuts (places : List (Nat × Nat × OutEl)) (shared : Nat → Bool) (pick : Nat → Nat) : List (Nat × Nat × OutEl) :=
  (enum places).map (fun e =>
    let (a, p, o) := e.2
    let same := places.filter (fun x => x.1 = a ∧ x.2.1 = p)
    let cands := if shared a then places else same
    match cands[pick e.1 % max 1 cands.length]? with
    | some x => if same.length ≤ 1 ∧ !shared a then (a, p, o) else (a, p, ⟨o.idx, x.2.2.code, o.bad || x.2.2.bad⟩)
    | none => (a, p, o))

/-- The bytes that elements at places change: address, value and mark. -/
def State.outBytes (s : State) (cx : CmdCtx) (sp : Space) (fmt : Nat) (outs : List (Nat × Nat × OutEl)) : Tab (Option (Byte × Bool)) :=
  let n := (fmtGroup fmt).2
  let d0 : Nat → Option (Byte × Bool) := fun _ => none
  outs.foldl (fun t x =>
    let (a, p, o) := x
    let bs := if fmtPacked fmt then
        elemPut fmt ((List.range n).map (fun k => match Tab.get d0 t (a + k) with | some b => b.1 | none => (s.refByte cx sp (a + k)).1)) p o.code
      else natLE n o.code
    (enum bs).foldl (fun t b =>
      let bad := o.bad || (match Tab.get d0 t (a + b.1) with | some y => y.2 | none => false)
      Tab.set d0 t (a + b.1) (some (b.2, bad))) t) []

/-- A byte table's clean and poisoned runs, the clean ones first. -/
def byteRuns (t : Tab (Option (Byte × Bool))) : List Chunk :=
  let part := fun (bad : Bool) => runsOf (t.filterMap (fun e => match e.2 with
    | some (b, m) => if m = bad then some (e.1, b) else none
    | none => none))
  part false ++ (part true).map (fun c => { c with bad := true })

/-- Store an operand's runs where its addresses lead. -/
def State.putRef (s : State) (cx : CmdCtx) (r : OpRef) (cs : List Chunk) : State × List Status :=
  match r.space with
  | .tile => (cs.foldl (fun (s : State) c => s.tileStore cx.inst (c.off % 2 ^ 21) c.bytes c.bad) s, [])
  | .chain => (s, [])
  | .slot h k =>
    let b := s.slotAddr cx.q h k
    s.putSlot cx.t h k (cs.map (fun c => { c with off := c.off - b })) b
  | .va => s.putChunks cx.t (fun s o => s.locateVa cx.q o true) 0xFFFF cs 0

/-- Bits of each byte that elements of a packed format cover. -/
def coverOf (fmt : Nat) (outs : List (Nat × Nat × OutEl)) : Tab Nat :=
  let n := (fmtGroup fmt).2
  outs.foldl (fun t x =>
    let bs := elemPut fmt (List.replicate n 0#8) x.2.1 (2 ^ fmtBits fmt - 1)
    (enum bs).foldl (fun t b => Tab.set nat0 t (x.1 + b.1) (Tab.get nat0 t (x.1 + b.1) ||| b.2.toNat)) t) []

/-- Bytes of a remote destination that a command covers only in part: address, device address and bits covered (R456). -/
def State.partBytes (s : State) (cx : CmdCtx) (r : OpRef) (outs : List (Nat × Nat × OutEl)) : List (Nat × Nat × Nat) :=
  if !fmtPacked r.d.format || r.space = .tile then []
  else (coverOf r.d.format outs).filterMap (fun e =>
    if e.2 = 0xFF then none
    else match s.locRef cx r.space e.1 true with
      | .at pa => (match regionOf pa with | .onnak _ => some (e.1, pa, e.2) | _ => none)
      | _ => none)

/-- Bytes covered in part go as masked writes of their lines (R456). -/
def State.putPart (s : State) (cx : CmdCtx) (r : OpRef) (table : Tab (Option (Byte × Bool))) (part : List (Nat × Nat × Nat))
    (st : List Status) : State × List Status :=
  if part = [] then (s, st)
  else
    let d0 : Nat → Option (Byte × Bool) := fun _ => none
    (dedup (part.map (fun p => p.2.1 / 64))).foldl (fun (a : State × List Status) line =>
      let mine := part.filter (fun p => p.2.1 / 64 = line)
      let at' := fun (i : Nat) => mine.find? (fun p => p.2.1 % 64 = i)
      let data := (List.range 64).map (fun i => match at' i with
        | some p => (Tab.get d0 table p.1).elim 0#8 (·.1)
        | none => 0#8)
      let mask := (List.range 64).map (fun i => match at' i with | some p => BitVec.ofNat 8 p.2.2 | none => 0#8)
      let bad := mine.any (fun p => (Tab.get d0 table p.1).elim false (·.2))
      let x := (a.1.settlePacks cx.t).sendMasked ((line * 64 - Addr.onnak) / 0x1000000000) cx.t (line * 64 % 0x1000000000) data mask
        (decide (fmtBits r.d.format = 4)) bad
      (x.1, if x.2 = St.OK then a.2 else addNew x.2 a.2)) (s, st)

/-- Two operands' spans overlap, and not as one layout read and written element by element. -/
def sharesWith (elementwise : Bool) (d x : Desc) : Bool :=
  spansOverlap d x && !(elementwise && decide (d.base = x.base ∧ d.strides = x.strides ∧ d.sizes = x.sizes ∧ d.format = x.format ∧ x.padLo = d.padLo))

/-- Write a command's outputs to a destination. Answers the statuses met and how many elements were out of bounds. -/
def State.writeOuts (s : State) (cx : CmdCtx) (r : OpRef) (sources : List OpRef) (elementwise : Bool) (outs : List OutEl) : State × List Status × Nat :=
  let me := s.nodeId
  let stop := s.firstStop cx r true
  let placed := outs.filterMap (fun o => if !r.d.inBounds o.idx then none else (r.place me o.idx).map (fun p => (p.1, p.2, o)))
  let oob := outs.length - placed.length
  let live := placed.filter (fun x => match stop with | some y => decide (r.d.rankOf x.2.2.idx < y.1) | none => true)
  let over' := sources.filter (fun x => sharesWith elementwise r.d x.d)
  let shared := fun (a : Nat) => over'.any (fun x =>
    let (lo, n) := x.d.byteSpan
    decide (lo ≤ (a : Int) ∧ (a : Int) < lo + n))
  let risky := r.d.aliased || !over'.isEmpty || r.own.isSome || cx.c.op = 0x12
  let base := s.free
  let fixed := if risky then resolveOuts live shared (fun k => Config.freeValue (base + k)) else live
  let s : State := if risky then { s with free := s.free + live.length } else s
  let table := s.outBytes cx r.space r.d.format fixed
  let part := s.partBytes cx r fixed
  let (s, st) := s.putRef cx r (byteRuns (table.filter (fun e => !part.any (fun p => p.1 = e.1))))
  let (s, st) := s.putPart cx r table part st
  match stop with
  | some (_, i, b) => (s.noteBlocked cx.t b true r.d.base (i.map Int.toNat), addNew b.status st, oob)
  | none => (s, st, oob)

/-- The fault records and statuses of an operand's reads (R416, R417). -/
def State.readRef (s : State) (cx : CmdCtx) (r : OpRef) : State × List Status :=
  match s.firstStop cx r false with
  | some (_, i, b) => (s.noteBlocked cx.t b false r.d.base (i.map Int.toNat), [b.status])
  | none => (s, [])

/-- The flag of R353 on a destination. -/
def State.noteAlias (s : State) (cx : CmdCtx) (flagged : Bool) : State :=
  if !flagged then s
  else
    let id := (s.quays[cx.q].stageE cx.run.idx).stage
    let s := (s.bump (Reg.LAYOUT_QUAY_ALIAS_COUNT cx.q)).put (Reg.LAYOUT_QUAY_ALIAS_LAST cx.q) (cx.cls + 256 * cx.inst + 65536 * id)
    if cx.cls = Cls.LAYOUT then (s.bump (Reg.LAYOUT_ALIAS_COUNT cx.inst)).setEvent (Reg.LAYOUT_EVENT cx.inst) 0x40 else s

/-- Elements out of bounds are counted (R348). -/
def State.noteOob (s : State) (cx : CmdCtx) (n : Nat) : State :=
  if n = 0 then s
  else
    let s := s.bumpBy (Reg.LAYOUT_QUAY_OOB_COUNT cx.q) n
    if cx.cls = Cls.LAYOUT then (s.bumpBy (Reg.LAYOUT_OOB_COUNT cx.inst) n).setEvent (Reg.LAYOUT_EVENT cx.inst) 0x20 else s

/-- How many distinct indices of a list are out of bounds for an operand, with OOB where it is strict. -/
def State.oobReads (s : State) (xs : List (OpRef × List (List Int))) : Nat × List Status :=
  let me := s.nodeId
  xs.foldl (fun (a : Nat × List Status) e =>
    let n := (e.2.filter (fun i => e.1.isOob me i)).length
    (a.1 + n, if 0 < n ∧ e.1.d.strict then addNew St.OOB a.2 else a.2)) (0, [])

/-! Ends. -/

/-- A stage ends with BAD_COMMAND (R311). -/
def State.badCommand (s : State) (cx : CmdCtx) (reason : Nat) : State :=
  let w := cx.run.pc % 2 ^ 24 + reason * 2 ^ 24
  let s := if cx.cls = Cls.ELV then (s.bump (Reg.ELV_BAD_CMD_COUNT cx.inst)).put (Reg.ELV_LAST_BAD_CMD cx.inst) w
    else (s.bump (Reg.LAYOUT_BAD_CMD_COUNT cx.inst)).put (Reg.LAYOUT_LAST_BAD_CMD cx.inst) w
  s.completeStage cx.q cx.run.frame cx.run.idx (cx.run.statuses ++ [0x81#8])

/-- A command has completed: the stage goes on with the next. -/
def State.cmdDone (s : State) (cx : CmdCtx) (sts : List Status) : State :=
  let s := s.bump (if cx.cls = Cls.ELV then Reg.ELV_CMD_COUNT cx.inst else Reg.LAYOUT_CMD_COUNT cx.inst)
  s.modProg cx (fun r => { r with pc := r.pc + 1, statuses := r.statuses ++ sts })

/-- The stage's outputs are filled and it completes with the statuses its commands met (R311). -/
def State.progEnd (s : State) (cx : CmdCtx) : State :=
  let x := s.quays[cx.q]
  let s := (x.stageE cx.run.idx).outs.foldl (fun (s : State) h => s.fillSlot cx.t h cx.t.slot) s
  let s := s.bump (if cx.cls = Cls.ELV then Reg.ELV_CMD_COUNT cx.inst else Reg.LAYOUT_CMD_COUNT cx.inst)
  s.completeStage cx.q cx.run.frame cx.run.idx cx.run.statuses

/-- Poison among outputs. -/
def poisonOf (outs : List OutEl) : List Status := if outs.any (·.bad) then [St.POISON] else []

/-- A final COPY sets the berths of out[] slots that it wrote to full (R311). -/
def State.fillWritten (s : State) (cx : CmdCtx) (r : OpRef) (outs : List OutEl) : State :=
  let me := s.nodeId
  let berths := dedup (outs.filterMap (fun o =>
    if !r.d.inBounds o.idx then none
    else match r.place me o.idx with
      | none => none
      | some (a, _) => match s.locRef cx r.space a true with
        | .at pa => (match regionOf pa with | .spad => some (berthOf pa) | _ => none)
        | _ => none))
  let x := s.quays[cx.q]
  (x.stageE cx.run.idx).outs.foldl (fun (s : State) h =>
    (x.slotBerths h cx.t.slot).foldl (fun (s : State) b => if berths.elem b then (s.setFull cx.t h b).1 else s) s) s

end Sys2Proof.Machine
end

