-- ==== Sys2Proof/Machine/Coastguard.lean ====
section
/-! DEFINITION. Coastguard (R470-R497): decisions and the safe state, safety messages, the descriptor check, the age monitor, Lighthouse verdicts,
releases, the watchdog and self-faults. -/
namespace Sys2Proof.Machine

/-! Decisions (R486, R488, R489). -/

/-- DECISION (R488): the oldest fault signal. -/
def doDecision (s : State) : State :=
  match s.cg.signals with
  | [] => s
  | (c, n) :: rest => ({ s with cg := { s.cg with signals := rest } } : State).decide' c n

/-- NOTICE_TIMER (R489): every CG_NOTICE_PERIOD while in the safe state. -/
def doNoticeTimer (s : State) : State :=
  if !s.cg.safe ∨ s.time.now < s.cg.noticeAt + fld (s.reg Reg.CG_NOTICE_PERIOD) 16 0 * 1000 then s else s.notice

/-! The age monitor (R484, R485). -/

/-- One age counter advances; where it exceeds its limit for the first time, AGE is raised (R484, R485). -/
def State.ageStep (s : State) (i maxAgeUs : Nat) : State :=
  match s.cg.ages.getD i none with
  | none => s
  | some v =>
    let s := { s with cg := { s.cg with ages := setAt s.cg.ages i (some (v + 1)) } }
    if maxAgeUs / 10 < v + 1 ∧ !s.cg.overAge.elem i then
      (({ s with cg := { s.cg with overAge := s.cg.overAge ++ [i] } } : State).bump Reg.CG_AGE_FAULT_COUNT).cgSignal Cause.AGE
    else s

/-- AGE_TICK (R484, R485): every counter in use advances; one that exceeds its limit raises AGE for its entry. -/
def doAgeTick (s : State) : State :=
  match s.quays[(0 : Fin 4)].chart with
  | none => s
  | some c => (enum c.ages).foldl (fun (s : State) a => s.ageStep a.1 a.2.maxAgeUs) s

/-! The descriptor check (R487, R491, R494). -/

/-- Descriptor fields that the check reads (R88): quay, tide, flags, frame, capture, publish, class, instance, stage, status, sequence. -/
structure DescView where
  tide : Nat
  flags : Nat
  frame : Nat
  capture : Nat
  publish : Nat
  stage : Nat
  status : Nat
  seq : Nat
  deriving DecidableEq, Repr

/-- The fields of a 64-byte result descriptor. -/
def descView (b : List Byte) : DescView :=
  ⟨leAt b 2 1, leAt b 3 1, leAt b 4 4, leAt b 8 8, leAt b 0x10 8, leAt b 0x1A 2, leAt b 0x1E 1, leAt b 0x30 4⟩

/-- VALID, as Coastguard finds it itself (R482, R487). -/
def State.checkValid (s : State) (c : Chart) (p : MirrorPub) (v : DescView) : Bool :=
  let idx := (c.stageIdx v.stage).getD 0
  let old := match c.ages.find? (fun a => a.stage = v.stage) with
    | some a => decide (a.maxAgeUs * 1000 < v.publish - v.capture)
    | none => false
  decide (v.status = 0) && !bitOf v.flags 1 && !bitOf v.flags 2 && !bitOf v.flags 3 && s.covered c idx p.frame p.first && !old

/-- How many departures a publish point shows (R487). -/
def State.departures (s : State) (c : Chart) (p : MirrorPub) : Nat :=
  let vs := p.descs.map (fun d => descView d.bytes)
  let each := (enum vs).map (fun e =>
    b2n (bitOf e.2.flags 0 ≠ s.checkValid c p e.2) + b2n (decide (e.2.frame ≠ p.frame.toNat)) + b2n (decide (e.2.tide ≠ p.tide.toNat)) +
      b2n (decide (e.2.seq ≠ (s.cg.expectSeq + e.1) % 2 ^ 32)))
  let frame := match s.cg.expectFrame with | some f => b2n (!p.first && decide (f ≠ p.frame)) | none => 0
  let results := (c.allStages.filter (fun i => (c.stageAt i).result)).length
  sumNat each + frame + b2n (decide (vs.length ≠ results))

/-- Bytes of a result's data, from its tensor descriptor's base (R494). -/
def State.resultData (s : State) (tensor off n : Nat) : List Byte :=
  let at' := fun (a : Nat) => match s.locateVa 0 a false with | .at pa => s.byte pa | _ => 0#8
  let base := leNat ((List.range 8).map (fun i => at' (tensor + 8 + i)))
  if tensor = 0 then [] else (List.range n).map (fun i => at' (base + off + i))

/-- The RESULT messages of a publish point, in slot order (R494). -/
def State.sendResults (s : State) (p : MirrorPub) : State :=
  (List.range 16).foldl (fun (s : State) k =>
    let w := s.reg (Reg.CG_FWD k)
    match p.descs.find? (fun d => flag w 31 && (descView d.bytes).stage = fld w 15 0) with
    | none => s
    | some d =>
      let v := descView d.bytes
      let payload := s.resultData d.tensor (s.reg (Reg.CG_FWD_OFFSET k)).toNat (fld w 26 16)
      s.safetyIfs.foldl (fun (s : State) i =>
        let (n, s) := s.nextSeq i 1
        s.sendSafety i k (s.safetyMsg 1 p.frame v.capture n v.stage v.flags v.status payload) payload) s) s

/-- The publish point `p`, the oldest of the mirror, is checked against chart `c`, and its RESULT messages are sent; those that could not start
before it are dropped (R487, R494). -/
def State.checkPoint (s : State) (c : Chart) (p : MirrorPub) (rest : List MirrorPub) : State :=
  let late := (s.cg.queue.filter (fun m => m.slot ≠ 16)).length
  let bad := s.departures c p
  let s := ({ s with cg := { s.cg with
    mirror := rest
    queue := s.cg.queue.filter (fun m => m.slot = 16)
    expectFrame := some (p.frame + 1#32)
    expectSeq := (match p.descs.getLast? with | some d => ((descView d.bytes).seq + 1) % 2 ^ 32 | none => s.cg.expectSeq) } } : State).bumpBy
      Reg.CG_MSG_DROP_COUNT late
  let s := if bad = 0 then s else (s.bumpBy Reg.CG_CHECK_MISMATCH_COUNT bad).cgSignal Cause.CHECK_MISMATCH
  s.sendResults p

/-- A checked publish point is clean: no cause is active and no signal waits, every descriptor is valid, and no age is over its limit (R491). -/
def State.pointClean (s : State) (p : MirrorPub) : Bool :=
  decide (s.cg.active = 0) && s.cg.signals.isEmpty && p.descs.all (fun d => bitOf (descView d.bytes).flags 0) && s.cg.overAge.isEmpty

/-- DESCRIPTOR_CHECK (R487, R491, R494): the oldest publish point in the mirror is checked and its RESULT messages are sent; a clean one releases
SAFE_N. RESULT messages that could not start before it are dropped. -/
def doDescriptorCheck (s : State) : State :=
  match s.cg.mirror, s.quays[(0 : Fin 4)].chart with
  | p :: rest, some c =>
    let s := s.checkPoint c p rest
    if s.pointClean p ∧ s.cg.safe ∧ !s.cg.selfFault then
      ((({ s with cg := { s.cg with safe := false } } : State).driveSafe false)).notice
    else s
  | p :: rest, none => { s with cg := { s.cg with mirror := rest, expectFrame := some (p.frame + 1#32) } }
  | [], _ => s

/-! Lighthouse verdicts (R478-R483). -/

/-- The check sum of diverted lines in exact mode (R480): offset, byte mask and data of each. -/
def lightSum (lines : List (Nat × Nat × List Byte)) : Nat :=
  sumNat (lines.map (fun l =>
    let data := (enum (slice l.2.2 0 64)).map (fun e => if bitOf l.2.1 e.1 then e.2 else 0#8)
    crc32c (natLE 8 l.1 ++ natLE 8 l.2.1 ++ data))) % 2 ^ 32

/-- One unit in the last place of a format at a finite value. -/
def ulpOf (f : FloatFmt) (v : Fv) : Fv :=
  let least : Int := 1 - (f.bias : Int) - f.fb
  match v with
  | .fin _ m _ => if m = 0 then .fin false 1 least else .fin false 1 (max least (v.exp2 - f.fb))
  | _ => .fin false 0 0

/-- An element matches its reference in tolerance mode (R480). -/
def ulpMatch (f : FloatFmt) (tol out ref : Nat) : Bool :=
  match f.decode out, f.decode ref with
  | .nan, .nan => true
  | .nan, _ => false
  | _, .nan => false
  | .inf a, .inf b => decide (a = b)
  | .inf _, _ => false
  | _, .inf _ => false
  | a, b =>
    let d := a.add b.neg
    let d := if d.isNeg then d.neg else d
    d.le ((Fv.ofInt tol).mul (ulpOf f b))

/-- Every element of the diverted lines matches (R480): elements of `n` bytes, those written outside the image never. -/
def State.tolMatch (s : State) (h bytes data fmt tol : Nat) (lines : List (Nat × Nat × List Byte)) : Bool :=
  match floatOf fmt with
  | none => false
  | some f =>
    let n := fmtBits fmt / 8
    lines.all (fun l => (List.range (64 / n)).all (fun k =>
      if !bitOf l.2.1 (k * n) then true
      else
        let o := l.1 + k * n
        decide (o + n ≤ bytes) && ulpMatch f tol (leAt l.2.2 (k * n) n) (leNat (s.handleBytes 0 h (data + o) n))))

/-- A completed run's writes match its reference (R479, R480). -/
def State.lightMatch (s : State) (h : Nat) (lines : List (Nat × Nat × List Byte)) : Bool :=
  let r := s.handleBytes 0 h 0 64
  if leAt r 5 1 = 0 then decide (lightSum lines = leAt r 0x10 4)
  else s.tolMatch h (leAt r 8 8) (leAt r 0x14 4) (leAt r 6 1) (leAt r 7 1) lines

/-- LIGHTHOUSE_VERDICT (R480-R483): a run of a LIGHTHOUSE entry ends with a status, and its diverted lines (offset in the capture image, byte mask, data)
have been compared. Runs on one instance end in entry order. -/
def doLighthouseVerdict (entry : Nat) (status : Status) (lines : List (Nat × Nat × List Byte)) (s : State) : State :=
  match s.quays[(0 : Fin 4)].chart with
  | none => s
  | some c =>
    let instOf := fun (r : LhRun) => let g := c.engineAt ((c.lights.getD r.entry ⟨0, 0, 0, 0, 0⟩).engine); (g.cls, g.inst)
    match s.cg.runs.find? (fun r => r.entry = entry) with
    | none => s
    | some r =>
      if s.cg.runs.find? (fun x => instOf x = instOf r) ≠ some r then s
      else
        let s := { s with cg := { s.cg with runs := s.cg.runs.erase r } }
        let v := if status = St.POISON ∨ status = St.TIMEOUT then 3
          else if status = St.OK ∧ s.lightMatch (c.lights.getD entry ⟨0, 0, 0, 0, 0⟩).reference lines then 1 else 2
        match lhSlot (instOf r).1 (instOf r).2 with
        | none => s
        | some j =>
          let s := s.verdict j r.frame v
          if (s.lh j).fenced then { s with cg := { s.cg with runs := s.cg.runs.filter (fun x => instOf x ≠ instOf r) } } else s

/-! Coastguard software (R472, R473, R486, R491). -/

/-- A write of a Coastguard command register: only Coastguard software's counts (R472). -/
def State.cgWrite (s : State) (ini : Initiator) (a : Nat) (f : State → State) : State := if ini = .cg then f s else s.ignoredWrite a

/-- A release is rejected: quay 0 does not run, a self-fault is recorded, or an engine of quay 0 is fenced (R491). -/
def State.releaseBarred (s : State) : Bool :=
  decide (s.quays[(0 : Fin 4)].st ≠ QState.running) || s.cg.selfFault ||
    (match s.quays[(0 : Fin 4)].chart with
    | some c => c.engines.any (fun e => s.isFenced e.cls e.inst)
    | none => false)

/-- CG_RELEASE (R491): the latched causes are cleared, or the request is rejected with BAD_STATE. -/
def doCgRelease (ini : Initiator) (val : Word) (s : State) : State :=
  s.cgWrite ini Reg.CG_RELEASE (fun s =>
    if !flag val 0 then s
    else if s.releaseBarred then
      let s := { s with cg := { s.cg with releaseStatus := St.BAD_STATE } }
      let old := s.reg Reg.CG_RELEASE_STATUS
      (s.put Reg.CG_RELEASE_STATUS (min (fld old 31 16 + 1) 0xFFFF * 65536)).answer St.BAD_STATE
    else
      let was := s.cg.active
      let now := Nat.land was (0xFFF - latchedCauses)
      let s := { s with cg := { s.cg with active := now, releaseStatus := St.OK } }
      (if now = was then s else s.notice).answer St.OK)

/-- CG_SW_REQUEST (R486). -/
def doCgSwRequest (ini : Initiator) (val : Word) (s : State) : State :=
  s.cgWrite ini Reg.CG_SW_REQUEST (fun s => if flag val 0 then s.cgSignal Cause.SW_REQUEST else s)

/-- CG_WDT_KICK (R473). -/
def doCgWdtKick (ini : Initiator) (s : State) : State :=
  s.cgWrite ini Reg.CG_WDT_KICK (fun s => { s with cg := { s.cg with kickedAt := s.time.now } })

/-! Self-faults (R473). -/

/-- SELF_FAULT (R473, R488). -/
def doSelfFault (k : SelfFault) (s : State) : State :=
  ({ s with cg := { s.cg with copiesAgree := s.cg.copiesAgree && decide (k ≠ .copies) } } : State).selfFaulted

/-- WATCHDOG_EXPIRY (R473): CG_WDT_KICK has not been written within CG_WDT_PERIOD, once a pair has booted. -/
def doWatchdogExpiry (s : State) : State :=
  if !s.cg.pairs.any (fun b => b) ∨ s.time.now < s.cg.kickedAt + fld (s.reg Reg.CG_WDT_PERIOD) 13 0 * 1000 then s else s.selfFaulted

/-- LIGHTHOUSE_VERDICT. -/
def execLighthouseVerdict (entry : Nat) (status : Status) (lines : List (Nat × Nat × List Byte)) (s : State) : Res :=
  act (doLighthouseVerdict entry status lines) s
/-- AGE_TICK. -/
def execAgeTick (s : State) : Res := actAlive doAgeTick s
/-- DESCRIPTOR_CHECK. -/
def execDescriptorCheck (s : State) : Res := actAlive doDescriptorCheck s
/-- DECISION. -/
def execDecision (s : State) : Res := actAlive doDecision s
/-- NOTICE_TIMER. -/
def execNoticeTimer (s : State) : Res := actAlive doNoticeTimer s
/-- CG_RELEASE. -/
def execCgRelease (ini : Initiator) (val : Word) (s : State) : Res := actAlive (doCgRelease ini val) s
/-- CG_SW_REQUEST. -/
def execCgSwRequest (ini : Initiator) (val : Word) (s : State) : Res := actAlive (doCgSwRequest ini val) s
/-- CG_WDT_KICK. -/
def execCgWdtKick (ini : Initiator) (s : State) : Res := actAlive (doCgWdtKick ini) s
/-- WATCHDOG_EXPIRY. -/
def execWatchdogExpiry (s : State) : Res := actAlive doWatchdogExpiry s
/-- SELF_FAULT. -/
def execSelfFault (k : SelfFault) (s : State) : Res := actAlive (doSelfFault k) s

end Sys2Proof.Machine
end

