-- ==== Sys2Proof/Machine/ElvRows.lean ====
section
/-! DEFINITION. The Elvow commands (R308-R318, R322, R323, R336): checks at issue, compute commands, transfers, layers, the Bollard
(R114, R115), Tandem (R116) and END. -/
namespace Sys2Proof.Machine

/-! Checks at issue (R304, R308-R311, R316, R317). -/

/-- The operand fields a command uses, with how each is resolved: a, b, c, dst, and the two in params. -/
structure Uses where
  a : Bool
  b : Bool
  c : Bool
  dst : Bool
  /-- Fields of a_scale and b_scale, or of ATTN's mask. -/
  sa : Option Nat
  sb : Option Nat
  deriving DecidableEq, Repr

/-- Epilogue 0x0E reads c (R310). -/
def TCmd.usesAffine (c : TCmd) : Bool := c.epi0 = 0x0E || c.epi1 = 0x0E

/-- What an ELV command names (R309). -/
def TCmd.uses (c : TCmd) : Uses :=
  match c.op with
  | 1 => ⟨true, true, c.usesAffine, true, if c.mx then some 0x20 else none, if c.mx then some 0x22 else none⟩
  | 2 => ⟨true, true, c.usesAffine, true, none, none⟩
  | 3 => ⟨true, true, true, true, some 0x28, none⟩
  | 4 => ⟨true, c.b ≠ 0xFFFF, c.c ≠ 0xFFFF, true, none, none⟩
  | 5 => ⟨true, decide (1 ≤ c.p 0x20 1 ∧ c.p 0x20 1 ≤ 5), c.usesAffine || c.p 0x20 1 = 0x0E, true, none, none⟩
  | 6 => ⟨true, false, c.usesAffine, true, none, none⟩
  | 7 => ⟨true, false, false, true, none, none⟩
  | 8 => ⟨true, false, c.mx, true, none, none⟩
  | _ => ⟨false, false, false, false, none, none⟩

/-- The operands as resolved. -/
structure RefSet where
  a : RefRes
  b : RefRes
  c : RefRes
  dst : RefRes
  sa : RefRes
  sb : RefRes
  deriving DecidableEq, Repr

/-- Resolve what a command uses. -/
def State.refSet (s : State) (cx : CmdCtx) (u : Uses) : RefSet :=
  let c := cx.c
  let get := fun (on : Bool) (n : Nat) (scale chain : Bool) => if on then s.refOf cx n scale chain else .unused
  ⟨get u.a c.a false false, get u.b c.b false (cx.cls = Cls.ELV && c.op = 1 && c.chain), get u.c c.c (c.op = 8) false, get u.dst c.dst false false,
    (match u.sa with | some o => s.refOf cx (c.p o 2) (c.op ≠ 3) false | none => .unused),
    (match u.sb with | some o => s.refOf cx (c.p o 2) true false | none => .unused)⟩

/-- All of them. -/
def RefSet.all (r : RefSet) : List RefRes := [r.a, r.b, r.c, r.dst, r.sa, r.sb]

/-- The operands found. -/
def RefSet.refs (r : RefSet) : Refs := ⟨r.a.ref?, r.b.ref?, r.c.ref?, r.dst.ref?, r.sa.ref?, r.sb.ref?⟩

/-- A field of a resolved operand's descriptor satisfies `p`, or it names none. -/
def RefRes.holds (r : RefRes) (p : OpRef → Bool) : Bool := match r with | .ref x _ => p x | _ => true

/-- A tile-store operand lies within the stage's tile range (R309, R347). -/
def ProgStage.holdsTile (e : ProgStage) (r : OpRef) : Bool :=
  r.space ≠ .tile || r.d.isEmpty ||
    (let (lo, n) := r.d.byteSpan
     let lo := (lo - 2 ^ 47).toNat
     decide (e.tileBase ≤ lo ∧ lo + n ≤ e.tileBase + e.tileBytes))

/-- Format pairs of a command are legal (R304, R327, R330). -/
def TCmd.formatsOk (c : TCmd) : Bool :=
  let out := decide (fmtBits c.fmtOut ≠ 0 ∧ c.fmtOut ≠ 0x0F) && !fmtRaw c.fmtOut
  match c.op with
  | 1 => (matrixClass c.fmtA c.fmtB c.sparse).isSome && out
  | 2 => (matrixClass c.fmtA c.fmtB c.sparse).isSome && out
  | 3 => (matrixClass c.fmtA c.fmtB false).isSome && out
  | 7 => decide (fmtBits c.fmtA ≠ 0)
  | 9 => true
  | 0x0A => true
  | _ => decide (fmtBits c.fmtA ≠ 0 ∧ c.fmtA ≠ 0x0F) && out

/-- Ranges of the fields of R308 and of an opcode's params (R309, R316, R317, R336). -/
def TCmd.fieldsOk (c : TCmd) : Bool :=
  let dim := fun (n : Nat) => decide (1 ≤ n ∧ n ≤ 16777215)
  let mxPair := isMxFmt c.fmtA || isMxFmt c.fmtB
  c.flags < 64 && c.u 7 1 = 0 && c.u 0x1C 4 = 0 && dim c.m && dim c.n && dim c.k &&
    (match c.op with
    | 1 => (!c.sparse || (isS4 c.fmtA c.fmtB && c.k % 4 = 0)) && (!c.mx || (mxPair && c.k % 32 = 0))
    | 2 =>
      let kk := fun (o : Nat) => decide (1 ≤ c.p o 1 ∧ c.p o 1 ≤ 15)
      let st := fun (o : Nat) => decide (1 ≤ c.p o 1 ∧ c.p o 1 ≤ 8)
      kk 0x20 && kk 0x21 && st 0x22 && st 0x23 && st 0x24 && st 0x25 && decide (1 ≤ c.p 0x26 2) &&
        (!c.sparse || (isS4 c.fmtA c.fmtB && c.k % 4 = 0)) && !c.mx
    | 3 => decide (1 ≤ c.p 0x20 2 ∧ c.p 0x20 2 ≤ 256) && decide (16 ≤ c.p 0x22 2 ∧ c.p 0x22 2 ≤ 256) && c.p 0x22 2 % 16 = 0
    | 4 => decide (c.p 0x20 1 ≤ 1)
    | 5 => decide (1 ≤ c.p 0x20 1 ∧ c.p 0x20 1 ≤ 0x11)
    | 6 => decide (c.p 0x20 1 ≤ 3) && decide (c.p 0x21 1 ≤ 5)
    | 8 => !c.mx || (isMxFmt c.fmtOut && c.k % 32 = 0)
    | _ => true)

/-- What is wrong with a command: BAD_COMMAND reasons, ascending (R311). -/
def CmdCtx.elvFaults (cx : CmdCtx) (u : Uses) (r : RefSet) : List Nat :=
  let c := cx.c
  let isT := fun (x : OpRef) => decide (x.space = .tile)
  let compute := decide (1 ≤ c.op ∧ c.op ≤ 6)
  let fmt := fun (x : RefRes) (f : Nat) => x.holds (fun y => decide (y.d.format = f))
  let missing := (u.a && r.a = .unused) || (u.b && r.b = .unused) || (u.dst && r.dst = .unused) || (u.c && r.c = .unused) ||
    (c.op = 1 && c.mx && (r.sa = .unused || r.sb = .unused))
  let bads := r.all.filterMap (fun x => match x with | .bad k => some k | _ => none)
  let hasT := fun (k : Nat) => bads.elem k
  if !(1 ≤ c.op && c.op ≤ 0x0A) then [1]
  else
    (if !c.formatsOk || hasT 2 then [2] else []) ++
    (if !c.fieldsOk || hasT 3 || !fmt r.a c.fmtA || (u.b && !fmt r.b c.fmtB) || (!u.b && c.fmtB ≠ 0xFF) || !fmt r.dst (if c.op = 7 then c.fmtA else c.fmtOut) ||
        (c.op = 7 && !r.a.holds (fun x => !isT x)) || (c.op = 8 && c.mx && !r.c.holds (fun x => decide (x.d.format = 0x0F))) ||
        (c.op = 1 && !(r.sa.holds (fun x => decide (x.d.format = 0x0F)) && r.sb.holds (fun x => decide (x.d.format = 0x0F)))) then [3] else []) ++
    (if r.all.any (fun x => !x.holds cx.e.holdsTile) || (compute && !(r.a.holds isT && r.c.holds isT && r.dst.holds isT)) ||
        (decide (3 ≤ c.op ∧ c.op ≤ 6) && !(r.b.holds isT && r.sa.holds isT)) || (c.op = 7 && !r.dst.holds isT) then [4] else []) ++
    (if missing || hasT 5 then [5] else []) ++
    (if isEpilogue c.epi0 && isEpilogue c.epi1 then [] else [6])

/-! Running a command. -/

/-- A stage may issue: it is the primary with no Tandem layer in its way, or its Tandem layer runs; it does not wait at the Bollard. -/
def State.mayIssue (s : State) (inst k : Nat) (r : ProgRun) : Bool :=
  !r.waiting && (if k = 0 then (s.progRuns Cls.ELV inst).all (fun x => x.tandem.isNone || decide (x = r)) else r.tandem.isSome)

/-- Spans of tile-store bytes that operands cover. -/
def tileSpans (rs : List (Option OpRef)) : List (Int × Nat) :=
  rs.filterMap (fun r => r.bind (fun x => if x.space = .tile then some x.d.byteSpan else none))

/-- Two lists of spans meet. -/
def spansMeet (xs ys : List (Int × Nat)) : Bool :=
  xs.any (fun x => ys.any (fun y => decide (x.2 ≠ 0 ∧ y.2 ≠ 0 ∧ x.1 < y.1 + y.2 ∧ y.1 < x.1 + x.2)))

/-- Tile bytes a command reads and writes. -/
def Refs.reads (r : Refs) (c : TCmd) : List (Int × Nat) :=
  tileSpans ([r.a, r.b, r.sa, r.sb] ++ (if c.op = 8 then [] else [r.c]) ++ (if c.accum then [r.dst] else []))
def Refs.writes (r : Refs) (c : TCmd) : List (Int × Nat) := tileSpans ([r.dst] ++ (if c.op = 8 then [r.c] else []))

/-- A command must wait for an earlier transfer (R311). -/
def hazard (r : Refs) (c : TCmd) (x : ElvXfer) : Bool :=
  spansMeet (x.refs.writes x.cmd) (r.reads c ++ r.writes c) || spansMeet (x.refs.reads x.cmd) (r.writes c)

/-- The transfers of one stage in a queue. -/
def State.stageXfers (s : State) (cx : CmdCtx) : List ElvXfer :=
  (s.prog.xfers.getD cx.inst []).filter (fun x => x.frame = cx.run.frame ∧ x.idx = cx.run.idx)

/-- The operands of a command for its computation: a's 2:4 index nibbles follow b's values (R316; log entry 35). -/
def State.opnds (s : State) (cx : CmdCtx) (r : Refs) : Option Opnds :=
  match r.a, r.dst with
  | some a, some dst =>
    let nib := fun (g j : Nat) =>
      match r.b with
      | none => (0, false)
      | some b =>
        let (lo, n) := b.d.byteSpan
        let k := if cx.c.nMajor then j * (cx.c.k / 4) + g else g * cx.c.n + j
        let x := s.refByte cx b.space (lo.toNat + n + k / 2)
        (if k % 2 = 0 then x.1.toNat % 16 else x.1.toNat / 16, x.2)
    some ⟨s.opnd cx a, r.b.map (s.opnd cx), r.c.map (s.opnd cx), s.opnd cx dst, r.sa.map (s.opnd cx), r.sb.map (s.opnd cx), nib⟩
  | _, _ => none

/-- A grid of index tuples. -/
def grid (m n : Nat) : List (List Int) := (List.range m).flatMap (fun i => (List.range n).map (fun j => ix [i, j]))

/-- The distinct indices of its source operands that a compute command or a transfer reads (R348). -/
def TCmd.touches (c : TCmd) (r : Refs) : List (OpRef × List (List Int)) :=
  let of := fun (x : Option OpRef) (is : List (List Int)) => match x with | some y => [(y, is)] | none => []
  let dst := match r.dst with | some d => d.d.indices.map (fun t => t ++ List.replicate (6 - t.length) 0) | none => []
  let shift := fun (a : OpRef) => dst.map (fun i => (enum i).map (fun p => if p.1 < a.d.rank then p.2 - (a.d.lo p.1 : Int) else p.2))
  let kb := if c.sparse then c.k / 2 else c.k
  let aff := if c.usesAffine then of r.c (grid (min c.n 0xFFFFFF) 2) else []
  match c.op with
  | 1 => of r.a (grid c.m c.k) ++ of r.b (if c.nMajor then grid c.n kb else grid kb c.n) ++ aff
  | 2 =>
    let wo := match r.dst with | some d => max 1 (d.d.size 1) | none => 1
    let kh := max 1 (c.p 0x20 1)
    let kw := max 1 (c.p 0x21 1)
    let cin := match r.a with | some a => a.d.size 0 | none => 0
    let pads := match r.a with | some a => (a.d.lo 1, a.d.lo 2) | none => (0, 0)
    let is := dedup ((List.range c.m).flatMap (fun i => (List.range kh).flatMap (fun y => (List.range kw).flatMap (fun x =>
      (List.range cin).map (fun ch => [(ch : Int), ((i % wo * c.p 0x23 1 + x * c.p 0x25 1 : Nat) : Int) - pads.1,
        ((i / wo * c.p 0x22 1 + y * c.p 0x24 1 : Nat) : Int) - pads.2, 0, 0, 0])))))
    of r.a is ++ of r.b (if c.nMajor then grid c.n kb else grid kb c.n) ++ aff
  | 3 =>
    let w := c.p 0x20 2 * c.p 0x22 2
    of r.a (grid c.m w) ++ of r.b (grid c.n w) ++ of r.c (grid c.n w) ++ of r.sa (grid c.m c.n)
  | 4 => of r.a (grid c.m c.n) ++ of r.b (grid c.n 1) ++ of r.c (grid c.n 1)
  | 5 => of r.a dst ++ of r.b dst ++ aff
  | 6 =>
    let axis := c.p 0x21 1
    of r.a (match r.a with
      | some a => dst.flatMap (fun i => (List.range (a.d.size axis)).map (fun (k : Nat) => setAt i axis (k : Int)))
      | none => []) ++ aff
  | _ => match r.a with | some a => if c.op = 8 ∧ c.mx then of r.a (grid c.m c.k) else of r.a (shift a) | none => []

/-- What a command computes: the elements of dst, and those of c for a COPY to MX. -/
def TCmd.compute (c : TCmd) (o : Opnds) (free : Nat → Nat) : List OutEl × List OutEl :=
  match c.op with
  | 1 => (c.matmul o free, [])
  | 2 => (c.conv2d o free, [])
  | 3 => (c.attn o free, [])
  | 4 => (c.norm o free, [])
  | 5 => (c.vec o free, [])
  | 6 => (c.reduce o free, [])
  | 7 => (fetchOut o.a o.dst, [])
  | _ => if c.mx then c.mxCopy o.a else (copyOut o.a o.dst, [])

/-- Carry out a command on its operands: its fault records, its writes, its counts. Answers the statuses met and the elements written
to dst. -/
def State.runCmd (s : State) (cx : CmdCtx) (r : Refs) : State × List Status × List OutEl :=
  match s.opnds cx r, r.dst with
  | some o, some dst =>
    let srcs := [r.a, r.b, r.sa, r.sb].filterMap id ++ (if cx.c.op = 8 then [] else [r.c].filterMap id)
    let (s, st0) := srcs.foldl (fun (a : State × List Status) x => let (s, st) := a.1.readRef cx x; (s, a.2 ++ st)) (s, [])
    let base := s.free
    let (outs, scales) := cx.c.compute o (fun k => Config.freeValue (base + k))
    let s : State := { s with free := s.free + 3 * outs.length + 3 }
    let (n0, st1) := s.oobReads (cx.c.touches r)
    let elementwise := decide (cx.c.op = 5 ∨ cx.c.op = 7 ∨ cx.c.op = 8)
    let s := s.noteAlias cx dst.d.aliased
    let (s, st2, n1) := s.writeOuts cx dst srcs elementwise outs
    let (s, st3, n2) := match r.c with
      | some c => if cx.c.op = 8 then (s.noteAlias cx c.d.aliased).writeOuts cx c srcs false scales else (s, [], 0)
      | none => (s, [], 0)
    let strict := if 0 < n1 ∧ dst.d.strict then [St.OOB] else []
    ((s.noteOob cx (n0 + n1 + n2)), st0 ++ st1 ++ st2 ++ st3 ++ strict ++ poisonOf outs ++ poisonOf scales, outs)
  | _, _ => (s, [], [])

/-- A Tandem layer has ended when its stage has come to its next LAYER or END with its transfers done: an overrun of its bound is
counted (R318). -/
def State.tandemCheck (s : State) (inst : Nat) : State :=
  (s.progRuns Cls.ELV inst).foldl (fun (s : State) r =>
    match r.tandem, s.cmdAt Cls.ELV inst r with
    | some (bound, at'), some cx =>
      if (cx.c.op = 9 ∨ cx.c.op = 0x0A) ∧ (s.stageXfers cx).isEmpty then
        let s := s.modProg cx (fun r => { r with tandem := none })
        if bound < s.cyclesSince (engineDie Cls.ELV inst) at' then
          (s.bump (Reg.ELV_TANDEM_OVERRUN_COUNT inst)).setEvent (Reg.ELV_EVENT inst) 0x10
        else s
      else s
    | _, _ => s) s

/-- The next command of the k-th stage on ELV instance inst issues as `op`: nothing happens while it is another command or must wait;
a command that may not run ends its stage (R311). -/
def State.elvIssue (s : State) (op inst k : Nat) (go : State → CmdCtx → Refs → State) : State :=
  match s.cmdCtx Cls.ELV inst k with
  | none => s
  | some cx =>
    let undefinedOp := !(1 ≤ cx.c.op && cx.c.op ≤ 0x0A)
    if !s.mayIssue inst k cx.run || (cx.c.op ≠ op && !undefinedOp) then s
    else
      let u := cx.c.uses
      let r := s.refSet cx u
      let ends := r.all.filterMap (fun x => match x with | .status st => some st | _ => none)
      let faults := cx.elvFaults u r
      match faults with
      | why :: _ => if (s.stageXfers cx).isEmpty then
          (if ends.isEmpty then s.badCommand cx why else s.completeStage cx.q cx.run.frame cx.run.idx (cx.run.statuses ++ ends)) else s
      | [] =>
        if !ends.isEmpty then
          (if (s.stageXfers cx).isEmpty then s.completeStage cx.q cx.run.frame cx.run.idx (cx.run.statuses ++ ends) else s)
        else if r.all.any (fun x => x = .wait) then s
        else
          let heads := if r.all.any (fun x => match x with | .ref _ b => b | _ => false) then [St.POISON] else []
          let s := if heads.isEmpty then s else s.modProg cx (fun r => { r with statuses := r.statuses ++ heads })
          go s cx r.refs

/-- A compute command: it waits for the transfers it depends on and for its operands, then runs (R311). -/
def State.elvCompute (s : State) (op inst k : Nat) : State :=
  s.elvIssue op inst k (fun (s : State) cx r =>
    let srcs := [r.a, r.b, r.c, r.sa, r.sb].filterMap id
    if (s.stageXfers cx).any (hazard r cx.c) || !srcs.all (s.refReady cx) then s
    else
      let (s, st, _) := s.runCmd cx r
      (s.cmdDone cx st).tandemCheck inst)

/-- FETCH or COPY enters the transfer queue; a ninth transfer waits (R303, R311). -/
def State.elvTransfer (s : State) (op inst k : Nat) : State :=
  s.elvIssue op inst k (fun (s : State) cx r =>
    if 8 ≤ (s.prog.xfers.getD inst []).length then s
    else
      let s : State := { s with prog := { s.prog with
        xfers := modAt s.prog.xfers inst (fun xs => xs ++ [⟨cx.run.idx, cx.run.frame, cx.c, r⟩]) } }
      (s.modProg cx (fun r => { r with pc := r.pc + 1 })))

/-- The chart's voyages meet at the Bollard (R85, R115). -/
def State.bollardMode (s : State) (q : Fin 4) : Bool :=
  match s.quays[q].chart with
  | some c => c.cfg.bollard || decide (c.major = 2)
  | none => false

/-- The command LAYER or END that a drained stage has come to takes effect: the layer before it is complete (R312, R318). -/
def State.elvBoundary (s : State) (cx : CmdCtx) : State :=
  let s := if cx.run.layer = 0 then s else s.bump (Reg.ELV_LAYER_COUNT cx.inst)
  if cx.c.op = 0x0A then s.progEnd cx
  else
    let s := s.bump (Reg.ELV_CMD_COUNT cx.inst)
    s.modProg cx (fun r => { r with pc := r.pc + 1, layer := r.layer + 1, layerCmd := some cx.c, waiting := false })

/-- LAYER or END at the primary: it waits for the stage's streams to drain, and in Bollard mode, after a layer, for the voyage (R114,
R115). -/
def State.elvLayer (s : State) (op inst : Nat) : State :=
  s.elvIssue op inst 0 (fun (s : State) cx _ =>
    if !(s.stageXfers cx).isEmpty then s
    else if s.bollardMode cx.q && decide (0 < cx.run.layer) then s.modProg cx (fun r => { r with waiting := true })
    else s.elvBoundary cx)

/-- ELV_TRANSFER_COMPLETE (R311): transfer j of an instance's queue moves its data once nothing before it holds it back; a final COPY
sets the output berths it wrote to full. -/
def doElvTransferComplete (inst j : Nat) (s : State) : State :=
  let xs := s.prog.xfers.getD inst []
  match xs[j]? with
  | none => s
  | some x =>
    match (s.progRuns Cls.ELV inst).find? (fun r => r.frame = x.frame ∧ r.idx = x.idx) with
    | none => s
    | some run =>
      match s.cmdAt Cls.ELV inst run with
      | none => s
      | some cx0 =>
        let cx := { cx0 with c := x.cmd }
        let before := (xs.take j).filter (fun y => y.frame = x.frame ∧ y.idx = x.idx)
        if before.any (hazard x.refs x.cmd) || !([x.refs.a].filterMap id).all (s.refReady cx) then s
        else
          let (s, st, outs) := s.runCmd cx x.refs
          let s := match x.refs.dst with
            | some d => if x.cmd.final ∧ x.cmd.op = 8 then s.fillWritten cx d outs else s
            | none => s
          let s : State := { s with prog := { s.prog with xfers := modAt s.prog.xfers inst (fun xs => removeAt j xs) } }
          let s := s.bump (Reg.ELV_CMD_COUNT inst)
          (s.modProg cx (fun r => { r with statuses := r.statuses ++ st })).tandemCheck inst

/-- The voyage is met at the Bollard: in Bollard mode, every stage of it that is still to run waits (R115). -/
def State.voyageMet (s : State) (q : Fin 4) (n : FrameNo) (voyage : Nat) : Bool :=
  let runs := s.voyageRuns q n voyage
  let all := match s.quays[q].chart with
    | none => []
    | some c => c.allStages.filter (fun i => decide ((c.stageEngine i).cls = Cls.ELV) &&
        (match s.progStage q i with | some e => decide (e.voyage = voyage) | none => false))
  let met := all.all (fun i => runs.any (fun r => decide (r.2.idx = i)) || (match s.stageRun? q n i with | some r => r.status.isSome | none => true))
  !runs.isEmpty && s.bollardMode q && met && runs.all (fun r => r.2.waiting)

/-- BOLLARD_RELEASE (R115): every instance of a voyage has drained its layer; all go on together. -/
def doBollardRelease (q : Fin 4) (n : FrameNo) (voyage : Nat) (s : State) : State :=
  if s.voyageMet q n voyage then
    (s.voyageRuns q n voyage).foldl (fun (s : State) r => match s.cmdAt Cls.ELV r.1 r.2 with | some cx => s.elvBoundary cx | none => s) s
  else s

/-- The inputs of a stage's frame are there. -/
def State.inputsReady (s : State) (cx : CmdCtx) : Bool :=
  (s.quays[cx.q].stageE cx.run.idx).ins.all (fun h =>
    let x := s.quays[cx.q]
    match x.handle? h with
    | some e => e.kind ≠ 0 || (x.slotBerths h cx.t.slot).all (fun b => s.berthReady b cx.run.frame)
    | none => true)

/-- The next layer of the stage behind may issue into a bubble of the primary `p` with `left` cycles left: Tandem is enabled and the chart
does not use the Bollard, no Tandem layer of the stage runs, the quay is the primary's, the bound fits what is left and what is left is no
more than the bubble, and the inputs are there (R116, R318). -/
def State.tandemFits (s : State) (p cx : CmdCtx) (left : Nat) : Bool :=
  let bound := cx.c.p 0x20 4
  let bubble := match p.run.layerCmd with | some c => max (c.p 0x24 4) (c.p 0x28 4) | none => 0
  decide (cx.c.op = 9) && flag (s.reg (Reg.HM_QUAY_TANDEM cx.q)) 0 && !s.bollardMode cx.q && !cx.run.tandem.isSome && decide (p.q = cx.q) &&
    decide (bound ≤ left ∧ left ≤ bubble) && s.inputsReady cx && (s.stageXfers cx).isEmpty

/-- TANDEM_ISSUE (R116, R318): the next layer of the stage behind the primary is issued into a bubble with `left` cycles left. -/
def doTandemIssue (inst left : Nat) (s : State) : State :=
  match s.cmdCtx Cls.ELV inst 0, s.cmdCtx Cls.ELV inst 1 with
  | some p, some cx =>
    if s.tandemFits p cx left then
      let s := if cx.run.layer = 0 then s else s.bump (Reg.ELV_LAYER_COUNT inst)
      let s := (s.bump (Reg.ELV_CMD_COUNT inst)).bump (Reg.ELV_TANDEM_COUNT inst)
      s.modProg cx (fun r => { r with pc := r.pc + 1, layer := r.layer + 1, layerCmd := some cx.c, tandem := some (cx.c.p 0x20 4, s.time.now) })
    else s
  | _, _ => s

/-! The meanings. -/

/-- MATMUL. -/
def execMatmul (inst : Fin 12) (k : Nat) (s : State) : Res := act (fun s => s.elvCompute 1 inst k) s
/-- CONV2D. -/
def execConv2d (inst : Fin 12) (k : Nat) (s : State) : Res := act (fun s => s.elvCompute 2 inst k) s
/-- ATTN. -/
def execAttn (inst : Fin 12) (k : Nat) (s : State) : Res := act (fun s => s.elvCompute 3 inst k) s
/-- NORM. -/
def execNorm (inst : Fin 12) (k : Nat) (s : State) : Res := act (fun s => s.elvCompute 4 inst k) s
/-- VEC. -/
def execVec (inst : Fin 12) (k : Nat) (s : State) : Res := act (fun s => s.elvCompute 5 inst k) s
/-- REDUCE. -/
def execReduce (inst : Fin 12) (k : Nat) (s : State) : Res := act (fun s => s.elvCompute 6 inst k) s
/-- FETCH. -/
def execFetch (inst : Fin 12) (k : Nat) (s : State) : Res := act (fun s => s.elvTransfer 7 inst k) s
/-- COPY. -/
def execCopy (inst : Fin 12) (k : Nat) (s : State) : Res := act (fun s => s.elvTransfer 8 inst k) s
/-- LAYER. -/
def execLayer (inst : Fin 12) (s : State) : Res := act (fun s => s.elvLayer 9 inst) s
/-- END. -/
def execElvEnd (inst : Fin 12) (s : State) : Res := act (fun s => s.elvLayer 0x0A inst) s
/-- ELV_TRANSFER_COMPLETE. -/
def execElvTransferComplete (inst : Fin 12) (j : Nat) (s : State) : Res := act (doElvTransferComplete inst j) s
/-- BOLLARD_RELEASE. -/
def execBollardRelease (q : Fin 4) (n : FrameNo) (voyage : Nat) (s : State) : Res := act (doBollardRelease q n voyage) s
/-- TANDEM_ISSUE. -/
def execTandemIssue (inst : Fin 12) (left : Nat) (s : State) : Res := act (doTandemIssue inst left) s

end Sys2Proof.Machine
end

