-- ==== Sys2Proof/Machine/Layout.lean ====
section
/-! DEFINITION. The layout commands (R361-R367): checks, COPY, PERMUTE, GATHER, SCATTER, FILL and END, one stage and one command at a
time. -/
namespace Sys2Proof.Machine

/-- What a layout command names (R362). -/
def TCmd.layUses (c : TCmd) : Uses :=
  match c.op with
  | 0x08 => ⟨true, false, false, true, none, none⟩
  | 0x10 => ⟨true, false, false, true, none, none⟩
  | 0x11 => ⟨true, true, false, true, none, none⟩
  | 0x12 => ⟨true, true, false, true, none, none⟩
  | 0x13 => ⟨false, false, false, true, none, none⟩
  | _ => ⟨false, false, false, false, none, none⟩

/-- The padded extent of a descriptor in dimension d. -/
def Desc.padded (x : Desc) (d : Nat) : Nat := x.lo d + x.size d + x.hi d

/-- The sizes of a layout command's operands agree (R362, R363). -/
def TCmd.sizesAgree (c : TCmd) (a b dst : Option OpRef) : Bool :=
  match c.op, a, dst with
  | 0x08, some a, some d => decide (a.d.rank = d.d.rank) && (List.range 6).all (fun k => d.d.size k = a.d.padded k)
  | 0x10, some a, some d =>
    let perm := fun k => c.p (0x20 + k) 1
    decide (a.d.rank = d.d.rank) && (List.range 6).all (fun k => if k < a.d.rank then perm k < a.d.rank else perm k = k) &&
      (List.range 6).all (fun k => (List.range 6).any (fun j => perm j = k)) && (List.range 6).all (fun k => d.d.size k = a.d.padded (perm k))
  | 0x13, _, _ => true
  | op, some a, some d =>
    let numbered := if op = 0x11 then d.d else a.d
    decide (a.d.rank = d.d.rank ∧ a.d.blk = d.d.blk) && decide (c.m ≤ numbered.blocks) &&
      (match b with | some b => decide (b.d.format = 0x06 ∧ b.d.rank = 2 ∧ b.d.size 0 = 8 ∧ c.m ≤ b.d.size 1) | none => true)
  | _, _, _ => true

/-- What is wrong with a layout command, reasons ascending (R311, R362). -/
def CmdCtx.layFaults (cx : CmdCtx) (u : Uses) (r : RefSet) : List Nat :=
  let c := cx.c
  let known := [0x08, 0x0A, 0x10, 0x11, 0x12, 0x13].elem c.op
  let list := decide (c.op = 0x11 ∨ c.op = 0x12)
  let bads := r.all.filterMap (fun x => match x with | .bad k => some k | _ => none)
  let refs := r.refs
  let whole := match refs.dst with | some _ => true | none => false
  let rawDst := r.dst.holds (fun x => !(fmtRaw x.d.format || decide (x.d.format = 0x0F)))
  let missing := (u.a && r.a = .unused) || (u.b && r.b = .unused) || (u.dst && r.dst = .unused)
  if !known then [1]
  else
    (if bads.elem 2 || !rawDst then [2] else []) ++
    (if bads.elem 3 || c.epi0 ≠ 0 || c.epi1 ≠ 0 || c.flags % 32 ≠ 0 || decide (64 ≤ c.flags) || c.u 7 1 ≠ 0 || c.u 0x1C 4 ≠ 0 ||
        c.n ≠ 1 || c.k ≠ 1 || (if list then !(1 ≤ c.m && c.m ≤ 16777215) else c.m ≠ 1) || (!list && c.b ≠ 0xFFFF) || c.c ≠ 0xFFFF ||
        !r.a.holds (fun x => decide (x.d.format = c.fmtA)) || !r.dst.holds (fun x => decide (x.d.format = c.fmtOut)) ||
        (if list then c.fmtB ≠ 0x06 else c.fmtB ≠ 0xFF) || (whole && !c.sizesAgree refs.a refs.b refs.dst) then [3] else []) ++
    (if missing || bads.elem 5 then [5] else [])

/-- A run of accesses begins where an address does not follow the one before: how many runs begin off a line boundary (R355, R356). -/
def misRuns (n : Nat) : Option Int → List Int → Nat
  | _, [] => 0
  | prev, a :: as =>
    let starts := match prev with | some p => decide (a ≠ p + n) | none => true
    (if starts && decide (a % 64 ≠ 0) then 1 else 0) + misRuns n (some a) as

/-- Every in-bounds index in traversal order (R355). -/
def Desc.traversal (d : Desc) : List (List Int) :=
  let ds := d.byStride
  (indexTuples (ds.map d.size)).map (fun t =>
    (List.range 6).map (fun k =>
      match findIdx (fun x => x = k) ds with
      | some j => if d.stride k < 0 then (d.size k : Int) - 1 - t.getD j 0 else t.getD j 0
      | none => 0))

/-- Misaligned runs of an operand in the order of its traversal. -/
def OpRef.misaligned (r : OpRef) : Nat :=
  if r.d.isEmpty then 0
  else misRuns (fmtGroup r.d.format).2 none (dedup (r.d.traversal.map (fun i => (r.d.addr i).1)))

/-- The indices of its sources that a layout command reads (R348). -/
def TCmd.layTouches (c : TCmd) (r : Refs) (o : Opnds) : List (OpRef × List (List Int)) :=
  let full := fun (t : List Int) => t ++ List.replicate (6 - t.length) 0
  match r.a, r.dst with
  | some a, some d =>
    match c.op with
    | 0x08 => c.touches r
    | 0x10 =>
      let perm := fun k => c.p (0x20 + k) 1
      [(a, d.d.indices.map (fun i => (List.range 6).map (fun t =>
        match (List.range 6).find? (fun k => perm k = t) with
        | some k => (full i).getD k 0 - (a.d.lo t : Int)
        | none => 0)))]
    | 0x11 => match o.b with
      | none => []
      | some b => [(a, (List.range c.m).flatMap (fun k =>
          let (cs, skip, _) := listRow b k
          if skip || !a.d.inGrid cs then [] else (a.d.blockIndices cs).map full))]
    | 0x12 => match o.b with
      | none => []
      | some b => [(a, (List.range c.m).flatMap (fun k =>
          let (cs, skip, _) := listRow b k
          if skip || !d.d.inGrid cs then [] else (a.d.blockIndices (a.d.blockCoords k)).map full))]
    | _ => []
  | _, _ => []

/-- Elements of skipped or outlying list entries count as out of bounds (R363): per entry, one for each element of its block. -/
def TCmd.listOob (c : TCmd) (o : Opnds) : Nat :=
  match c.op, o.b with
  | 0x11, some b => sumNat ((List.range c.m).map (fun k =>
      let (cs, skip, _) := listRow b k
      if skip || !o.a.d.inGrid cs then ((o.dst.d.blockIndices (o.dst.d.blockCoords k)).filter o.dst.d.inBounds).length else 0))
  | 0x12, some b => sumNat ((List.range c.m).map (fun k =>
      let (cs, skip, _) := listRow b k
      if skip || !o.dst.d.inGrid cs then ((o.a.d.blockIndices (o.a.d.blockCoords k)).filter o.a.d.inBounds).length else 0))
  | _, _ => 0

/-- What a layout command writes. -/
def TCmd.layCompute (c : TCmd) (o : Opnds) : List OutEl :=
  match c.op with
  | 0x08 => copyOut o.a o.dst
  | 0x10 => c.permute o.a o.dst
  | 0x11 => c.gather o
  | 0x12 => c.scatter o
  | _ => fillOut o.dst

/-- Carry out a layout command. -/
def State.runLayout (s : State) (cx : CmdCtx) (r : Refs) : State :=
  match r.dst with
  | none => s
  | some dst =>
    match s.opnds cx { r with a := some (r.a.getD dst) } with
    | none => s
    | some o =>
      let srcs := [r.a, r.b].filterMap id
      let (s, st0) := srcs.foldl (fun (a : State × List Status) x => let (s, st) := a.1.readRef cx x; (s, a.2 ++ st)) (s, [])
      let outs := cx.c.layCompute o
      let (n0, st1) := s.oobReads (cx.c.layTouches r o)
      let listed := cx.c.listOob o
      let crosses := decide (cx.c.op = 0x08 ∨ cx.c.op = 0x10) && (match r.a with | some a => spansOverlap a.d dst.d | none => false)
      let s := s.noteAlias cx (dst.d.aliased || crosses)
      let (s, st2, n1) := s.writeOuts cx dst srcs (cx.c.op = 0x08) outs
      let lists := if listed = 0 then []
        else if (if cx.c.op = 0x11 then o.a.d.strict else dst.d.strict) then [St.OOB] else []
      let strict := if 0 < n1 ∧ dst.d.strict then [St.OOB] else []
      let s := s.noteOob cx (n0 + n1 + listed)
      let s := s.bumpBy (Reg.LAYOUT_MISALIGNED_COUNT cx.inst) (sumNat ((srcs ++ [dst]).map OpRef.misaligned))
      let s := if cx.c.final then s.fillWritten cx dst outs else s
      s.cmdDone cx (st0 ++ st1 ++ st2 ++ lists ++ strict ++ poisonOf outs)

/-- The next command of the stage on LAYOUT instance inst runs as `op`; a command that may not run ends its stage (R311, R362, R366). -/
def State.layIssue (s : State) (op inst : Nat) : State :=
  match s.cmdCtx Cls.LAYOUT inst 0 with
  | none => s
  | some cx =>
    let known := [0x08, 0x0A, 0x10, 0x11, 0x12, 0x13].elem cx.c.op
    if cx.c.op ≠ op && known then s
    else
      let u := cx.c.layUses
      let r := s.refSet cx u
      let ends := r.all.filterMap (fun x => match x with | .status st => some st | _ => none)
      match cx.layFaults u r with
      | why :: _ => if ends.isEmpty then s.badCommand cx why else s.completeStage cx.q cx.run.frame cx.run.idx (cx.run.statuses ++ ends)
      | [] =>
        if !ends.isEmpty then s.completeStage cx.q cx.run.frame cx.run.idx (cx.run.statuses ++ ends)
        else if r.all.any (fun x => x = .wait) then s
        else if op = 0x0A then s.progEnd cx
        else
          let refs := r.refs
          if !([refs.a, refs.b].filterMap id).all (s.refReady cx) then s
          else
            let heads := if r.all.any (fun x => match x with | .ref _ b => b | _ => false) then [St.POISON] else []
            let s := if heads.isEmpty then s else s.modProg cx (fun r => { r with statuses := r.statuses ++ heads })
            s.runLayout cx refs

/-- LAYOUT_COPY. -/
def execLayoutCopy (inst : Fin 2) (s : State) : Res := act (fun s => s.layIssue 0x08 inst) s
/-- PERMUTE. -/
def execPermute (inst : Fin 2) (s : State) : Res := act (fun s => s.layIssue 0x10 inst) s
/-- GATHER. -/
def execGather (inst : Fin 2) (s : State) : Res := act (fun s => s.layIssue 0x11 inst) s
/-- SCATTER. -/
def execScatter (inst : Fin 2) (s : State) : Res := act (fun s => s.layIssue 0x12 inst) s
/-- FILL. -/
def execFill (inst : Fin 2) (s : State) : Res := act (fun s => s.layIssue 0x13 inst) s
/-- LAYOUT_END. -/
def execLayoutEnd (inst : Fin 2) (s : State) : Res := act (fun s => s.layIssue 0x0A inst) s

end Sys2Proof.Machine
end

