-- ==== Sys2Proof/Machine/Hull.lean ====
section
/-! DEFINITION. The Hull code (R403-R405): the Reed-Solomon (72, 64) code over the field of x^8 + x^4 + x^3 + x^2 + 1, its encoder and its
bounded-distance decoder. Polynomials are coefficient lists, lowest power first, but for codewords, which run from x^71 down. -/
namespace Sys2Proof.Machine

/-- Multiplication in the field (R403). -/
def gfMulGo : Nat → Nat → Nat → Nat → Nat
  | 0, _, _, acc => acc
  | n + 1, a, b, acc =>
    let acc := if b % 2 = 1 then acc ^^^ a else acc
    let a := if a < 128 then 2 * a else (2 * a) ^^^ 0x11D
    gfMulGo n a (b / 2) acc

/-- a × b. -/
def gfMul (a b : Nat) : Nat := gfMulGo 8 a b 0

/-- a^n. -/
def gfPow (a : Nat) : Nat → Nat
  | 0 => 1
  | n + 1 => gfMul a (gfPow a n)

/-- 1 ÷ a. -/
def gfInv (a : Nat) : Nat := gfPow a 254

/-- α^n (R403). -/
def alpha (n : Nat) : Nat := gfPow 2 (n % 255)

/-- Sum of polynomials. -/
def gfPolyAdd : List Nat → List Nat → List Nat
  | [], b => b
  | a, [] => a
  | x :: a, y :: b => (x ^^^ y) :: gfPolyAdd a b

/-- A polynomial times a constant. -/
def gfScale (c : Nat) (a : List Nat) : List Nat := a.map (gfMul c)

/-- Product of polynomials. -/
def gfPolyMul : List Nat → List Nat → List Nat
  | [], _ => []
  | x :: a, b => gfPolyAdd (gfScale x b) (0 :: gfPolyMul a b)

/-- Value of a polynomial. -/
def gfEval (a : List Nat) (x : Nat) : Nat := a.foldr (fun c v => c ^^^ gfMul x v) 0

/-- The generator g(x) (R403). -/
def hullGen : List Nat := (List.range 8).foldl (fun g i => gfPolyMul g [alpha i, 1]) [1]

/-- One division step: the remainder, highest power first, after the next symbol. -/
def hullStep (g : List Nat) (r : List Nat) (d : Nat) : List Nat :=
  let f := d ^^^ r.headD 0
  ((r.drop 1 ++ [0]).zip g).map (fun (e : Nat × Nat) => e.1 ^^^ gfMul f e.2)

/-- The parity symbols of 64 data symbols, p_7 first (R403). -/
def hullParity (data : List Nat) : List Nat :=
  let g := ((hullGen.take 8).reverse)
  data.foldl (hullStep g) (List.replicate 8 0)

/-- The codeword of 64 data symbols (R403). -/
def hullEncode (data : List Nat) : List Nat := data ++ hullParity data

/-- The stored symbols of a line (R405): every parity symbol of a poisoned line is inverted. -/
def hullStored (data : List Nat) (poison : Bool) : List Nat :=
  data ++ (hullParity data).map (fun p => if poison then p ^^^ 0xFF else p)

/-- Syndromes S_0 to S_7 of a received word. -/
def hullSyndrome (w : List Nat) : List Nat :=
  (List.range 8).map (fun i => let a := alpha i; w.foldl (fun v c => gfMul v a ^^^ c) 0)

/-- The syndrome of the inversion of a poisoned line (R405). -/
def poisonSyndrome : List Nat := hullSyndrome (List.replicate 64 0 ++ List.replicate 8 0xFF)

/-- Berlekamp and Massey's state: C, B, L, m and b. -/
structure BmState where
  c : List Nat
  b : List Nat
  l : Nat
  m : Nat
  d0 : Nat
  deriving DecidableEq, Repr

/-- One step on syndrome n. -/
def BmState.step (syn : List Nat) (s : BmState) (n : Nat) : BmState :=
  let d := (List.range (s.l + 1)).foldl (fun v i => v ^^^ gfMul (s.c.getD i 0) (if i ≤ n then syn.getD (n - i) 0 else 0)) 0
  if d = 0 then { s with m := s.m + 1 }
  else
    let c := gfPolyAdd s.c (List.replicate s.m 0 ++ gfScale (gfMul d (gfInv s.d0)) s.b)
    if 2 * s.l ≤ n then ⟨c, s.c, n + 1 - s.l, 1, d⟩ else { s with c := c, m := s.m + 1 }

/-- The error locator and its length. -/
def hullLocator (syn : List Nat) : BmState := (List.range 8).foldl (BmState.step syn) ⟨[1], [1], 0, 1, 1⟩

/-- The first 8 coefficients of S(x) × C(x). -/
def hullEvaluator (syn c : List Nat) : List Nat := (gfPolyMul syn c).take 8

/-- The formal derivative. -/
def gfDerive (a : List Nat) : List Nat := (enum (a.drop 1)).map (fun e => if e.1 % 2 = 0 then e.2 else 0)

/-- Symbols a mode corrects (R404). -/
def hullReach (mode : Nat) : Nat := match mode with | 0 => 4 | 1 => 2 | _ => 0

/-- The errors of a received word whose syndrome is not zero: (index, value) of each, none where the word is uncorrectable. -/
def hullErrors (mode : Nat) (w : List Nat) : Option (List (Nat × Nat)) :=
  let syn := hullSyndrome w
  let s := hullLocator syn
  if s.l > hullReach mode then none
  else
    let om := hullEvaluator syn s.c
    let dc := gfDerive s.c
    let found := (List.range 72).filterMap (fun j =>
      let x := alpha (71 - j)
      let xi := gfInv x
      if gfEval s.c xi = 0 then some (j, gfMul x (gfMul (gfEval om xi) (gfInv (gfEval dc xi)))) else none)
    if found.length ≠ s.l then none
    else
      let fixed := found.foldl (fun v e => modAt v e.1 (· ^^^ e.2)) w
      if (hullSyndrome fixed).all (· = 0) then some found else none

/-- What a read of a line returns (R404-R406). -/
inductive HullRead where
  | clean
  | poisoned
  /-- Corrected: the symbols that were in error. -/
  | corrected (symbols : List (Nat × Nat))
  | uncorrectable
  deriving DecidableEq, Repr

/-- Decode a received word (R404, R405). -/
def hullRead (mode : Nat) (w : List Nat) : HullRead :=
  let syn := hullSyndrome w
  if syn.all (· = 0) then .clean
  else if syn = poisonSyndrome then .poisoned
  else match hullErrors mode w with
    | some es => .corrected es
    | none => .uncorrectable

end Sys2Proof.Machine
end

