-- ==== Sys2Proof/Machine/MemCmds.lean ====
section
/-! DEFINITION. The commands of the memory system: requests, walks and replies (R112, R350, R382-R386, R411-R419, R456, R460), the
Derailleur's window (R382), HBM reads under the Hull code (R403-R410), masked writes (R351), patrols (R407, R408), probes (R419) and page
remapping (R415). -/
namespace Sys2Proof.Machine

/-! Requests (R386, R413, R414). -/

/-- Most streams and requests of a stream that a quay's SHARES entry gives a port (R386). -/
def Quay.limits (x : Quay) (p : Nat) : Nat × Nat :=
  match x.chart with
  | some c => (match c.shareOf p with | some e => (e.streams, e.requests) | none => (8, 32))
  | none => (8, 32)

/-- The engine holds as many requests or streams as it may (R386): the request waits inside it. -/
def State.atLimit (s : State) (r : MemReq) (pa : Nat) : Bool :=
  let p := (portOf pa).1
  let (streams, requests) := (s.quays[r.tag.q]).limits p
  let e := ((s.quays[r.tag.q]).stageE r.tag.stage).engine
  let mine := s.mem.outstanding.filter (fun o => o.req.tag.quay = r.tag.quay && (portOf o.pa).1 = p &&
    decide (((s.quays[r.tag.q]).stageE o.req.tag.stage).engine = e))
  let others := dedup ((mine.filter (fun o => o.req.stream ≠ r.stream)).map (fun o => o.req.stream))
  decide (requests ≤ (mine.filter (fun o => o.req.stream = r.stream)).length) || decide (streams ≤ others.length)

/-- The messages of a remote read run of n bytes at offset o (R456): whether each is a STREAM, its offset and its count. -/
def runPieces (stream : Bool) : Nat → Nat → Nat → List (Bool × Nat × Nat)
  | 0, _, _ => []
  | fuel + 1, o, n =>
    if n = 0 then []
    else
      let big := stream && decide (16384 ≤ n)
      let c := if big then min n 67108864 else min n (4096 - o % 4096)
      (big, o, c) :: runPieces stream fuel (o + c) (n - c)

/-- Send a remote request of an engine (R453, R456): a read run as READs or STREAMs, or a write as its quay's packed WRITEs; a mask that
is not one range goes as a masked write. -/
def State.issueRemote (s : State) (r : MemReq) (pa : Nat) : State :=
  let peer := (pa - Addr.onnak) / 0x1000000000
  let o := (pa - Addr.onnak) % 0x1000000000
  if peer = s.nodeId then (s.gather r.tag St.OOB).answer St.OOB
  else match r.kind with
    | .read =>
      let lo := o / 64 * 64
      let n := ceilDiv (o + max r.run 1) 64 * 64 - lo
      (runPieces (decide (0x11 ≤ (s.peer peer).version)) (n / 64 + 1) lo n).foldl (fun (s : State) e =>
        let s := s.modMem (fun m => { m with outstanding := m.outstanding ++ [⟨r, fleetAddr peer e.2.1, s.time.now⟩] })
        s.sendRequest r.tag.q peer (if e.1 then .stream else .read) (if e.1 then Msg.STREAM else Msg.READ) r.tag 0 e.2.1 e.2.2 [] 0) s
    | .write =>
      let on := (List.range 64).filter (fun i => r.enables.testBit i)
      let first := on.head?.getD 0
      if on = (List.range on.length).map (· + first) then
        s.packWrite peer r.tag r.stream (o / 64 * 64 + first) (slice r.data first on.length) r.poison
      else
        let mask := (List.range 64).map (fun i => if r.enables.testBit i then 0xFF#8 else 0#8)
        let a := (s.flushPacks r.tag).sendMasked peer r.tag (o / 64 * 64) (slice r.data 0 64) mask true r.poison
        a.1.gather r.tag a.2

/-- A translated request passes the Derailleur and is issued (R382, R413). -/
def State.issueMem (s : State) (r : MemReq) (pa : Nat) : State :=
  let (p, d) := portOf pa
  let ls := if p = 5 then [((5, (if r.kind = .read then 0 else 1), (if r.kind = .read then 0 else 1)) : Lane)] else s.lanesTo r.tag p d r.kind
  match (if p = 5 then s.chargeUpTo r.tag.quay ls (max 1 (ceilDiv r.run 64)) else s.charge r.tag.quay ls 1) with
  | none => s.throttle r.tag.quay ls (.mem r)
  | some s =>
    match regionOf pa with
    | .onnak _ => s.issueRemote r pa
    | _ =>
      let line := pa / 64 * 64
      let s := match r.kind with
        | .write => (s.storeMasked line r.data r.enables r.poison).modMem (fun m => m.touch line 64)
        | .read => s
      s.modMem (fun m => { m with outstanding := m.outstanding ++ [⟨r, pa, s.time.now⟩] })

/-- The cached leaf of an address (R414). -/
def State.tlbHit (s : State) (r : MemReq) : Bool :=
  s.mem.tlb.any (fun e => e.quay = r.tag.quay && decide (e.tide = r.tag.tide) && e.va ≤ r.va && decide (r.va < e.va + e.size))

/-- Remember a leaf: 512 a quay, the oldest displaced (R414). -/
def State.tlbAdd (s : State) (t : ReqTag) (va kind leaf : Nat) : State :=
  let size := match kind with | 0 => 0x1000 | 1 => 0x10000 | 2 => 0x200000 | _ => 0x40000000
  let e : TlbEntry := ⟨t.quay, t.tide, va / size * size, size, leaf⟩
  s.modMem (fun m =>
    let mine := m.tlb.filter (fun x => x.quay = t.quay)
    let rest := m.tlb.filter (fun x => x.quay ≠ t.quay)
    { m with tlb := rest ++ (if mine.length ≥ 512 then mine.drop 1 else mine) ++ [e] })

/-- A request's address is translated: issued, or ended with a fault (R413, R416-R418). -/
def State.translate (s : State) (r : MemReq) : State :=
  match s.walk r.tag.q r.va (decide (r.kind = .write)) with
  | .ok pa kind leaf =>
    let s := if s.tlbHit r then s else s.tlbAdd r.tag r.va kind leaf
    s.issueMem r pa
  | .fault k => ((s.xltFault r.tag k r.va (decide (r.kind = .write)) r.descAddr r.indices).gather r.tag St.FAULT).answer St.FAULT

/-- ENGINE_REQUEST (R118, R379, R386, R413): checked for tide; issued on a cached translation, or waiting for a walk. -/
def doEngineRequest (r : MemReq) (s : State) : State :=
  if s.handleFenced r.tag then s.answerFenced r.tag
  else if s.staleTide r.tag then s.dropStale r.tag
  else
    let pa := match s.walk r.tag.q r.va (decide (r.kind = .write)) with | .ok pa _ _ => pa | .fault _ => 0
    if pa ≠ 0 ∧ s.atLimit r pa then s
    else if s.tlbHit r then s.translate r
    else s.modMem (fun m => { m with walks := m.walks ++ [r] })

/-- TRANSLATION_WALK_DONE (R411-R418): the walk for the i-th waiting request ends. -/
def doTranslationWalkDone (i : Nat) (s : State) : State :=
  match s.mem.walks[i]? with
  | none => s
  | some r => (s.modMem (fun m => { m with walks := m.walks.eraseIdx i })).translate r

/-- MEMORY_REPLY (R112, R118, R377): the i-th outstanding local request is answered, and its reply delivered or discarded. -/
def doMemoryReply (i : Nat) (s : State) : State :=
  match s.mem.outstanding[i]? with
  | none => s
  | some o =>
    match regionOf o.pa with
    | .onnak _ => s
    | _ =>
      let t := o.req.tag
      let s := s.modMem (fun m => { m with outstanding := m.outstanding.eraseIdx i })
      if s.staleTide t || s.staleGen t then s.bump (Reg.HM_QUAY_STALE_DROP_COUNT t.q)
      else
        let s := s.progress t.q
        if o.req.kind = .write then s.answer St.OK
        else
          let line := o.pa / 64 * 64
          let p := s.marked line
          let s := if p then s.gather t St.POISON else s
          s.answer (if p then St.POISON else St.OK) 0 (s.bytesAt line 64) p

/-- DRL_WINDOW (R382): every bucket is refilled, and what waited is tried again, oldest first. -/
def doDrlWindow (s : State) : State :=
  let lanes := allQuays.flatMap (fun q => (List.range 6).flatMap (fun p => (List.range 3).flatMap (fun c => (List.range 2).map (fun d =>
    (bucketKey q (p, c, d), s.budget q (p, c, d))))))
  let free := (List.range 6).map (fun p => (freeKey p, s.freeBudget p))
  let waiting := s.mem.drlWait
  let s := s.modMem (fun m => { m with drlWait := [], buckets := (lanes ++ free).filter (fun e => e.2 ≠ 0) })
  waiting.foldl (fun (s : State) w => match w with
    | .mem r => if s.staleTide r.tag then s.dropStale r.tag else s.translate r
    | .berth r => s.retryBerth r
    | .fleet n p b => s.retryFleet n p b) s

/-! HBM under the Hull code (R403-R410). -/

/-- The pin a symbol of a line is carried by: DQ pins 0 to 31, ECC pins 32 to 35 (R403). -/
def pinOf (sym : Nat) : Nat := if sym < 64 then sym / 2 else 32 + (71 - sym) / 2

/-- A pin of group g in error on a line, within the present patrol pass: 16 lines are a pin fault (R410). -/
def State.notePin (s : State) (g pc pin line : Nat) : State :=
  let key := (g, pc * 36 + pin, line)
  if s.mem.pinErrs.elem key then s
  else
    let errs := s.mem.pinErrs ++ [key]
    let s := s.modMem (fun m => { m with pinErrs := errs })
    if 16 ≤ (errs.filter (fun e => e.1 = g && e.2.1 = pc * 36 + pin)).length then s.retireGroup g else s

/-- The received symbols of a line with an error pattern: (symbol index in codeword order, value) (R403, R405). -/
def State.received (s : State) (line : Nat) (err : List (Nat × Nat)) : List Nat :=
  err.foldl (fun w e => modAt w e.1 (fun v => v ^^^ (e.2 % 256))) (hullStored ((s.bytesAt line 64).map (·.toNat)) (s.marked line))

/-- A line is read and decoded (R404-R406, R409, R410): the state, the bytes, the mark, and whether it was corrected. -/
def State.hbmLine (s : State) (line : Nat) (err : List (Nat × Nat)) : State × List Byte × Bool × Bool :=
  match groupOf line with
  | none => (s, [], false, false)
  | some g =>
    let st := stackOf g
    let pc := (pchOf g (line - groupBase g)).1 % 4
    let w := s.received line err
    let mode := fld (s.reg (Reg.HBMC_HULL_MODE st)) 1 0
    let raw := (w.take 64).map (BitVec.ofNat 8)
    match hullRead mode w with
    | .clean => (s, raw, false, false)
    | .poisoned => (s.bump (Reg.HBMC_POISON_READ_COUNT st), raw, true, false)
    | .corrected es =>
      let fixed := es.foldl (fun v e => modAt v e.1 (fun x => x ^^^ e.2)) w
      let s := s.bump (Reg.HBMC_CE_COUNT st)
      let s := if 3 ≤ es.length then s.retirePage st (hbmPage line) false else s
      let s := es.foldl (fun (s : State) e => s.notePin g pc (pinOf e.1) line) s
      (s, (fixed.take 64).map (BitVec.ofNat 8), false, true)
    | .uncorrectable =>
      let s := ((s.bump (Reg.HBMC_UE_COUNT st)).setReg64 (Reg.HBMC_LAST_UE_LO st) line).setEvent (Reg.HBMC_EVENT st) 1
      (s.retirePage st (hbmPage line) true, raw, true, false)

/-- HBM_READ (R406): a line at a device address, with the errors its cells show. -/
def doHbmRead (a : Nat) (err : List (Nat × Nat)) (s : State) : State :=
  match groupOf a with
  | none => s.answer St.OOB
  | some _ =>
    let (s, bs, p, _) := s.hbmLine (a / 64 * 64) err
    s.answer (if p then St.POISON else St.OK) 0 bs p

/-- HBM_MASKED_WRITE (R350, R351, R405): one read-modify-write of a line; bit i of the mask enables bit i of the line. -/
def doHbmMaskedWrite (a : Nat) (data : List Byte) (mask : Nat) (poison : Bool) (s : State) : State :=
  match groupOf a with
  | none => s.answer St.OOB
  | some _ =>
    let line := a / 64 * 64
    let old := s.bytesAt line 64
    let new := (enum old).map (fun e =>
      let m : Byte := BitVec.ofNat 8 (mask >>> (8 * e.1))
      (e.2 &&& ~~~m) ||| (data.getD e.1 0#8 &&& m))
    let whole := decide (mask % 2 ^ 512 = 2 ^ 512 - 1)
    let keep := s.marked line && !whole
    (s.store line new (poison || keep)).answer St.OK

/-- Lines of a pseudo-channel: 18,874,368 (R408). -/
def pchLines : Nat := 18874368

/-- The device address of line i of a pseudo-channel (R399). -/
def pchLine (ch i : Nat) : Nat :=
  let p := 64 * i
  groupBase (ch / 4) + (((p >>> 8) <<< 10) + (ch % 4) * 256 + p % 256)

/-- A device line lies on a pseudo-channel. -/
def onPch (ch line : Nat) : Bool :=
  match groupOf line with
  | some g => decide ((pchOf g (line - groupBase g)).1 = ch)
  | none => false

/-- PATROL_READ (R408-R410): pseudo-channel ch (0 to 63) reads its next line and writes back a correction. -/
def doPatrolRead (ch : Nat) (err : List (Nat × Nat)) (s : State) : State :=
  let st := ch / 32
  if ch ≥ 64 ∨ !flag (s.reg (Reg.HBMC_STATUS st)) 3 then s
  else
    let i := Tab.get nat0 s.mem.patrolAt ch
    let line := pchLine ch i
    let (s, _, _, fixed) := s.hbmLine line err
    let s :=
      if fixed then
        let twice := (s.mem.patrolPrev.getD st []).elem line
        let s := s.modMem (fun m => { m with patrolNow := modAt m.patrolNow st (addNew line) })
        if twice then s.retirePage st (hbmPage line) false else s
      else s
    if i + 1 < pchLines then s.modMem (fun m => { m with patrolAt := Tab.set nat0 m.patrolAt ch (i + 1) })
    else
      let here := fun (l : Nat) => onPch ch l
      let s := s.modMem (fun m => { m with
        patrolAt := Tab.set nat0 m.patrolAt ch 0
        patrolPrev := modAt m.patrolPrev st (fun ls => ls.filter (fun l => !here l) ++ (m.patrolNow.getD st []).filter here)
        patrolNow := modAt m.patrolNow st (fun ls => ls.filter (fun l => !here l))
        pinErrs := m.pinErrs.filter (fun e => !here e.2.2) })
      if ch % 32 = 31 then s.bump (Reg.HBMC_PATROL_PASS_COUNT st) else s

/-- Words of a bank of SRAM kind m: 0 scratchpad bank, 1 Ledger block, 2 tile store, 3 line buffers (R407, R420). -/
def sramWords (m : Nat) : Nat := match m with | 0 => 384 * 512 | 1 => 131072 | 2 => 262144 | _ => 1

/-- SRAM banks of a kind: scratchpad banks, Ledger blocks, tile stores; the line buffers of the camera pipes (R408, log entry 61). -/
def sramBanks (m : Nat) : Nat := match m with | 0 => 128 | 1 => 16 | 2 => 12 | 3 => 4 | _ => 0

/-- SRAM_PATROL_READ (R407, R408): a bank's next word, with the number of bits of its codeword in error. -/
def doSramPatrolRead (m bank errs : Nat) (s : State) : State :=
  if sramBanks m ≤ bank then s
  else
    let key := m * 256 + bank
    let w := Tab.get nat0 s.mem.sramPatrolAt key
    let s := s.modMem (fun x => { x with sramPatrolAt := Tab.set nat0 x.sramPatrolAt key ((w + 1) % sramWords m) })
    if errs = 0 then s
    else if errs = 1 then s.bump (Reg.HBMC_SRAM_CE_COUNT m)
    else
      let s := s.bump (Reg.HBMC_SRAM_UE_COUNT m)
      match m with
      | 0 =>
        let b := bank / 64 * 24576 + (bank % 64) / 8 * 3072 + 8 * (w / 512) + bank % 8
        (s.modMem (fun x => x.mark ((berthAddr b + 8 * (w % 512)) / 64))).retagPoison b
      | 1 => { s with ledger := s.ledger.setTrack (bank * blockTracks + w / 8) Track.zero }
      | 2 =>
        (s.modMem (fun x => { x with tilePoison := Tab.set mark0 x.tilePoison ((bank * 0x200000 + 8 * w) / 64) true })).setEvent
          (Reg.ELV_EVENT bank) 32
      | _ => s

/-- HBMC_RETIRE_ADD (R409): firmware restores a retired page while every quay is EMPTY. -/
def doHbmcRetireAdd (st page : Nat) (s : State) : State :=
  if st > 1 then s
  else if s.anyQuay (fun x => decide (x.st ≠ .empty)) then (s.ignoredWrite (Reg.HBMC_RETIRE_ADD st)).answer St.OK
  else (s.retirePage st (page % 2 ^ 24) false).answer St.OK

/-! Probes and remapping. -/

/-- XLT_PROBE (R419): a write of XLT_PROBE_VA_HI starts a walk. -/
def doXltProbe (val : Word) (s : State) : State :=
  let s := s.setReg Reg.XLT_PROBE_VA_HI (val &&& 0x7FFFF#32)
  let va := (s.reg Reg.XLT_PROBE_VA_LO).toNat + 2 ^ 32 * fld val 15 0
  ((s.setBits Reg.XLT_PROBE_PA_HI 16 16 0).modMem (fun m => { m with probe := some ⟨fld val 17 16, va, flag val 18⟩ })).answer St.OK

/-- XLT_PROBE_DONE (R419, R421). -/
def doXltProbeDone (s : State) : State :=
  match s.mem.probe with
  | none => s
  | some p =>
    let s := s.modMem (fun m => { m with probe := none })
    match s.walk (quayAt p.quay) p.va p.write with
    | .ok pa kind _ => (s.put Reg.XLT_PROBE_PA_LO pa).put Reg.XLT_PROBE_PA_HI (pa / 2 ^ 32 % 65536 + 65536 + kind * 2 ^ 20)
    | .fault k => (s.put Reg.XLT_PROBE_PA_LO 0).put Reg.XLT_PROBE_PA_HI (65536 + k * 2 ^ 17)

/-- PAGE_REMAP (R411, R415): the MC stores a new leaf for a movable page of a Piloted quay and invalidates what is cached. -/
def doPageRemap (q : Fin 4) (va leaf : Nat) (s : State) : State :=
  match s.quays[q].chart with
  | none => s.answer St.FENCED
  | some c =>
    match s.walkFrom va 4 1 (s.addr48 (Reg.XLT_QUAY_ROOT_LO q)) true with
    | some (some (e, level, table, _)) =>
      if !c.cfg.piloted || !bitOf e 6 then s.answer St.FENCED
      else
        let size := leafSize level e
        let s := s.store (table + 8 * vaIndex va level) (natLE 8 leaf)
        (s.modMem (fun m => { m with tlb := m.tlb.filter (fun x =>
          !(decide (x.quay = q.val) && decide (x.va < va / size * size + size) && decide (va / size * size < x.va + x.size))) })).answer St.OK
    | _ => s.answer St.FENCED

/-! The meanings. -/

/-- ENGINE_REQUEST. -/
def execEngineRequest (r : MemReq) (s : State) : Res := act (doEngineRequest r) s
/-- TRANSLATION_WALK_DONE. -/
def execTranslationWalkDone (idx : Nat) (s : State) : Res := act (doTranslationWalkDone idx) s
/-- MEMORY_REPLY. -/
def execMemoryReply (idx : Nat) (s : State) : Res := act (doMemoryReply idx) s
/-- DRL_WINDOW. -/
def execDrlWindow (s : State) : Res := act doDrlWindow s
/-- HBM_READ. -/
def execHbmRead (a : Nat) (err : List (Nat × Nat)) (s : State) : Res := act (doHbmRead a err) s
/-- HBM_MASKED_WRITE. -/
def execHbmMaskedWrite (a : Nat) (data : List Byte) (mask : Nat) (poison : Bool) (s : State) : Res :=
  act (doHbmMaskedWrite a data mask poison) s
/-- PATROL_READ. -/
def execPatrolRead (ch : Fin 64) (err : List (Nat × Nat)) (s : State) : Res := act (doPatrolRead ch err) s
/-- SRAM_PATROL_READ. -/
def execSramPatrolRead (m : Fin 4) (bank errs : Nat) (s : State) : Res := act (doSramPatrolRead m bank errs) s
/-- HBMC_RETIRE_ADD. -/
def execHbmcRetireAdd (st : Fin 2) (page : Nat) (s : State) : Res := act (doHbmcRetireAdd st page) s
/-- XLT_PROBE. -/
def execXltProbe (val : Word) (s : State) : Res := act (doXltProbe val) s
/-- XLT_PROBE_DONE. -/
def execXltProbeDone (s : State) : Res := act doXltProbeDone s
/-- PAGE_REMAP. -/
def execPageRemap (q : Fin 4) (va leaf : Nat) (s : State) : Res := act (doPageRemap q va leaf) s

end Sys2Proof.Machine
end

