-- ==== Sys2Proof/Machine/Power.lean ====
section
/-! DEFINITION. Clocks, power and the management plane (R31, R32, R402, R542-R549, R560), MSI vectors (R519) and the PCIe root port (R517). -/
namespace Sys2Proof.Machine

/-! Temperatures (R402, R544-R546). -/

/-- Emergency and critical trip temperature of the part (R545). -/
def State.emergencyAt (s : State) : Int := if s.customs.fuses.industrial then 105 else 95
def State.tripAt (s : State) : Int := if s.customs.fuses.industrial then 120 else 110

/-- Update the power state. -/
def State.modPmc (s : State) (f : PmcState → PmcState) : State := { s with pmc := f s.pmc }

/-- A thermal emergency begins or ends (R544): it ends once every die sensor is 5 °C below the emergency temperature and every stack is back at
its normal refresh. -/
def State.emergencyCheck (s : State) : State :=
  let t := s.pmc.temps.filterMap id
  let hot := t.any (fun x => decide (s.emergencyAt ≤ x)) || !s.pmc.hotStacks.isEmpty
  let normal := (List.range 2).all (fun k => !flag (s.reg (Reg.HBMC_STATUS k)) 1)
  let cool := t.all (fun x => decide (x ≤ s.emergencyAt - 5)) && s.pmc.hotStacks.isEmpty && normal
  if !s.pmc.emergency && hot then
    (((s.modPmc (fun p => { p with emergency := true })).bump Reg.PMC_EMERGENCY_COUNT).setEvent Reg.PMC_EVENT 1).service 7
  else if s.pmc.emergency && cool then (s.modPmc (fun p => { p with emergency := false })).setEvent Reg.PMC_EVENT 2
  else s

/-- A critical trip (R546): THERMTRIP_N is asserted and the device is held in warm reset. -/
def State.trip (s : State) : State :=
  if s.pmc.tripHold then s
  else
    let s := (s.modPmc (fun p => { p with tripHold := true })).emit (.pin "THERMTRIP_N" false)
    s.warmReset true

/-- The trip's hold ends (R546, R557): the warm reset completes unless WARM_RST_N holds it, and trip_seen and code 0x08 are set. -/
def State.tripEnd (s : State) : State :=
  let s := (s.modPmc (fun p => { p with tripHold := false, tripOnce := [] })).emit (.pin "THERMTRIP_N" true)
  if s.coldHeld then s
  else
    let s := if s.pmc.rstLow then s else s.warmRelease
    ((s.setBits Reg.PMC_STATUS 2 2 1).setEvent Reg.PMC_EVENT 16).service 8

/-- SENSOR_SAMPLE (R544-R546, R552): the 32 die sensors are sampled. -/
def doSensorSample (temps : List Int) (s : State) : State :=
  let ts := (List.range 32).map (fun k => temps.getD k 0)
  let over' := (enum ts).filterMap (fun e => if s.tripAt ≤ e.2 then some e.1 else none)
  let twice := over'.any (fun k => s.pmc.tripOnce.elem k)
  let s := s.modPmc (fun p => { p with temps := ts.map some, tripOnce := over' })
  let s := if s.coldHeld then s else s.emergencyCheck
  if twice then s.trip
  else if s.pmc.tripHold && ts.all (fun t => decide (t ≤ s.tripAt - 20)) then s.tripEnd
  else s

/-! Clocks and supplies (R542, R543, R560). -/

/-- The set value of a rail for a clock, in tenths of a mV: rails 0 and 1 for a core clock, 4 and 5 for a cluster's (R560). -/
def State.railFor (s : State) (r mhz : Nat) : Nat :=
  if r < 2 then 6000 + 250 * (mhz - 900) / 100 + 10 * s.customs.fuses.trimMv
  else if r < 4 then 7500
  else 6000 + 150 * (mhz - 600) / 100

/-- A clock on the 100 MHz grid between two limits. -/
def gridMhz (lo hi v : Nat) : Nat := clampNat lo hi (v / 100 * 100)

/-- The core clock that die d takes at the boundary (R543, R544, R560): 900 MHz in an emergency, else the one set, at or above the floor, once its
supply covers it. -/
def State.coreAt (s : State) (d : Nat) : Nat :=
  let old := s.pmc.core.getD d 900
  let want := if s.pmc.emergency then 900 else max (s.pmc.coreNext.getD d 900) (gridMhz 900 1800 (s.requiredFloor + 99))
  if want ≤ old ∨ s.railFor d want ≤ s.pmc.vout.getD d 0 then want else old

/-- The clock that cluster c takes at the boundary. -/
def State.apuAt (s : State) (c : Nat) : Nat :=
  let old := s.pmc.apu.getD c 2600
  let want := s.pmc.apuNext.getD c 2600
  if want ≤ old ∨ s.railFor (4 + c) want ≤ s.pmc.vout.getD (4 + c) 0 then want else old

/-- The clocks set in the epoch before take effect (R542, R548). -/
def State.applyClocks (s : State) : State :=
  let core := [s.coreAt 0, s.coreAt 1]
  let apu := [s.apuAt 0, s.apuAt 1]
  s.modPmc (fun p => { p with
    core := core, apu := apu
    changing := (List.range 2).map (fun d =>
      let old := p.core.getD d 900
      if core.getD d 900 = old then none else some (old, core.getD d 900)) })

/-- A START that waited for the change of a clock completes, or fails for an emergency (R543, R544). -/
def State.startAfterClock (s : State) (q : Fin 4) : State :=
  match s.quays[q].start, s.quays[q].chart with
  | some v, some c =>
    if !v.waitClock ∨ s.pmc.epochAt ≤ v.acceptedAt then s
    else if c.cfg.floorMhz ≤ min (s.coreMhz 0) (s.coreMhz 1) then s.startDone q v.acceptedAt
    else if s.pmc.emergency then (s.startFails q St.BUSY []).recoverFailed q
    else s
  | _, _ => s

/-- CLOCK_CHANGE_DONE (R542, R543): 2 µs after the boundary the change is complete, and so is a START that waited for it. -/
def doClockChangeDone (s : State) : State :=
  if s.time.now < s.pmc.epochAt + 2000 then s
  else allQuays.foldl (fun (s : State) q => s.startAfterClock q) (s.modPmc (fun p => { p with changing := [none, none] }))

/-- The clock that the supply of rail r is set for: the higher of its clock now and next, and of the floor (R560). -/
def State.voutMhz (s : State) (r : Nat) : Nat :=
  let p := s.pmc
  if r < 2 then max (max (p.core.getD r 900) (p.coreNext.getD r 900)) (gridMhz 900 1800 (s.requiredFloor + 99))
  else max (p.apu.getD (r - 4) 2600) (p.apuNext.getD (r - 4) 2600)

/-- Two attempts without acknowledgement leave rail r and its clock unchanged (R560). -/
def State.voutFails (s : State) (r : Nat) : State :=
  (s.modPmc (fun p => { p with
    voutTries := setAt p.voutTries r 0
    coreNext := if r < 2 then setAt p.coreNext r (p.core.getD r 900) else p.coreNext
    apuNext := if 4 ≤ r then setAt p.apuNext (r - 4) (p.apu.getD (r - 4) 2600) else p.apuNext })).service 9

/-- VOUT_COMMAND (R560): the MC sets the supply of rail r for the higher of its clock now and next; two attempts without acknowledgement leave the
rail and the clock unchanged. -/
def doVoutCommand (r : Nat) (ack : Bool) (s : State) : State :=
  if 6 ≤ r then s
  else
    let v := s.railFor r (s.voutMhz r)
    let s := s.emit (.pmbus (0x40 + r) ([0x21#8] ++ natLE 2 (v * 4096 / 10000)))
    if ack then s.modPmc (fun p => { p with vout := setAt p.vout r v, voutTries := setAt p.voutTries r 0 })
    else if s.pmc.voutTries.getD r 0 = 0 then s.modPmc (fun p => { p with voutTries := setAt p.voutTries r 1 })
    else s.voutFails r

/-- PMB_ALERT (R560): rails and clocks stay as they are, and code 0x09 is raised. -/
def doPmbAlert (s : State) : State := (s.modPmc (fun p => { p with coreNext := p.core, apuNext := p.apu })).service 9

/-! The epoch (R382, R547-R549). -/

/-- Applied shares of a quay on a port at the boundary (R382, R383): those written, clamped to the chart's; the scaled minimums while the port is
oversubscribed. -/
def State.shareAt (s : State) (q : Fin 4) (c : Chart) (p : Nat) : Nat :=
  let lo := s.minsOn q c p
  match c.shareOf p with
  | none => 0
  | some e =>
    if 64 < s.portMinSum p then shareWord lo
    else
      let w := s.reg (Reg.DRL_QP_SHARE_NEXT (q * 8 + p))
      shareWord (clampNat lo.1 e.rdMax (fld w 6 0), clampNat lo.2.1 e.wrMax (fld w 14 8), clampNat lo.2.2 e.rmMax (fld w 22 16))

/-- Shares take effect (R382). -/
def State.applyShares (s : State) : State :=
  allQuays.foldl (fun (s : State) q =>
    match s.quays[q].chart with
    | some c => if !s.quays[q].st.active then s
        else (List.range 6).foldl (fun (s : State) p => s.put (Reg.DRL_QP_SHARE (q * 8 + p)) (s.shareAt q c p)) s
    | none => s) s

/-- Each controller reads its stack's temperature (R402), and reports an emergency while it is at 95 °C or above (R420, R544). -/
def State.readStacks (s : State) (ts : List Int) : State :=
  (enum (ts.take 2)).foldl (fun (s : State) e =>
    let old := s.reg (Reg.HBMC_STATUS e.1)
    let double := if 85 ≤ e.2 then true else if e.2 ≤ 80 then false else flag old 1
    let hot := decide (95 ≤ e.2)
    let s := s.put (Reg.HBMC_STATUS e.1) (bitAt double 1 + bitAt hot 2 + 8 + (fromSigned 8 e.2) * 256)
    let s := if hot && !flag old 2 then s.setEvent (Reg.HBMC_EVENT e.1) 8 else s
    s.modPmc (fun p => { p with hotStacks := if hot then addNew e.1 p.hotStacks else p.hotStacks.filter (fun k => k ≠ e.1) })) s

/-- The steps of R547 that are available: 1 clusters, 2 Piloted shares, 3 core clocks. -/
def State.envelopeSteps (s : State) : List Nat :=
  let apu := s.pmc.apuNext.any (fun f => decide (1000 < f))
  let shares := allQuays.any (fun q => match s.quays[q].chart with
    | some c => c.cfg.piloted && s.quays[q].st.active && (List.range 6).any (fun p =>
        let lo := s.minsOn q c p
        let w := s.reg (Reg.DRL_QP_SHARE (q * 8 + p))
        decide (lo.1 < fld w 6 0 ∨ lo.2.1 < fld w 14 8 ∨ lo.2.2 < fld w 22 16))
    | none => false)
  let core := s.pmc.coreNext.any (fun f => decide (max 900 s.requiredFloor < f))
  (if apu then [1] else []) ++ (if shares then [2] else []) ++ (if core then [3] else [])

/-- Move the Piloted shares by 4 units per class, down to the chart minimums or up to its maximums (R547). -/
def State.stepShares (s : State) (down : Bool) : State :=
  allQuays.foldl (fun (s : State) q =>
    match s.quays[q].chart with
    | some c =>
      if !c.cfg.piloted || !s.quays[q].st.active then s
      else (List.range 6).foldl (fun (s : State) p =>
        match c.shareOf p with
        | none => s
        | some e =>
          let lo := s.minsOn q c p
          let w := s.reg (Reg.DRL_QP_SHARE (q * 8 + p))
          let mv := fun (v a b : Nat) => if down then max a (v - 4) else min (max a b) (v + 4)
          s.put (Reg.DRL_QP_SHARE_NEXT (q * 8 + p))
            (shareWord (mv (fld w 6 0) lo.1 e.rdMax, mv (fld w 14 8) lo.2.1 e.wrMax, mv (fld w 22 16) lo.2.2 e.rmMax))) s
    | none => s) s

/-- One step of R547 down or up. -/
def State.envelopeStep (s : State) (k : Nat) (down : Bool) : State :=
  let floor := gridMhz 900 1800 (s.requiredFloor + 99)
  match k with
  | 1 => s.modPmc (fun p => { p with apuNext := (enum p.apuNext).map (fun e =>
      if down then max 1000 (e.2 - 100) else min (gridMhz 600 2600 (fld (s.reg (Reg.PMC_APU_REQ e.1)) 11 0)) (e.2 + 100)) })
  | 2 => s.stepShares down
  | _ => s.modPmc (fun p => { p with coreNext := p.coreNext.map (fun f => if down then max floor (f - 100) else min 1800 (f + 100)) })

/-- The MC's own choices for the next epoch, within R31, R543 and R549: no clock rises while a step of R547 is in force. -/
def State.mcChoices (s : State) (o : McOrders) : State :=
  let floor := gridMhz 900 1800 (s.requiredFloor + 99)
  let lo := if s.pmc.emergency then 900 else floor
  let free := s.pmc.steps.isEmpty
  s.modPmc (fun p => { p with
    coreNext := (List.range 2).map (fun d =>
      let now := p.core.getD d 900
      let want := gridMhz lo 1800 (o.core.getD d now)
      if free then want else max lo (min want now))
    apuNext := (List.range 2).map (fun c =>
      let now := p.apu.getD c 2600
      let want := min (gridMhz 600 2600 (o.apu.getD c now)) (gridMhz 600 2600 (fld (s.reg (Reg.PMC_APU_REQ c)) 11 0))
      if free then want else min want now) })

/-- The envelope (R547): one step down when the average exceeds it, one back when it is 5 % below; none left counts. -/
def State.envelope (s : State) (powerMw : Nat) : State :=
  let limit := fld (s.reg Reg.PMC_ENVELOPE) 7 0 * 1000
  let over' := decide (limit < powerMw)
  let s := s.modPmc (fun p => { p with overEnvelope := over' })
  let s := if over' then s.setEvent Reg.PMC_EVENT 4 else s
  let settle := fun (s : State) =>
    let s := s.modPmc (fun p => { p with overRun := 0 })
    if flag (s.reg Reg.PMC_SERVICE_ACTIVE) 10 then s.serviceEnd 10 else s
  if over' then
    match s.envelopeSteps with
    | k :: _ => settle ((s.envelopeStep k true).modPmc (fun p => { p with steps := k :: p.steps }))
    | [] =>
      let s := (s.modPmc (fun p => { p with overRun := p.overRun + 1 })).bump Reg.PMC_OVER_ENVELOPE_COUNT
      if s.pmc.overRun = 100 then s.service 10 else s
  else
    let s := settle s
    match s.pmc.steps with
    | k :: rest => if powerMw * 100 < limit * 95 then (s.envelopeStep k false).modPmc (fun p => { p with steps := rest }) else s
    | [] => s

/-- A stage's placement may change to an ENGINES entry (R31, R87, R549): a Piloted quay's, between pilotable instances of one class, ELV within
elv_mask, while none of its runs is under way, and with step 9 still passing. -/
def State.moveOk (s : State) (q : Fin 4) (c : Chart) (i e : Nat) : Bool :=
  let a := c.stageEngine i
  let b := c.engineAt e
  let mask := match c.pilot with | some p => p.elvMask | none => 0
  let c' := { c with stages := modAt c.stages i (fun st => { st with engine := e }) }
  c.cfg.piloted && decide (i < c.stages.length ∧ e < c.engines.length) && a.pilotable && b.pilotable && decide (a.cls = b.cls) &&
    (decide (a.cls ≠ Cls.ELV) || (bitOf mask a.inst && bitOf mask b.inst)) &&
    s.quays[q].frames.all (fun f => f.stages.all (fun r => decide (r.idx ≠ i) || !r.running)) && (c'.scheduleFaults q).isEmpty

/-- Placements of Piloted stages, at most max_moves of a quay in an epoch (R549). -/
def State.applyMoves (s : State) (ms : List (Nat × Nat × Nat)) : State :=
  (ms.foldl (fun (a : State × List Nat) m =>
    match quayOf? m.1 with
    | none => a
    | some q =>
      match a.1.quays[q].chart with
      | none => a
      | some c =>
        let most := match c.pilot with | some p => p.maxMoves | none => 0
        if (a.2.filter (fun k => k = m.1)).length < most ∧ a.1.moveOk q c m.2.1 m.2.2 then
          (a.1.modQuay q (fun x => { x with chart := some { c with stages := modAt c.stages m.2.1 (fun st => { st with engine := m.2.2 }) } }),
            m.1 :: a.2)
        else a) (s, [])).1

/-- EPOCH_BOUNDARY (R31, R382, R402, R543, R544, R547-R549): the settings of the epoch that ends take effect; the MC measures it and decides the
next. -/
def doEpochBoundary (m : EpochSample) (o : McOrders) (s : State) : State :=
  if s.time.now < (s.pmc.epochAt / 1000000 + 1) * 1000000 then s
  else
    let s := (s.modPmc (fun p => { p with epochAt := s.time.now / 1000000 * 1000000 })).wrapBy Reg.PMC_EPOCH 1
    let s := (s.readStacks m.stackTemps).emergencyCheck
    let s := (s.applyClocks).applyShares
    let s := s.applyMoves o.moves
    let s := s.put Reg.PMC_POWER_MW m.powerMw
    let s := (List.range 16).foldl (fun (s : State) r => s.put (Reg.PMC_RAIL_MA r) (m.railMa.getD r 0)) s
    (s.mcChoices o).envelope m.powerMw

/-! MSI vectors and PCIe (R517, R519, R537). -/

/-- TOP_MSI_WRITE (R519, R537): a vector enabled while its pending bit is set sends one MSI. -/
def doTopMsiWrite (v : Nat) (val : Word) (s : State) : State :=
  if 256 ≤ v then s
  else if 12 ≤ fld val 4 1 then s.ignoredWrite (Reg.TOP_MSI v)
  else
    let s := s.put (Reg.TOP_MSI v) (fld val 16 0)
    let a := Reg.TOP_MSI_PENDING (v / 32)
    if flag val 0 ∧ flag (s.reg a) (v % 32) then (s.setBits a (v % 32) (v % 32) 0).sendMsi v else s

/-- PCIE_INBOUND (R396, R400, R517): an endpoint's request reaches system groups only; an MSI reaches an interrupt file. -/
def doPcieInbound (r : PcieReq) (s : State) : State :=
  let reaches := fun (a n : Nat) => decide (0 < n) && s.inSystemGroup a && s.inSystemGroup (a + n - 1)
  match r with
  | .read a n =>
    if !reaches a n then (s.emit (.note "Unsupported Request" a n)).answer St.OOB
    else
      let d := s.devRead a n
      s.answer d.1 0 d.2.1 d.2.2
  | .write a bs =>
    if !reaches a bs.length then (s.emit (.note "Unsupported Request" a bs.length)).answer St.OOB
    else
      let d := s.devWrite .pcie a bs
      d.1.answer d.2
  | .msi h sup i => { s with imsic := addNew (h, sup, i) s.imsic }

/-- EPOCH_BOUNDARY. -/
def execEpochBoundary (m : EpochSample) (o : McOrders) (s : State) : Res := act (doEpochBoundary m o) s
/-- CLOCK_CHANGE_DONE. -/
def execClockChangeDone (s : State) : Res := act doClockChangeDone s
/-- SENSOR_SAMPLE: the sensors go on sampling through a warm reset and its hold (R552). -/
def execSensorSample (temps : List Int) (s : State) : Res :=
  keep s (if s.coldHeld && !s.pmc.tripHold then s.begin else doSensorSample temps s.begin)
/-- VOUT_COMMAND. -/
def execVoutCommand (r : Fin 6) (ack : Bool) (s : State) : Res := act (doVoutCommand r ack) s
/-- PMB_ALERT. -/
def execPmbAlert (s : State) : Res := act doPmbAlert s
/-- TOP_MSI_WRITE. -/
def execTopMsiWrite (v : Fin 256) (val : Word) (s : State) : Res := act (doTopMsiWrite v val) s
/-- PCIE_INBOUND. -/
def execPcieInbound (r : PcieReq) (s : State) : Res := act (doPcieInbound r) s

end Sys2Proof.Machine
end

