-- ==== Sys2Proof/Machine/Rings.lean ====
section
/-! DEFINITION. The command rings (R520-R523), the dispatch of neural requests (R321) and the Salvage unit's replays (R511). -/
namespace Sys2Proof.Machine

/-- Doorbells are taken while the quay is loaded (R522). -/
def QState.takesRequests : QState → Bool
  | .loaded => true
  | st => st.active

/-- CMDRING_DOORBELL (R522): a new producer index. -/
def doCmdringDoorbell (q : Fin 4) (val : Word) (s : State) : State :=
  let n := fld val 11 0
  let k := s.ringK (Reg.HM_CMDRING_BASE_HI q)
  if !s.quays[q].st.takesRequests then (s.bump (Reg.HM_CMDRING_BAD_STATE_COUNT q)).answer St.BAD_STATE
  else if k = 0 ∨ n ≥ 2 ^ k then (s.ignoredWrite (Reg.HM_CMDRING_PRODUCER q)).answer St.OK
  else (s.put (Reg.HM_CMDRING_PRODUCER q) n).answer St.OK

/-- The request that a command-ring entry names (R521). -/
def entryRequest (b : List Byte) : Request := ⟨leAt b 8 8, BitVec.ofNat 8 (leAt b 2 1), leAt b 4 2, none, 0#32, 0⟩

/-- Opcode defined and reserved bytes 0 (R521). -/
def entryOk (b : List Byte) : Bool :=
  decide (leAt b 0 1 = 1 ∧ leAt b 1 1 = 0 ∧ leAt b 3 1 = 0 ∧ leAt b 6 2 = 0 ∧ leAt b 0x10 48 = 0)

/-- A stage id names a request-driven stage of the loaded chart (R305, R321). -/
def State.requestStage (s : State) (q : Fin 4) (id : Nat) : Option Nat :=
  match s.quays[q].chart with
  | some c => (c.stageIdx id).bind (fun i => if s.requestDriven q i then some i else none)
  | none => none

/-- How an entry is judged (R522): none where it is accepted. -/
def State.judgeEntryCmd (s : State) (q : Fin 4) (b : List Byte) : Option Status :=
  let r := entryRequest b
  if !entryOk b then some St.REFUSED
  else if r.tide ≠ s.quays[q].tide then some St.STALE_TIDE
  else if (s.requestStage q r.stage).isNone then some St.REFUSED
  else none

/-- Requests accepted and not dispatched. -/
def Quay.waitingRequests (x : Quay) : List Request := x.requests.filter (fun r => r.voyage.isNone)

/-- CMDRING_ENTRY_READ (R522): the next entry, while fewer than 256 requests wait. -/
def doCmdringEntryRead (q : Fin 4) (s : State) : State :=
  let k := s.ringK (Reg.HM_CMDRING_BASE_HI q)
  let p := fld (s.reg (Reg.HM_CMDRING_PRODUCER q)) 11 0
  let c := fld (s.reg (Reg.HM_CMDRING_CONSUMER q)) 11 0
  if k = 0 ∨ p = c ∨ !s.quays[q].st.takesRequests ∨ (s.quays[q].waitingRequests).length ≥ 256 then s
  else
    let b := s.bytesAt (s.ringBase (Reg.HM_CMDRING_BASE_LO q) + 64 * c) 64
    let s := s.put (Reg.HM_CMDRING_CONSUMER q) ((c + 1) % 2 ^ k)
    let r := entryRequest b
    match s.judgeEntryCmd q b with
    | some st => s.requestRecord q r st
    | none => s.modQuay q (fun x => { x with requests := x.requests ++ [r] })

/-! Dispatch (R321). -/

/-- A request may be dispatched on STAGES entry i of a frame: the window is open, and no earlier request of the frame on the stage is
unsettled. -/
def Quay.takesRun (x : Quay) (f : FrameRec) (i : Nat) : Bool :=
  !f.squashed && !f.committed && f.opened.elem (x.stageE i).window &&
    f.stages.any (fun r => r.idx = i && !r.closed && (!r.dispatched || (r.status.isSome && r.request.isNone)))

/-- The newest frame on which a request of a stage may be dispatched. -/
def Quay.openFor (x : Quay) (i : Nat) : Option FrameRec := (x.frames.filter (fun f => x.takesRun f i)).getLast?

/-- Voyage contexts of a quay that nothing uses (R305, R321). -/
def State.freeVoyages (s : State) (q : Fin 4) : List Nat :=
  match s.quays[q].chart with
  | none => []
  | some c =>
    let fixed := c.allStages.filterMap (fun i => (s.progStage q i).bind (fun p => if p.isRequest then none else some p.voyage))
    let taken := s.quays[q].requests.filterMap (·.voyage)
    (List.range c.cfg.voyages).filter (fun v => !fixed.elem v && !taken.elem v)

/-- Run a request on STAGES entry i of frame n. `old` is its record among the quay's requests, if it is there. -/
def State.runRequest (s : State) (q : Fin 4) (n : FrameNo) (i : Nat) (old : Option Request) (r : Request) : State :=
  let s := s.modQuay q (fun x =>
    let rest := match old with | some o => x.requests.erase o | none => x.requests
    { x with requests := rest.filter (fun e => e.voyage.isSome) ++ [r] ++ rest.filter (fun e => e.voyage.isNone) })
  let s := s.modStage q n i (fun t => { t with
    dispatched := false, held := false, status := none, gathered := [], ready := [], request := some r, draining := false, signalled := false })
  s.dispatchStage q n i

/-- NEURAL_REQUEST_DISPATCH (R321, R511): the first waiting request, in ring order, whose stage's window is open; `placed` is the MC's
answer of R87. -/
def doNeuralRequestDispatch (q : Fin 4) (placed : Bool) (s : State) : State :=
  if !s.quays[q].st.active ∨ s.salv[q].phase = .replaying then s
  else
    let x := s.quays[q]
    let able := x.waitingRequests.findSome? (fun r =>
      (s.requestStage q r.stage).bind (fun i => (x.openFor i).map (fun f => (r, i, f.num))))
    match able with
    | none => s
    | some (r, i, n) =>
      match s.freeVoyages q with
      | [] => s.completeRequest q r St.BUSY
      | v :: _ =>
        if !placed then s.completeRequest q r St.NO_ROOM
        else (s.runRequest q n i (some r) { r with voyage := some v, frame := n, dispatchedAt := s.time.now }).settlePiloted q

/-- REPLAY_DISPATCH (R511): the first suspect, once its stage's window is open. -/
def doReplayDispatch (q : Fin 4) (s : State) : State :=
  let v := s.salv[q]
  if v.phase ≠ .replaying ∨ v.replay.isSome ∨ !s.quays[q].st.active then s
  else match v.suspects with
    | [] => s.modSalv q (fun v => { v with phase := .idle })
    | r :: rest =>
      match (s.requestStage q r.stage).bind (fun i => (s.quays[q].openFor i).map (fun f => (i, f.num))) with
      | none => s
      | some (i, n) =>
        let r := { r with frame := n, dispatchedAt := s.time.now }
        let s := s.modSalv q (fun v => { v with suspects := rest, replay := some r, replayAt := s.time.now })
        (s.runRequest q n i none r).settlePiloted q

/-- REPLAY_TIMEOUT (R511): the replay is still running 1 ms after its dispatch; it is the culprit. -/
def doReplayTimeout (q : Fin 4) (s : State) : State :=
  match s.salv[q].replay with
  | none => s
  | some r =>
    if s.time.now < s.salv[q].replayAt + 1000000 then s
    else
      let s := (s.replayEnded q false).culprit q r
      match s.requestStage q r.stage with
      | none => s
      | some i => ((s.stopEngine q r.frame i).finishStage q r.frame i St.HANG).settleRemote q

/-- CMDRING_DOORBELL. -/
def execCmdringDoorbell (q : Fin 4) (val : Word) (s : State) : Res := act (doCmdringDoorbell q val) s
/-- CMDRING_ENTRY_READ. -/
def execCmdringEntryRead (q : Fin 4) (s : State) : Res := act (doCmdringEntryRead q) s
/-- NEURAL_REQUEST_DISPATCH. -/
def execNeuralRequestDispatch (q : Fin 4) (placed : Bool) (s : State) : Res := act (doNeuralRequestDispatch q placed) s
/-- REPLAY_DISPATCH. -/
def execReplayDispatch (q : Fin 4) (s : State) : Res := act (doReplayDispatch q) s
/-- REPLAY_TIMEOUT. -/
def execReplayTimeout (q : Fin 4) (s : State) : Res := act (doReplayTimeout q) s

end Sys2Proof.Machine
end

