-- ==== Sys2Proof/Machine/Salvage.lean ====
section
/-! DEFINITION. The Salvage unit's commands (R498-R505, R510, R512, R514). -/
namespace Sys2Proof.Machine

/-- DETECTOR_SAMPLE (R499, R512): a quay with a cycle among its blocked records is hung. `space` lists, by quay, the producers held for
berth space in a fused ring, each with the consumer that holds it. -/
def doDetectorSample (space : List (Fin 4 × Nat × Nat)) (s : State) : State :=
  allQuays.foldl (fun (s : State) q =>
    let mine := (space.filter (fun e => e.1 = q)).map (·.2)
    let cycle := waitCycle ((s.waits q mine).filter (fun w => s.isBlocked w))
    if cycle.isEmpty then s else s.declareHung q 1 cycle) s

/-- NO_PROGRESS (R500): the timer runs while a unit of the quay waits and the wait is not external. -/
def doNoProgress (q : Fin 4) (space : List (Nat × Nat)) (s : State) : State :=
  match s.quays[q].chart with
  | none => s
  | some c =>
    let limit := if c.cfg.noProgressUs = 0 then 100 else c.cfg.noProgressUs
    let inner := (s.waits q space).filter (fun w => w.kind ≠ 4)
    match inner with
    | [] => s
    | w :: ws =>
      let from' := max s.salv[q].progressAt (ws.foldl (fun m e => min m e.since) w.since)
      if (s.quays[q].st = .running ∨ s.quays[q].st = .docking) ∧ from' + limit * 1000 ≤ s.time.now then s.declareHung q 2 [] else s

/-- Who may write SALVAGE_QUAY_CMD (R514). -/
def mayDeclare (ini : Initiator) : Bool := decide (ini = .cg ∨ ini = .mc)

/-- The status of the last command of SALVAGE_QUAY_CMD. -/
def State.salvStatus (s : State) (q : Fin 4) (st : Status) : State := (s.modSalv q (fun v => { v with lastCmdStatus := st })).answer st

/-- A command of SALVAGE_QUAY_CMD that the state rejects (R512). -/
def State.salvBadState (s : State) (q : Fin 4) : State := (s.bump (Reg.SALVAGE_QUAY_BAD_STATE_COUNT q)).salvStatus q St.BAD_STATE

/-- SALVAGE_DECLARE (R498, R512, R514). -/
def doSalvageDeclare (q : Fin 4) (ini : Initiator) (s : State) : State :=
  if !mayDeclare ini then (s.ignoredWrite (Reg.SALVAGE_QUAY_CMD q)).answer St.OK
  else if !s.quays[q].st.active then s.salvBadState q
  else (s.declareHung q 4 []).salvStatus q St.OK

/-- SNAPSHOT (R504, R512, R514). -/
def doSnapshot (q : Fin 4) (ini : Initiator) (s : State) : State :=
  if !mayDeclare ini then (s.ignoredWrite (Reg.SALVAGE_QUAY_CMD q)).answer St.OK
  else if !s.quays[q].st.active ∨ s.salv[q].dump.isSome then s.salvBadState q
  else
    let n := ((s.quays[q].requests).filter (fun r => r.voyage.isSome)).length
    ((s.beginDump q 5 [] n).modSalv q (fun v => { v with phase := if v.phase = .idle then .dumping else v.phase })).salvStatus q St.OK

/-- SHADOW_MIRROR (R501): a unit of the quay mirrors its key state. -/
def doShadowMirror (q : Fin 4) (cls inst : Nat) (s : State) : State :=
  let u : UnitId := (cls, inst)
  if !(s.quayUnits q).elem u then s
  else { s with shadows := s.shadows.filter (fun e => !(decide (e.quay = q.val) && decide (e.unit = u))) ++
    [⟨q, u, s.time.now, s.unitRecord q u []⟩] }

/-- Another quay's dump has the side-band ring: one that began before, or with it and of a lower quay number (R512). -/
def State.ringTaken (s : State) (q : Fin 4) (d : Dump) : Bool :=
  allQuays.any (fun r => r ≠ q && (match s.salv[r].dump with
    | some e => decide (e.declaredAt < d.declaredAt ∨ (e.declaredAt = d.declaredAt ∧ r < q))
    | none => false))

/-- A dump ends; a recovery or its giving up then resets the quay (R510). recover_gave_up follows once the quay is EMPTY. -/
def State.dumpEnded (s : State) (q : Fin 4) : State :=
  let s := s.endDump q
  let v := s.salv[q]
  if s.quays[q].st ≠ .faulted then s
  else if v.recovering then s.enterResetting q .reset true
  else if v.gaveUp then (s.enterResetting q .reset false).modSalv q (fun v => { v with gaveUp := true })
  else s

/-- The next unit of a running dump is recorded: live, or from its shadow (R502, R505). -/
def State.dumpNext (s : State) (q : Fin 4) (answered : Bool) : State :=
  match s.salv[q].dump with
  | none => s
  | some d =>
    if s.ringTaken q d then s
    else match d.todo with
      | [] => s.dumpEnded q
      | u :: rest =>
        let rec' := if d.overtaken then s.shadowRecord q u 2 d.cycle
          else if answered then s.unitRecord q u d.cycle else s.shadowRecord q u 1 d.cycle
        let s := s.dumpRecord q rec'
        if rest.isEmpty then s.dumpEnded q else s

/-- DETECTOR_SAMPLE. -/
def execDetectorSample (space : List (Fin 4 × Nat × Nat)) (s : State) : Res := act (doDetectorSample space) s
/-- NO_PROGRESS. -/
def execNoProgress (q : Fin 4) (space : List (Nat × Nat)) (s : State) : Res := act (doNoProgress q space) s
/-- SALVAGE_DECLARE. -/
def execSalvageDeclare (q : Fin 4) (ini : Initiator) (s : State) : Res := act (doSalvageDeclare q ini) s
/-- SNAPSHOT. -/
def execSnapshot (q : Fin 4) (ini : Initiator) (s : State) : Res := act (doSnapshot q ini) s
/-- SHADOW_MIRROR. -/
def execShadowMirror (q : Fin 4) (cls inst : Nat) (s : State) : Res := act (doShadowMirror q cls inst) s
/-- DUMP_UNIT_ANSWER (R502). -/
def execDumpUnitAnswer (q : Fin 4) (s : State) : Res := act (fun s => s.dumpNext q true) s
/-- DUMP_UNIT_TIMEOUT (R502): the unit has not answered within 2 µs. -/
def execDumpUnitTimeout (q : Fin 4) (s : State) : Res := act (fun s => s.dumpNext q false) s
/-- DUMP_RELEASE (R503): a 1 clears held. -/
def execDumpRelease (q : Fin 4) (s : State) : Res := act (fun s => (s.modSalv q (fun v => { v with held := false })).answer St.OK) s

end Sys2Proof.Machine
end

