-- ==== Sys2Proof/Machine/Time.lean ====
section
/-! DEFINITION. Harbour time (R40, R41, R44, R461, R462): one TIME_CLK cycle, the tick origin, gPTP messages, held steps and the loss
of lock. -/
namespace Sys2Proof.Machine

/-- Slewing moves harbour time by at most 250 ppm of a 2 ns cycle: 500 units of 10^-6 ns (R41). -/
def slewUnits : Nat := 500

/-- One TIME_CLK cycle: 2 ns, less or more by what slewing has gathered (R40, R41). -/
def TimeState.tick (t : TimeState) : TimeState :=
  if t.slew = 0 then { t with now := t.now + 2, slewFrac := 0, slewing := false }
  else
    let f := t.slewFrac + slewUnits
    if f < 1000000 then { t with now := t.now + 2, slewFrac := f, slewing := true }
    else
      let up := decide (0 < t.slew)
      { t with
        now := if up then t.now + 3 else t.now + 1
        slew := if up then t.slew - 1 else t.slew + 1
        slewFrac := f - 1000000
        slewing := true }

/-- What the block does when no command waits: one TIME_CLK cycle, unless it is held in cold reset (log entry 1). -/
def State.idle (s : State) : State := if s.coldHeld then s.begin else { s.begin with time := s.time.tick }

/-- TICK_ORIGIN_WRITE (R44): a write of both halves. -/
def doTickOriginWrite (_ini : Initiator) (val : BitVec 64) (s : State) : State :=
  if s.anyQuay (fun x => x.st.active) then (s.ignoredWrite Reg.HM_TICK_ORIGIN_LO).answer St.OK
  else (s.setReg64 Reg.HM_TICK_ORIGIN_LO val.toNat).answer St.OK

/-- A step is held until no quay is RUNNING or DOCKING (R41). -/
def State.stepHeld (s : State) : Bool := s.anyQuay (fun x => decide (x.st = .running ∨ x.st = .docking))

/-- HARBOUR_TIME_STEP (R40, R41): the held step is applied; harbour time never decreases, so a step back is slewed. -/
def doHarbourTimeStep (s : State) : State :=
  match s.time.step with
  | none => s
  | some d =>
    if s.stepHeld then s
    else { s with
      time := { s.time with
        now := s.time.now + d.toNat, step := none, slew := min d 0, slewing := decide (d < 0), locked := decide (0 ≤ d) }
      pmc := { s.pmc with epochAt := if d ≤ 0 then s.pmc.epochAt else (s.time.now + d.toNat) / 1000000 * 1000000 } }

/-! gPTP (R461). The layout of messages is IEEE 802.1AS-2020's (log entry 49). -/

/-- A big-endian number. -/
def beAt (b : List Byte) (o n : Nat) : Nat := leNat (slice b o n).reverse

/-- A PTP timestamp of 6 bytes of seconds and 4 of nanoseconds, in ns. -/
def ptpStamp (b : List Byte) (o : Nat) : Nat := beAt b o 6 * 1000000000 + beAt b (o + 6) 4

/-- A message's correction field in ns. -/
def ptpCorrection (b : List Byte) : Int := toSigned 64 (beAt b 8 8) / 65536

/-- What an Announce says of its grandmaster, identity first: identity, priority1, quality, priority2, steps removed. -/
def announceOf (b : List Byte) : List Byte := slice b 53 8 ++ slice b 47 1 ++ slice b 48 4 ++ slice b 52 1 ++ slice b 61 2

/-- This node's own description. -/
def State.ownClock (s : State) : List Byte :=
  let p := s.reg Reg.ONNAK_TIME_PRIORITY
  s.clockId ++ natLE 1 (fld p 7 0) ++ [0xF8#8, 0xFE#8, 0x43#8, 0x6A#8] ++ natLE 1 (fld p 15 8) ++ [0#8, 0#8]

/-- The order of the best master clock algorithm: priority1, quality, priority2, identity, steps removed; lower is better. -/
def clockRank (m : List Byte) : Nat := beAt (slice m 8 1 ++ slice m 9 4 ++ slice m 13 1 ++ slice m 0 8 ++ slice m 14 2) 0 16

/-- An Announce on a port. -/
def State.announced (s : State) (port : Nat) (b : List Byte) : State :=
  let m := announceOf b
  let own := clockRank s.ownClock
  let best := match s.gptp.master with | some g => clockRank g | none => own
  let same := s.gptp.master.isSome && decide (s.gptp.port = port)
  let g := s.gptp
  if same then
    if clockRank m < own then { s with gptp := { g with master := some m } } else { s with gptp := { g with master := none, sync := none } }
  else if clockRank m < best then { s with gptp := { g with master := some m, port := port, sync := none } }
  else s

/-- The known asymmetry of a port in ns (R461, R466). -/
def State.asymmetry (s : State) (p : Nat) : Int := if p < 4 then toSigned 32 (s.reg (Reg.ONNAK_PORT_ASYM p)).toNat else 0

/-- A correction of harbour time by `d` ns (R41): whether it needs a step is the device's, and free (log entry 50). -/
def State.correct (s : State) (d : Int) : State :=
  let (v, s) := s.draw
  if d ≠ 0 ∧ v % 2 = 1 then { s with time := { s.time with step := some d, locked := false } }
  else { s with time := { s.time with step := none, slew := d, slewFrac := 0, slewing := decide (d ≠ 0), locked := true } }

/-- GPTP_MESSAGE (R461): a message of domain 0 on a port (0 to 3 fleet ports, 4 ETH_MGMT); `sent` is the stamp of the device's own
Pdelay_Req that a Pdelay_Resp_Follow_Up answers. -/
def doGptpMessage (port : Nat) (b : List Byte) (sent : Nat) (s : State) : State :=
  if b.length < 44 ∨ beAt b 4 1 ≠ 0 ∨ port > 4 then s
  else
    let seq := beAt b 30 2
    let g := s.gptp
    match beAt b 0 1 % 16 with
    | 0x0B => if b.length < 64 then s else s.announced port b
    | 0x00 => if g.master.isSome ∧ g.port = port then { s with gptp := { g with sync := some (port, seq, s.time.now) } } else s
    | 0x08 =>
      match g.sync with
      | some (p, q, at') =>
        if p ≠ port ∨ q ≠ seq then s
        else
          let master : Int := ptpStamp b 34 + ptpCorrection b + g.delays.getD port 0 + s.asymmetry port
          ({ s with gptp := { g with sync := none } } : State).correct (master - at')
      | none => s
    | 0x02 => s.emit (.note "PDELAY_RESP" port seq)
    | 0x03 => { s with gptp := { g with pdelay := some (port, ptpStamp b 34, s.time.now) } }
    | 0x0A =>
      match g.pdelay with
      | some (p, t2, t4) =>
        if p ≠ port then s
        else
          let turn : Int := (t4 : Int) - sent - ((ptpStamp b 34 : Int) - t2)
          { s with gptp := { g with pdelay := none, delays := setAt g.delays port (turn / 2).toNat } }
      | none => s
    | _ => s

/-- LOSS_OF_LOCK (R462): a binding that is BOUND sets ONNAK_EVENT.unlocked; bindings stay as they are. -/
def doLossOfLock (s : State) : State :=
  if !s.time.locked then s
  else
    let s : State := { s with time := { s.time with locked := false } }
    if s.onnak.binds.any (fun b => decide (b.st = .bound)) then s.setEvent Reg.ONNAK_EVENT onnakUnlocked else s
where
  /-- ONNAK_EVENT.unlocked. -/
  onnakUnlocked : Nat := 16

/-- TICK_ORIGIN_WRITE. -/
def execTickOriginWrite (ini : Initiator) (val : BitVec 64) (s : State) : Res := act (doTickOriginWrite ini val) s
/-- HARBOUR_TIME_STEP. -/
def execHarbourTimeStep (s : State) : Res := done s (if s.coldHeld then s.begin else doHarbourTimeStep s.begin)
/-- GPTP_MESSAGE. -/
def execGptpMessage (port : Fin 5) (b : List Byte) (sent : Nat) (s : State) : Res := act (doGptpMessage port b sent) s
/-- LOSS_OF_LOCK. -/
def execLossOfLock (s : State) : Res := act doLossOfLock s

end Sys2Proof.Machine
end

