-- ==== Sys2Proof/Machine/Registers.lean ====
section
/-! DEFINITION. The bus accesses of the control window (R10-R21): reads, with the capture of 64-bit values and read-to-clear registers, and
writes, each stored, acted on, or ignored and counted. Addresses are control-window addresses (R397). -/
namespace Sys2Proof.Machine

/-! 64-bit pairs (R20). -/

/-- The _LO registers: first address, stride, count. Each has its _HI register at the next offset. -/
def loRows : List (Nat × Nat × Nat) := [
  (Reg.HM_HTIME_LO, 0, 1), (Reg.HM_TICK_ORIGIN_LO, 0, 1), (Reg.HM_QUAY_CHART_LO 0, 64, 4), (Reg.HM_QUAY_REPORT_LO 0, 64, 4),
  (Reg.HM_QUAY_TICK_LO 0, 64, 4), (Reg.HM_FAULT_ENTRY_LO, 0, 1), (Reg.HM_CMDRING_BASE_LO 0, 128, 4),
  (Reg.HM_CRING_BASE_LO 0, 24, 4), (Reg.HM_CRING_BASE_LO 4, 24, 4), (Reg.HM_CRING_BASE_LO 8, 24, 4), (Reg.HM_CRING_BASE_LO 12, 24, 4)] ++ [
  (Reg.CAMRX_CTX_SOF_LO 0, 64, 24), (Reg.CAMRX_CTX_EOF_LO 0, 64, 24), (Reg.CAMRX_CTX_MID_LO 0, 64, 24),
  (Reg.CAMRX_TKT_SCRIPT_LO 0, 32, 4), (Reg.CAMRX_TKT_RESULT_LO, 0, 1), (Reg.CAMRX_FSYNC_EDGE_LO 0, 8, 8),
  (Reg.SPI_STAMP_RING_LO 0, 32, 4), (Reg.CAMP_ADJ_RECORD_LO 0, 32, 4), (Reg.LEDGER_PRED_RECORD_LO 0, 32, 4),
  (Reg.SND_POSE_RECORD_LO, 0, 1), (Reg.EDGE_LAST_TRIP_TIME_LO, 0, 1)] ++ [
  (Reg.HBMC_LAST_UE_LO 0, 64, 2), (Reg.XLT_QUAY_ROOT_LO 0, 32, 4), (Reg.XLT_QUAY_FAULT_RING_LO 0, 32, 4), (Reg.XLT_PROBE_VA_LO, 0, 1),
  (Reg.XLT_PROBE_PA_LO, 0, 1), (Reg.TENDER_CH_SRC_LO 0, 128, 32), (Reg.TENDER_CH_DST_LO 0, 128, 32),
  (Reg.TENDER_CH_CUR_SRC_LO 0, 128, 32), (Reg.TENDER_CH_CUR_DST_LO 0, 128, 32), (Reg.TENDER_CH_ERR_ADDR_LO 0, 128, 32)] ++ [
  (Reg.ONNAK_MAC_LO, 0, 1), (Reg.ONNAK_HELLO_MAC_LO, 0, 1), (Reg.ETH_MGMT_GCL_BASE_LO, 0, 1), (Reg.ETH_MGMT_TX_BASE_LO, 0, 1),
  (Reg.ETH_MGMT_RX_BASE_LO, 0, 1), (Reg.CG_LAST_DECISION_TIME_LO, 0, 1), (Reg.CG_ETH_DST_LO, 0, 1),
  (Reg.SALVAGE_ESCALATION_TIME_LO, 0, 1), (Reg.SALVAGE_QUAY_DUMP_LO 0, 64, 4), (Reg.CUSTOMS_MB_ADDR_LO, 0, 1), (Reg.CUSTOMS_MB_OUT_LO, 0, 1)]

/-- The register at `a` is the _LO half of a pair. -/
def isLo (a : Nat) : Bool :=
  loRows.any (fun r => decide (a = r.1) || (decide (1 < r.2.2 ∧ r.1 ≤ a ∧ (a - r.1) % r.2.1 = 0 ∧ (a - r.1) / r.2.1 < r.2.2)))

/-- The register at `a` is the _HI half of a pair. -/
def isHi (a : Nat) : Bool := decide (4 ≤ a) && isLo (a - 4)

/-- No capture is held for an unlisted pair. -/
def noCapture : Nat → Option Nat := fun _ => none
/-- No write is held for an unlisted pair. -/
def noHeld : Nat → Option Word := fun _ => none

/-- A read of a _LO register captures the whole value and returns its low half (R20). -/
def State.captureLo (s : State) (a : Nat) : State :=
  let v := (s.view a).toNat + 2 ^ 32 * (s.view (a + 4)).toNat
  ({ s with captures := s.captures.set noCapture a (some v) } : State).answer St.OK (v % 2 ^ 32)

/-- What a read of a _HI register returns: the captured high half, or the live one (R20). -/
def State.readHi (s : State) (a : Nat) : Nat :=
  match s.captures.get noCapture (a - 4) with
  | some v => v / 2 ^ 32
  | none => (s.view a).toNat

/-- A write to a _LO register is held (R20). -/
def State.holdLo (s : State) (a : Nat) (v : Word) : State := { s with heldLo := s.heldLo.set noHeld a (some v) }

/-- The held low half, if there is one, takes effect (R20). -/
def State.commitLo (s : State) (a : Nat) : State :=
  match s.heldLo.get noHeld a with
  | some w => { (s.setReg a w) with heldLo := s.heldLo.set noHeld a none }
  | none => s

/-- What the low half of the pair at `a` will be once the held write takes effect. -/
def State.nextLo (s : State) (a : Nat) : Word := (s.heldLo.get noHeld a).getD (s.reg a)

/-! Reads. -/

/-- The instance of a register read through CAMRX_CTX_FRAME (R150). -/
def ctxFrame? (a : Nat) : Option Nat := (List.range 24).find? (fun c => a = Reg.CAMRX_CTX_FRAME c)

/-- A read of the `n` bytes at `a` (R10-R13, R17, R20, R150); `same` are the bits that hardware sets in the cycle in which a read clears
them (R17). -/
def State.busRead (s : State) (a n : Nat) (same : Word) : State :=
  if 23 ≤ blockOf a then s.answer St.OOB
  else if n ≠ 4 ∨ a % 4 ≠ 0 then (s.ignoredWrite a).answer St.OK
  else match regRow a with
    | none => s.answer St.OK
    | some (r, _) =>
      match ctxFrame? a with
      | some c => doCtxFrameRead c s
      | none =>
        if isLo a then s.captureLo a
        else if isHi a then s.answer St.OK (s.readHi a)
        else if r.acc = Access.rc then
          let v := s.view a
          let set := same &&& w32 r.mask
          let s := s.setReg a set
          (if set = 0#32 then s else s.collide a).answer St.OK v.toNat
        else s.answer St.OK (s.view a).toNat

/-! Who may write, and when. -/

/-- The Tender channel whose programming registers hold address `a`, if any (R441). -/
def progChan? (a : Nat) : Option Nat :=
  let o := offOf a
  if blockOf a = 14 ∧ 0x1000 ≤ o ∧ (o - 0x1000) / 0x80 < 32 ∧ (o - 0x1000) % 0x80 < 0x20 then some ((o - 0x1000) / 0x80) else none

/-- The gate control list's registers (R443, R469). -/
def isGcl (a : Nat) : Bool :=
  decide (a = Reg.ETH_MGMT_GCL_BASE_LO ∨ a = Reg.ETH_MGMT_GCL_BASE_HI ∨ a = Reg.ETH_MGMT_GCL_CYCLE ∨ a = Reg.ETH_MGMT_GCL_LEN ∨
    a = Reg.ETH_MGMT_GCL_COMMIT ∨ (Reg.ETH_MGMT_GCL 0 ≤ a ∧ a ≤ Reg.ETH_MGMT_GCL 63))

/-- A quay with a FLEET section is RUNNING, DOCKING or DOCKED (R465). -/
def State.fleetActive (s : State) : Bool :=
  s.anyQuay (fun x => x.st.active && (match x.chart with | some c => !c.fleet.isEmpty | none => false))

/-- A write to the register, in row `r` at instance `i`, is taken: its access code, the initiator and the state of what it configures
allow it (R11, R44, R302, R394, R395, R400, R404, R409, R424, R435, R443, R465, R472, R514). -/
def State.mayWrite (s : State) (ini : Initiator) (a : Nat) (r : RegRow) (i : Nat) : Bool :=
  let q := quayAt i
  if r.acc = Access.ro ∨ r.acc = Access.rc then false
  else if r.acc = Access.rwd then
    (match s.regOwner a with | some q => s.quays[q].st.rwdOpen | none => false)
  else if blockOf a = 18 then decide (ini = .cg)
  else if a = Reg.EDGE_RELEASE ∨ a = Reg.EDGE_TEST ∨ isGcl a then decide (ini = .cg)
  else if a = Reg.QUAY_BANK_GATE_REQ i ∨ a = Reg.DRL_QP_SHARE_NEXT i then decide (ini = .mc)
  else if a = Reg.SALVAGE_QUAY_CTRL q ∧ q = 0 then decide (ini = .cg)
  else if a = Reg.SALVAGE_QUAY_CMD q then mayDeclare ini
  else if a = Reg.HM_TICK_ORIGIN_LO ∨ a = Reg.HM_TICK_ORIGIN_HI ∨ a = Reg.HBMC_HULL_MODE i then !s.anyQuay (fun x => x.st.active)
  else if a = Reg.HBMC_SYSTEM_GROUPS ∨ a = Reg.HBMC_RETIRE_ADD i then !s.anyQuay (fun x => decide (x.st ≠ .empty))
  else if a = Reg.ONNAK_FLEET_ID then !s.fleetActive
  else if a = Reg.TENDER_CH_CMD i then (s.chanOwner i).isNone
  else match progChan? a with
    | some n => (s.chanOwner n).isNone && decide ((s.chan n).st = .idle ∨ (s.chan n).st = .halted)
    | none => true

/-- The base of a ring of 64-byte entries: aligned, of 2^4 to 2^12 entries, inside system groups and outside the protected area (R520);
k of 0 disables the ring. -/
def State.ringBaseOk (s : State) (lo hi : Word) (bytes : Nat) : Bool :=
  let k := fld hi 19 16
  let a := lo.toNat + 2 ^ 32 * fld hi 15 0
  k = 0 || (4 ≤ k && k ≤ 12 && a % 64 = 0 && s.inSystemGroup a && s.inSystemGroup (a + bytes * 2 ^ k - 1))

/-- The statistics ring of pipe slot n in records (R179). -/
def State.statsRing (s : State) (n : Nat) : Nat :=
  match s.campRec? n with
  | some (q, bs) => (match s.quays[q].handle? (leAt bs 0xA 2) with | some h => h.length * 4096 / 20544 | none => 0)
  | none => 0

/-- The export ring in records (R282). -/
def State.exportRing (s : State) : Nat :=
  match s.ownerOf Cls.SND 0 with
  | none => 0
  | some q => match s.quays[q].sndMap with
    | some m => (match s.quays[q].handle? m.exportHandle with | some h => h.length * 4096 / 1088 | none => 0)
    | none => 0

/-- The written value is one the register takes (R179, R282, R400, R404, R465, R469, R496, R520, R525, R537, R539, R545, R552). -/
def State.mayHold (s : State) (a i : Nat) (v : Word) : Bool :=
  let n := fld v 31 0
  if a = Reg.CAMP_SLOT_STATS_CONSUMER i then decide (n < s.statsRing i)
  else if a = Reg.SND_EXPORT_CONSUMER then decide (n < s.exportRing)
  else if a = Reg.HBMC_SYSTEM_GROUPS then decide (fld v 15 0 ≠ 0)
  else if a = Reg.HBMC_HULL_MODE i then decide (fld v 1 0 ≠ 3)
  else if a = Reg.ONNAK_PEER_TIMEOUT then decide (100 ≤ fld v 16 0 ∧ fld v 16 0 ≤ 100000)
  else if a = Reg.ONNAK_RTO then decide (5 ≤ fld v 9 0 ∧ fld v 9 0 ≤ 1000)
  else if a = Reg.ETH_MGMT_CTRL then decide (fld v 3 1 < 5)
  else if a = Reg.CG_WDT_PERIOD then decide (10 ≤ fld v 13 0 ∧ fld v 13 0 ≤ 10000)
  else if a = Reg.CG_NOTICE_PERIOD then decide (1000 ≤ fld v 16 0 ∧ fld v 16 0 ≤ 100000)
  else if a = Reg.CG_FWD i then decide (fld v 26 16 ≤ 1024)
  else if a = Reg.ETH_MGMT_RX_BUF_SIZE then decide (64 ≤ fld v 13 0 ∧ fld v 13 0 ≤ 9216)
  else if a = Reg.PMC_ENVELOPE then decide (60 ≤ fld v 7 0 ∧ fld v 7 0 ≤ 180)
  else if a = Reg.PMC_THROTTLE_TEMP then decide (60 ≤ fld v 7 0 ∧ (fld v 7 0 : Int) ≤ s.emergencyAt - 5)
  else if a = Reg.PMC_APU_REQ i then decide (600 ≤ fld v 11 0 ∧ fld v 11 0 ≤ 2600 ∧ fld v 11 0 % 100 = 0)
  else if (List.range 4).any (fun q => a = Reg.HM_CMDRING_BASE_HI q) || (List.range 16).any (fun c => a = Reg.HM_CRING_BASE_HI c) then
    s.ringBaseOk (s.nextLo (a - 4)) v 64
  else if a = Reg.ETH_MGMT_TX_BASE_HI ∨ a = Reg.ETH_MGMT_RX_BASE_HI then
    fld v 19 16 < 4 || 12 < fld v 19 16 || s.ringBaseOk (s.nextLo (a - 4)) v 32
  else true

/-! What a write does. -/

/-- A quay command register (R81, R91). -/
def State.writeQuayCmd (s : State) (ini : Initiator) (q : Fin 4) (op : Nat) : State :=
  match op with
  | 1 => doLoad q ini s
  | 2 => doStart q ini s
  | 3 => doDock q ini s
  | 4 => doUndock q ini s
  | 5 => doUnload q ini s
  | 6 => doReset q ini s
  | _ => s.rejectCmd q St.REFUSED

/-- TENDER_CH_CMD (R435, R441). -/
def State.writeChanCmd (s : State) (n : Nat) (v : Word) : State :=
  match fld v 3 0 with
  | 0 => s.answer St.OK
  | 1 => s.chanStart n
  | 2 => s.chanPause n
  | 4 => s.chanResume n
  | 8 => s.chanAbort n
  | _ => (s.modChan n (fun t => { t with cmdStatus := St.REFUSED })).answer St.REFUSED

/-- QUAY_SPAD_TAG_CMD (R375, R393): an undefined operation is refused, in the states that take one. -/
def State.writeTagCmd (s : State) (q : Fin 4) (op : Nat) : State :=
  if op = 1 then s.tagOp q .staticFull
  else if op = 2 then s.tagOp q .empty
  else if s.quays[q].st ≠ .loaded ∧ s.quays[q].st ≠ .docked then
    ((s.bump (Reg.QUAY_SPAD_BAD_STATE_COUNT q)).put (Reg.QUAY_SPAD_TAG_STATUS q) St.BAD_STATE.toNat).answer St.BAD_STATE
  else (s.put (Reg.QUAY_SPAD_TAG_STATUS q) St.REFUSED.toNat).answer St.REFUSED

/-- SALVAGE_QUAY_CMD (R514). -/
def State.writeSalvageCmd (s : State) (ini : Initiator) (q : Fin 4) (op : Nat) : State :=
  match op with
  | 1 => doSalvageDeclare q ini s
  | 2 => doSnapshot q ini s
  | _ => s.salvStatus q St.REFUSED

/-- QUAY_BANK_GATE_REQ[w] (R390, R392, R394): a bit written 1 requests gating, a bit that goes to 0 requests waking. Where hardware clears a
request in the same cycle the write wins (R18, R394). -/
def State.writeGateReq (s : State) (ini : Initiator) (w : Nat) (v same : Word) : State :=
  let s := (List.range 32).foldl (fun (s : State) k =>
    let b := 32 * w + k
    if flag v k then doBankGateRequest ini b s
    else if flag (s.reg (Reg.QUAY_BANK_GATE_REQ w)) k ∨ s.isGated b then doBankWake ini b s
    else s) s
  (if v &&& same = 0#32 then s else s.collide (Reg.QUAY_BANK_GATE_REQ w)).answer St.OK

/-- PMC_SERVICE_LATCHED (R550, R552): a 1 clears a latched code and ends it; permanent codes ignore it, and a code raised in the same cycle
is raised after all (R16). -/
def State.writeServiceLatched (s : State) (v same : Word) : State :=
  let hit := v &&& same &&& w32 0x3CE
  let clear := (v &&& ~~~ same) &&& ~~~ (w32 0b1010)
  let s := (List.range 11).foldl (fun (s : State) k => if flag hit k then s.service k else s) s
  let was := s.reg Reg.PMC_SERVICE_ACTIVE
  let old := s.reg Reg.PMC_SERVICE_LATCHED
  let s := s.setReg Reg.PMC_SERVICE_LATCHED (old &&& ~~~ clear)
  let s := s.setReg Reg.PMC_SERVICE_ACTIVE (was &&& ~~~ (clear &&& old))
  let s := if hit = 0#32 then s else s.collide Reg.PMC_SERVICE_LATCHED
  (s.serviceLevel was).answer St.OK

/-- A W1C register (R11, R16): a 1 clears its flag unless hardware sets it in the same cycle. -/
def State.writeW1c (s : State) (a : Nat) (mask : Word) (v same : Word) : State :=
  let set := v &&& same &&& mask
  let s := (s.setReg a (s.reg a &&& ~~~ (v &&& ~~~ set))).setEvent a set.toNat
  (if set = 0#32 then s else s.collide a).answer St.OK

/-- SPI_STAMP_CTRL (R147, R152): lengths or a ring size out of range leave the port disabled and count an ignored write. Sequence numbers
start from 0 after enable. -/
def State.writeSpiCtrl (s : State) (p : Nat) (v : Word) : State :=
  let ok : Bool := decide (fld v 6 4 ≤ 4 ∧ 1 ≤ fld v 12 7 ∧ fld v 12 7 ≤ 48 ∧ 4 ≤ fld v 24 21 ∧ fld v 24 21 ≤ 12)
  let was := s.spiEnabled p
  let s := if ok then s.setReg (Reg.SPI_STAMP_CTRL p) v
    else (s.setReg (Reg.SPI_STAMP_CTRL p) (v &&& ~~~ 1#32)).ignoredWrite (Reg.SPI_STAMP_CTRL p)
  (if s.spiEnabled p && was then s else s.setSpi p ⟨[], 0, false⟩).answer St.OK

/-- A Tender timer's period and offset are in range (R440). -/
def timerOk (period ctrl : Word) : Bool :=
  let p := fld period 19 0
  decide (1 ≤ p ∧ p ≤ 1000000 ∧ fld ctrl 20 1 < p)

/-- TENDER_TIMER_PERIOD and TENDER_TIMER_CTRL (R440): a period or offset out of range leaves the timer disabled and counts. -/
def State.writeTimer (s : State) (t a : Nat) (v : Word) : State :=
  let s : State := { (s.setReg a v) with timers := setAt s.timers t s.time.now }
  let c := Reg.TENDER_TIMER_CTRL t
  (if timerOk (s.reg (Reg.TENDER_TIMER_PERIOD t)) (s.reg c) then s else (s.setBits c 0 0 0).ignoredWrite a).answer St.OK

/-- ONNAK_FLEET_ID (R465): every peer enters DOWN; what was outstanding to it ends (R452). -/
def State.writeFleetId (s : State) (v : Word) : State :=
  ((List.range 8).foldl (fun (s : State) n =>
    (s.dropPeer n).modPeer n (fun (x : Peer) => { Peer.reset with session := x.session }))
    (s.setReg Reg.ONNAK_FLEET_ID v)).settleAllDraining.answer St.OK

/-- ONNAK_PEER_ROUTE[n] (R449, R467): lanes whose port the new mask excludes move. -/
def State.writeRoute (s : State) (n : Nat) (v : Word) : State :=
  let before := [s.lanePort n 0, s.lanePort n 1]
  let gone := (s.reachable n).filter (fun p => !flag v p)
  let s := s.setReg (Reg.ONNAK_PEER_ROUTE n) v
  (if (s.peer n).st ≠ .up then s
   else match gone with
    | [] => s.moveLanes n 4 before
    | _ => gone.foldl (fun (s : State) p => s.moveLanes n p before) s).answer St.OK

/-- ONNAK_PORT_CTRL[p] (R442, R466): a port that is disabled goes down. -/
def State.writePortCtrl (s : State) (p : Nat) (v : Word) : State :=
  let s := s.setReg (Reg.ONNAK_PORT_CTRL p) v
  (if flag v 0 then s else doLinkDown p s).answer St.OK

/-- ETH_MGMT_CTRL (R469): the link is up while the port is enabled (log entry 60). -/
def State.writeEthCtrl (s : State) (v : Word) : State :=
  let s := s.setReg Reg.ETH_MGMT_CTRL v
  ({ s with eth := { s.eth with up := flag v 0 } } : State).drainClass7.answer St.OK

/-- Registers whose write is a command or changes more than their own value; none for one that is stored. `v` is the written value
without reserved bits. -/
def State.writeSpecial (s : State) (ini : Initiator) (a i : Nat) (v same : Word) : Option State :=
  let q := quayAt i
  let bit0 := flag v 0
  match blockOf a with
  | 0 =>
    if a = Reg.TOP_CORE_RELEASE then some ((s.coreRelease v).answer St.OK)
    else if a = Reg.TOP_RESET_CTRL then some ((if bit0 then s.warmReset false else s).answer St.OK)
    else if a = Reg.TOP_MSI i then some (doTopMsiWrite i v s)
    else none
  | 1 =>
    if a = Reg.HM_QUAY_CMD q then some (s.writeQuayCmd ini q (fld v 3 0))
    else if a = Reg.HM_FAULT_POP then some (if bit0 then doFaultPop s else s.answer St.OK)
    else if a = Reg.HM_CMDRING_PRODUCER q then some (doCmdringDoorbell q v s)
    else none
  | 2 =>
    if a = Reg.QUAY_SPAD_TAG_CMD q then some (s.writeTagCmd q (fld v 1 0))
    else if a = Reg.QUAY_BANK_GATE_REQ i then some (s.writeGateReq ini i v same)
    else none
  | 4 =>
    if a = Reg.CAMRX_TKT_SUBMIT q then some (doTicketSubmit q (fld v 4 0) s)
    else if a = Reg.CAMRX_TKT_RESULT_POP then some (if bit0 then doTicketResultPop s else s.answer St.OK)
    else none
  | 5 => if a = Reg.CAMP_ADJ_SUBMIT q then some (doAdjSubmit q (fld v 4 0) s) else none
  | 10 => if a = Reg.LEDGER_PRED_SUBMIT q then some (doPredictionSubmit q (fld v 4 0) s) else none
  | 11 =>
    if a = Reg.SND_POSE_SUBMIT then some (doPoseSubmit (fld v 1 0) s)
    else if a = Reg.EDGE_RELEASE then some (if bit0 then doEdgeRelease ini s else s.answer St.OK)
    else if a = Reg.EDGE_TEST then some (doEdgeTest ini bit0 s)
    else none
  | 14 =>
    if a = Reg.TENDER_CH_CMD i then some (s.writeChanCmd i v)
    else if a = Reg.TENDER_TIMER_PERIOD i ∨ a = Reg.TENDER_TIMER_CTRL i then some (s.writeTimer i a v)
    else none
  | 15 => if a = Reg.XLT_PROBE_VA_HI then some (doXltProbe v s) else none
  | 16 => if a = Reg.HBMC_RETIRE_ADD i then some (doHbmcRetireAdd i (fld v 23 0) s) else none
  | 17 =>
    if a = Reg.ONNAK_FLEET_ID then some (s.writeFleetId v)
    else if a = Reg.ONNAK_PORT_CTRL i then some (s.writePortCtrl i v)
    else if a = Reg.ONNAK_PEER_ROUTE i then some (s.writeRoute i v)
    else if a = Reg.ETH_MGMT_CTRL then some (s.writeEthCtrl v)
    else if a = Reg.ETH_MGMT_GCL_COMMIT then some ((doGclCommit ini v s).answer St.OK)
    else if a = Reg.ETH_MGMT_TX_PRODUCER then some ((doEthMgmtTxDoorbell v s).answer St.OK)
    else none
  | 18 =>
    if a = Reg.CG_RELEASE then some (doCgRelease ini v s)
    else if a = Reg.CG_SW_REQUEST then some ((doCgSwRequest ini v s).answer St.OK)
    else if a = Reg.CG_WDT_KICK then some ((doCgWdtKick ini s).answer St.OK)
    else none
  | 19 =>
    if a = Reg.SALVAGE_QUAY_CMD q then some (s.writeSalvageCmd ini q (fld v 1 0))
    else if a = Reg.SALVAGE_QUAY_DUMP_RELEASE q then
      some ((if bit0 then s.modSalv q (fun v => { v with held := false }) else s).answer St.OK)
    else none
  | 20 => if a = Reg.PMC_SERVICE_LATCHED then some (s.writeServiceLatched v same) else none
  | 21 => if a = Reg.CUSTOMS_MB_CMD then some (s.mailboxCmd (fld v 7 0)) else none
  | 22 => if a = Reg.SPI_STAMP_CTRL i then some (s.writeSpiCtrl i v) else none
  | _ => none

/-- A write of the `n` bytes at `a` with the value `v` (R10-R13, R16, R18-R20). `same` are the bits that hardware sets in a W1C register, or
clears in a request register, in the cycle of the write. -/
def State.busWrite (s : State) (ini : Initiator) (a n : Nat) (v same : Word) : State :=
  if 23 ≤ blockOf a then s.answer St.OOB
  else if n ≠ 4 ∨ a % 4 ≠ 0 then (s.ignoredWrite a).answer St.OK
  else match regRow a with
    | none => (s.ignoredWrite a).answer St.OK
    | some (r, i) =>
      let w := v &&& w32 r.mask
      if !s.mayWrite ini a r i then (s.ignoredWrite a).answer St.OK
      else if r.acc = Access.w1c ∧ a ≠ Reg.PMC_SERVICE_LATCHED then s.writeW1c a (w32 r.mask) w same
      else if isLo a then (s.holdLo a w).answer St.OK
      else if !s.mayHold a i w then (s.ignoredWrite a).answer St.OK
      else
        let s := if isHi a then s.commitLo (a - 4) else s
        match s.writeSpecial ini a i w same with
        | some s => s
        | none =>
          if r.acc = Access.wo then s.answer St.OK
          else (s.setReg a w).answer St.OK

/-- Coastguard software goes on through a device warm reset, and so do its registers (R471, R536). -/
def actBus (ini : Initiator) (a : Nat) (f : State → State) (s : State) : Res :=
  if ini = .cg ∧ blockOf a = 18 then actAlive f s else act f s

/-! The meanings. -/

/-- REGISTER_WRITE (R11). -/
def execRegisterWrite (ini : Initiator) (a bytes : Nat) (v same : Word) (s : State) : Res :=
  actBus ini a (fun s => s.busWrite ini a bytes v same) s
/-- LO_CAPTURE_READ (R20): a read of a _LO register; a read of another register is the same access. -/
def execLoCaptureRead (ini : Initiator) (a : Nat) (s : State) : Res := actBus ini a (fun s => s.busRead a 4 0#32) s
/-- HI_WRITE_COMMIT (R20): a write of a _HI register, with the low half held before it. -/
def execHiWriteCommit (ini : Initiator) (a : Nat) (v : Word) (s : State) : Res :=
  actBus ini a (fun s => s.busWrite ini a 4 v 0#32) s
/-- RC_READ (R17): a read of `bytes` bytes; a read-to-clear register is cleared, but for the bits that hardware sets in the same cycle. -/
def execRcRead (ini : Initiator) (a bytes : Nat) (same : Word) (s : State) : Res :=
  actBus ini a (fun s => s.busRead a bytes same) s

end Sys2Proof.Machine
end

