-- ==== Sys2Proof/Machine/Stage.lean ====
section
/-! DEFINITION. The completion of a stage whose engine has done its work (R105, R154, R195): the vision engines, the camera pipes and
Soundings. Tensor, layout and Tender stages complete by END (ELV), LAYOUT_END and TRANSFER_COMPLETE. -/
namespace Sys2Proof.Machine

/-- A camera-pipe stage completes when its slot has written its last output row and its statistics record (R154). -/
def State.campStageDone (s : State) (q : Fin 4) (n : FrameNo) (i : Nat) : State :=
  match s.campDone q n i with
  | some k => (s.modSlot k (fun (x : CampSlot) => { x with runs := x.runs.filter (fun u => u.frame ≠ n) })).completeStage q n i []
  | none => s

/-- STAGE_COMPLETE (R105, R154, R195, R283): stage i of frame n of quay q, running on its engine, completes with its status; nothing
happens while its work is not done. -/
def doStageComplete (q : Fin 4) (n : FrameNo) (i : Nat) (s : State) : State :=
  match s.stageRun? q n i with
  | none => s
  | some r =>
    if !r.running || r.draining then s
    else
      let c := (s.quays[q].engineE i).cls
      if c = Cls.CAMP then s.campStageDone q n i
      else if c = Cls.SND then s.sndDone q n i
      else if c = Cls.PYR ∨ c = Cls.WARP ∨ c = Cls.STEREO ∨ c = Cls.FLOW ∨ c = Cls.FEAT then s.visionDone q n i
      else s

/-- STAGE_COMPLETE. -/
def execStageComplete (q : Fin 4) (n : FrameNo) (stage : Nat) (s : State) : Res := act (doStageComplete q n stage) s

end Sys2Proof.Machine
end

