-- ==== Sys2Proof/Machine/Tender.lean ====
section
/-! DEFINITION. Tender's commands: the four channel commands, triggers, the lines of a transfer, and how transfers complete, halt, pause and
abort (R422-R439). -/
namespace Sys2Proof.Machine

/-! Reads and writes of device addresses by a free channel (R423). -/

/-- The contiguous runs of positions [off, off + len) of a side (R425). -/
def sideRuns (mode ring addr off len : Nat) : List (Nat × Nat) :=
  match mode with
  | 1 => [(addr, len)]
  | 2 =>
    let m := 2 ^ ring
    let left := m - (addr % m + off) % m
    if len ≤ left then [(sideAddr 2 ring addr off, len)] else [(sideAddr 2 ring addr off, left), (sideAddr 2 ring addr (off + left), len - left)]
  | _ => [(addr + off, len)]

/-- The ports that an access of Tender, on B-die 1, passes: none for the control window and PCIe (R381, R422). -/
def tenderPorts (a : Nat) : List Nat :=
  match regionOf a with
  | .hbm d => if d = 1 then [1] else [0, 4]
  | .spad => if (portOf a).2 = 1 then [3] else [2, 4]
  | .onnak _ => [5, 4]
  | _ => []

/-- Take one line from each port's free bucket, if every one has it (R423). -/
def State.chargeFree (s : State) (ports : List Nat) : Option State :=
  if ports.all (fun p => 1 ≤ Tab.get nat0 s.mem.buckets (freeKey p)) then
    some (s.modMem (fun m => { m with buckets := Tab.updateAll nat0 (fun v => v - 1) m.buckets (ports.map freeKey) }))
  else none

/-- A device read by a free channel: status, bytes and mark. Bytes that a PCIe endpoint or a peer answers with are the command's. -/
def State.tenderRead (s : State) (a n : Nat) (outside : List Byte) : State × Status × List Byte × Bool :=
  match regionOf a with
  | .control =>
    let s := s.busRead (a - Addr.control) n 0#32
    (s, St.OK, natLE n (match s.reply with | some r => r.data | none => 0), false)
  | .ledger =>
    let s := doLedgerWindowRead a n s
    (s, St.OK, (match s.reply with | some r => r.bytes | none => List.replicate n 0#8), false)
  | .pcie => (s, St.OK, slice outside 0 n, false)
  | .onnak _ => (s, St.OK, slice outside 0 n, false)
  | _ =>
    let d := s.devRead a n
    (s, d.1, d.2.1, d.2.2)

/-- A device write by a free channel (R375, R400, R423). -/
def State.tenderWrite (s : State) (a : Nat) (bs : List Byte) (poison : Bool) : State × Status :=
  match regionOf a with
  | .control => (s.busWrite .tender (a - Addr.control) bs.length (w32 (leNat bs)) 0#32, St.OK)
  | .ledger => (doLedgerWindowWrite s, St.FENCED)
  | .pcie => (s.emit (.pcie a bs), St.OK)
  | .spad =>
    let (s, st) := s.devWrite .tender a bs poison
    (if st = St.OK then s.retagPoison (berthOf a) else s, st)
  | _ => s.devWrite .tender a bs poison

/-- Read the runs of a line; the first status other than OK stands. -/
def State.tenderReads (s : State) (runs : List (Nat × Nat)) (outside : List Byte) : State × Status × List Byte × Bool :=
  runs.foldl (fun (x : State × Status × List Byte × Bool) r =>
    let (s, st, bs, p) := x.1.tenderRead r.1 r.2 (outside.drop x.2.2.1.length)
    (s, if x.2.1 = St.OK ∨ x.2.1 = St.POISON then st else x.2.1, x.2.2.1 ++ bs, x.2.2.2 || p)) (s, St.OK, [], false)

/-- Write the runs of a line; the first status other than OK stands. -/
def State.tenderWrites (s : State) (runs : List (Nat × Nat)) (bs : List Byte) (poison : Bool) : State × Status :=
  let r := runs.foldl (fun (x : State × Status × List Byte) r =>
    let (s, st) := x.1.tenderWrite r.1 (x.2.2.take r.2) poison
    (s, if x.2.1 = St.OK then st else x.2.1, x.2.2.drop r.2)) (s, St.OK, bs)
  (r.1, r.2.1)

/-! Lines (R425, R426, R433). -/

/-- Statuses that a line is reissued after (R433). -/
def retryable (st : Status) : Bool := decide (st = St.TIMEOUT ∨ st = St.FAULT ∨ st = St.FENCED ∨ st = St.BUSY)

/-- Statuses that fail a line (R433). -/
def lineFails (st : Status) : Bool := retryable st || decide (st = St.OOB ∨ st = St.STALE_TIDE)

/-- A line of channel n fails (R433): it waits to be reissued, or the channel halts with the code, the line's address and side. -/
def State.lineFailed (s : State) (n : Nat) (l : TLine) (wr : Bool) (code : Status) : State :=
  let t := s.chan n
  let cfg := s.chanCfg n
  let others := fun (ls : List TLine) => ls.filter (fun k => k.off ≠ l.off)
  if t.st = .halting ∨ t.st = .aborting then s.modChan n (fun t => { t with lines := others t.lines })
  else if retryable code && decide (l.fails < cfg.retry) then
    s.modChan n (fun t => { t with
      lines := t.lines.map (fun k => if k.off = l.off then { k with fails := k.fails + 1, waiting := true } else k) })
  else
    let a := if wr then sideAddr cfg.dstMode cfg.dstRing t.dst l.off else sideAddr cfg.srcMode cfg.srcRing t.src l.off
    let s := (s.put (Reg.TENDER_CH_ERR_ADDR_LO n) a).put (Reg.TENDER_CH_ERR_ADDR_HI n) (a / 2 ^ 32 % 65536 + bitAt wr 16)
    s.modChan n (fun t => { t with st := .halting, haltCode := code, failOff := l.off, lines := others t.flying })

/-- Take the lines that follow what is written without a gap into the check (R430). -/
def TChan.absorb (check : Nat) : Nat → TChan → TChan
  | 0, t => t
  | fuel + 1, t =>
    match t.early.find? (fun e => e.1 = t.written) with
    | none => t
    | some (o, bs) => TChan.absorb check fuel { t with
        early := t.early.filter (fun e => e.1 ≠ o)
        written := o + bs.length
        acc := checkAdd check t.acc t.accBytes bs
        accBytes := t.accBytes + bs.length }

/-- A line of the data, or the check value at position COUNT, has been written (R426, R430, R431, R434). -/
def TChan.wrote (cfg : ChanCfg) (l : TLine) (bs : List Byte) (poison : Bool) (t : TChan) : TChan :=
  let t := { t with lines := t.lines.filter (fun k => k.off ≠ l.off), poison := t.poison || poison }
  let t : TChan := if l.off = t.count then { t with stored := true }
    else TChan.absorb cfg.check (t.early.length + 1) { t with early := t.early ++ [(l.off, bs)] }
  (if t.st = .running then TChan.issue cfg 32 t else t).settle cfg

/-- Positions of [lo, hi) that have been written. -/
def TChan.covered (t : TChan) (lo hi : Nat) : Nat :=
  let part := fun (a b : Nat) => min b hi - max a lo
  part 0 t.written + sumNat (t.early.map (fun e => part e.1 (e.1 + e.2.length))) + (if t.stored then part t.count (t.count + 4) else 0)

/-- Each destination berth of a held channel is set FULL once every byte for it has been acknowledged (R439). -/
def State.heldBerths (s : State) (n : Nat) (t : ReqTag) (h : Nat) : State :=
  let c := s.chan n
  let total := c.count + (if (s.chanCfg n).store then 4 else 0)
  s.fullBerths t h t.slot (fun b =>
    let lo := 4096 * b - c.dst
    let hi := min (4096 * b + 4096 - c.dst) total
    decide (lo < hi) && decide (c.covered lo hi = hi - lo))

/-- A read response of a line (R422, R423, R434, R439): the data stand in the staging buffer. Nothing comes while the port's free lines are
spent or, for a held channel, while its input cannot be read. -/
def State.lineRead (s : State) (n : Nat) (l : TLine) (st : Status) (outside : List Byte) : State :=
  let t := s.chan n
  let cfg := s.chanCfg n
  let keep := fun (s : State) (bs : List Byte) (p : Bool) =>
    s.modChan n (fun t => { t with lines := t.lines.map (fun k => if k.off = l.off then { k with data := some (bs, p) } else k) })
  if lineFails st then s.lineFailed n l false st
  else match t.tag with
    | none =>
      let runs := sideRuns cfg.srcMode cfg.srcRing t.src l.off l.len
      (match s.chargeFree (dedup (runs.flatMap (fun r => tenderPorts r.1))) with
      | none => s
      | some s =>
        let (s, st, bs, p) := s.tenderReads runs outside
        if lineFails st then s.lineFailed n l false st else keep s bs p)
    | some tag =>
      match s.quays[tag.q].frame? tag.frame with
      | none => s
      | some f =>
        let j := s.jobIn tag.q f tag.stage 0
        let o := t.src + l.off
        if !s.inReady tag.q tag.stage j o l.len then s
        else
          let (s, sts) := s.readSlot tag j.h j.slot o l.len
          let code := worst (sts.filter lineFails)
          if code ≠ St.OK then s.lineFailed n l false code
          else
            let src := s.srcOf tag j.h j.slot
            let bs := (List.range l.len).map (fun i => src (o + i))
            keep s (bs.map (·.1)) (bs.any (·.2))

/-- A write response of a line (R423, R426, R433, R439). -/
def State.lineWrite (s : State) (n : Nat) (l : TLine) (bs : List Byte) (poison : Bool) (st : Status) : State :=
  let t := s.chan n
  let cfg := s.chanCfg n
  if lineFails st then s.lineFailed n l true st
  else match t.tag with
    | none =>
      let runs := sideRuns cfg.dstMode cfg.dstRing t.dst l.off l.len
      (match s.chargeFree (dedup (runs.flatMap (fun r => tenderPorts r.1))) with
      | none => s
      | some s =>
        let (s, st) := s.tenderWrites runs bs poison
        if lineFails st then s.lineFailed n l true st else s.modChan n (TChan.wrote cfg l bs poison))
    | some tag =>
      match (s.quays[tag.q].stageE tag.stage).outs.head? with
      | none => s
      | some h =>
        let (s, sts) := s.putSlot tag h tag.slot [⟨t.dst + l.off, bs, poison⟩]
        let code := worst (sts.filter lineFails)
        if code ≠ St.OK then s.lineFailed n l true code
        else (s.modChan n (TChan.wrote cfg l bs poison)).heldBerths n tag h

/-- A channel that issues or has writes under way. -/
def TState.moving : TState → Bool
  | .running => true
  | .pausing => true
  | .halting => true
  | .aborting => true
  | _ => false

/-- TENDER_WRITE_RESPONSE (R426, R433, R434): the read response (`wr` false) or write response of the line at position `off`. `st` is the status
that the link or memory reports; OK leaves the outcome to the device. -/
def doTenderWriteResponse (n off : Nat) (wr : Bool) (st : Status) (bytes : List Byte) (s : State) : State :=
  let t := s.chan n
  match t.lines.find? (fun l => l.off = off) with
  | none => s
  | some l =>
    if !t.st.moving || l.waiting then s
    else
      let s := match l.data with
        | none => if wr then s else s.lineRead n l st bytes
        | some (bs, p) => if wr then s.lineWrite n l bs p st else s
      { s with reply := none }

/-- TENDER_RETRY (R433): the line at position `off`, which has failed, is reissued. -/
def doTenderRetry (n off : Nat) (s : State) : State :=
  let t := s.chan n
  if !t.st.moving || !t.lines.any (fun l => decide (l.off = off) && l.waiting) then s
  else (s.modChan n (fun t => { t with lines := t.lines.map (fun k => if k.off = off then { k with waiting := false } else k) })).bump
    (Reg.TENDER_CH_RETRY_COUNT n)

/-! Ends (R432-R436). -/

/-- A side's start for the transfer that repeats after one of `count` bytes (R432). -/
def nextStart (mode ring addr count : Nat) : Nat := sideAddr mode ring addr count

/-- The channel after a completed transfer: IDLE, or armed again (R432). -/
def TChan.completed (cfg : ChanCfg) (t : TChan) : TChan :=
  let t := { t with lastStatus := if t.poison then St.POISON else St.OK, pulses := t.pulses + 1 }
  if cfg.again && t.tag.isNone then
    let trig := t.trig
    ({ t.arm cfg (nextStart cfg.srcMode cfg.srcRing t.src t.count) (nextStart cfg.dstMode cfg.dstRing t.dst t.count) t.count none with
      trig := trig } : TChan).followOn cfg
  else { t with st := .idle, trig := false, tag := none }

/-- TRANSFER_COMPLETE (R432, R434, R439): every write of the transfer has its response, the check's included. -/
def doTransferComplete (n : Nat) (s : State) : State :=
  let t := s.chan n
  let cfg := s.chanCfg n
  if t.st ≠ .running ∨ t.lines ≠ [] ∨ t.written < t.count ∨ (cfg.store && !t.stored) then s
  else
    let s := s.modChan n (TChan.completed cfg)
    let s := (s.wrapBy (Reg.TENDER_CH_DONE_COUNT n) 1).setEvent (Reg.TENDER_CH_EVENT n) (1 + bitAt t.poison 2)
    match t.tag with
    | none => s
    | some tag =>
      let s := (s.quays[tag.q].stageE tag.stage).outs.foldl (fun (s : State) h => s.fillSlot tag h tag.slot) s
      s.completeStage tag.q tag.frame tag.stage [if t.poison then St.POISON else St.OK]

/-- TENDER_HALT_DRAINED (R433, R439): the halting channel's writes have responded; a held channel's stage ends with the code. -/
def doTenderHaltDrained (n : Nat) (s : State) : State :=
  let t := s.chan n
  if t.st ≠ .halting ∨ t.lines ≠ [] then s
  else
    let s := (s.modChan n (fun t => { t with
      st := if t.tag.isSome then .idle else .halted, lastStatus := t.haltCode, tag := none, trig := t.trig && t.tag.isNone })).setEvent
        (Reg.TENDER_CH_EVENT n) 2
    match t.tag with
    | none => s
    | some tag => s.completeStage tag.q tag.frame tag.stage [t.haltCode]

/-- PAUSE_DRAINED (R436). -/
def doPauseDrained (n : Nat) (s : State) : State :=
  let t := s.chan n
  if t.st ≠ .pausing ∨ t.lines ≠ [] then s
  else s.modChan n (fun t => { t with st := .paused, early := [], cut := decide (t.written < t.blockEnd ∨ t.written = t.count) })

/-- ABORT_DRAINED (R435). -/
def doAbortDrained (n : Nat) (s : State) : State :=
  let t := s.chan n
  if t.st ≠ .aborting ∨ t.lines ≠ [] then s else s.chanAborted n

/-! Triggers (R428, R429). -/

/-- Trigger every channel whose TRIG selects the source. -/
def State.triggerAll (s : State) (p : ChanCfg → TChan → Bool) : State :=
  (List.range 32).foldl (fun (s : State) n => if p (s.chanCfg n) (s.chan n) then s.trigger n else s) s

/-- The first firing of a timer after harbour time `last` (R428). -/
def nextFiring (period offset last : Nat) : Nat :=
  let u := last / 1000 + 1
  1000 * (u + (offset + period - u % period) % period)

/-- TENDER_TIMER_FIRE (R428): timer t is enabled and a firing is due. -/
def doTenderTimerFire (t : Nat) (s : State) : State :=
  let period := fld (s.reg (Reg.TENDER_TIMER_PERIOD t)) 19 0
  let c := s.reg (Reg.TENDER_TIMER_CTRL t)
  let due := nextFiring period (fld c 20 1) (s.timers.getD t 0)
  if 8 ≤ t ∨ !flag c 0 ∨ period = 0 ∨ s.time.now < due then s
  else ({ s with timers := setAt s.timers t due } : State).triggerAll (fun cfg _ => decide (cfg.trig = 1 ∧ cfg.index = t))

/-- PERIPHERAL_REQUEST (R428): request line i is high: it triggers the channels that are ARMED between blocks. -/
def doPeripheralRequest (i : Nat) (s : State) : State :=
  s.triggerAll (fun cfg t => decide (cfg.trig = 3 ∧ cfg.index = i ∧ i < 16) && decide (t.st = .armed))

/-- CHAIN_TRIGGER (R428, R432): a completion pulse of channel m reaches the channels that chain on it. -/
def doChainTrigger (m : Nat) (s : State) : State :=
  if (s.chan m).pulses = 0 then s
  else (s.modChan m (fun t => { t with pulses := t.pulses - 1 })).triggerAll (fun cfg _ => decide (cfg.trig = 2 ∧ cfg.index = m))

/-! The meanings. -/

/-- TENDER_START (R427). -/
def execTenderStart (n : Fin 32) (s : State) : Res := act (fun s => s.chanStart n) s
/-- TENDER_PAUSE (R436). -/
def execTenderPause (n : Fin 32) (s : State) : Res := act (fun s => s.chanPause n) s
/-- TENDER_RESUME (R435). -/
def execTenderResume (n : Fin 32) (s : State) : Res := act (fun s => s.chanResume n) s
/-- TENDER_ABORT (R435). -/
def execTenderAbort (n : Fin 32) (s : State) : Res := act (fun s => s.chanAbort n) s
/-- TENDER_TIMER_FIRE. -/
def execTenderTimerFire (timer : Fin 8) (s : State) : Res := act (doTenderTimerFire timer) s
/-- PERIPHERAL_REQUEST. -/
def execPeripheralRequest (line : Fin 16) (s : State) : Res := act (doPeripheralRequest line) s
/-- CHAIN_TRIGGER. -/
def execChainTrigger (source : Fin 32) (s : State) : Res := act (doChainTrigger source) s
/-- TENDER_WRITE_RESPONSE. -/
def execTenderWriteResponse (n : Fin 32) (off : Nat) (wr : Bool) (st : Status) (bytes : List Byte) (s : State) : Res :=
  act (doTenderWriteResponse n off wr st bytes) s
/-- TENDER_RETRY. -/
def execTenderRetry (n : Fin 32) (off : Nat) (s : State) : Res := act (doTenderRetry n off) s
/-- TRANSFER_COMPLETE. -/
def execTransferComplete (n : Fin 32) (s : State) : Res := act (doTransferComplete n) s
/-- TENDER_HALT_DRAINED. -/
def execTenderHaltDrained (n : Fin 32) (s : State) : Res := act (doTenderHaltDrained n) s
/-- PAUSE_DRAINED. -/
def execPauseDrained (n : Fin 32) (s : State) : Res := act (doPauseDrained n) s
/-- ABORT_DRAINED. -/
def execAbortDrained (n : Fin 32) (s : State) : Res := act (doAbortDrained n) s

end Sys2Proof.Machine
end

