-- ==== Sys2Proof/Machine/Dispatch.lean ====
section
/-! DEFINITION. The meaning of each command: one arm per constructor of Instr, in the order of spec/opcode_table.json. -/
namespace Sys2Proof.Machine

/-- A command's effect on everything but the queue. -/
def exec (i : Instr) (s : State) : Host.Outcome State Fault Refusal :=
  match i with
  | .registerWrite ini a bytes v same => Sys2Proof.Machine.execRegisterWrite ini a bytes v same s
  | .loCaptureRead ini a => Sys2Proof.Machine.execLoCaptureRead ini a s
  | .hiWriteCommit ini a v => Sys2Proof.Machine.execHiWriteCommit ini a v s
  | .rcRead ini a bytes same => Sys2Proof.Machine.execRcRead ini a bytes same s
  | .ctxFrameRead c => Sys2Proof.Machine.execCtxFrameRead c s
  | .tickOriginWrite ini val => Sys2Proof.Machine.execTickOriginWrite ini val s
  | .gptpMessage port b sent => Sys2Proof.Machine.execGptpMessage port b sent s
  | .harbourTimeStep => Sys2Proof.Machine.execHarbourTimeStep s
  | .load q ini => Sys2Proof.Machine.execLoad q ini s
  | .loadComplete q => Sys2Proof.Machine.execLoadComplete q s
  | .start q ini => Sys2Proof.Machine.execStart q ini s
  | .dock q ini => Sys2Proof.Machine.execDock q ini s
  | .undock q ini => Sys2Proof.Machine.execUndock q ini s
  | .unload q ini => Sys2Proof.Machine.execUnload q ini s
  | .reset q ini => Sys2Proof.Machine.execReset q ini s
  | .dockTimeout q => Sys2Proof.Machine.execDockTimeout q s
  | .resetDrainLimit q => Sys2Proof.Machine.execResetDrainLimit q s
  | .resetQuiescent q => Sys2Proof.Machine.execResetQuiescent q s
  | .resetOverdue q => Sys2Proof.Machine.execResetOverdue q s
  | .resetEscalation q => Sys2Proof.Machine.execResetEscalation q s
  | .cadenceTick q => Sys2Proof.Machine.execCadenceTick q s
  | .windowOpen q n w => Sys2Proof.Machine.execWindowOpen q n w s
  | .windowClose q n w => Sys2Proof.Machine.execWindowClose q n w s
  | .stageComplete q n stage => Sys2Proof.Machine.execStageComplete q n stage s
  | .publishPoint q => Sys2Proof.Machine.execPublishPoint q s
  | .squashComplete q => Sys2Proof.Machine.execSquashComplete q s
  | .berthTagWrite t stream berth => Sys2Proof.Machine.execBerthTagWrite t stream berth s
  | .berthSignalArrival bad => Sys2Proof.Machine.execBerthSignalArrival bad s
  | .engineBerthRead r => Sys2Proof.Machine.execEngineBerthRead r s
  | .engineBerthWrite r => Sys2Proof.Machine.execEngineBerthWrite r s
  | .engineRequest r => Sys2Proof.Machine.execEngineRequest r s
  | .translationWalkDone idx => Sys2Proof.Machine.execTranslationWalkDone idx s
  | .memoryReply idx => Sys2Proof.Machine.execMemoryReply idx s
  | .hbmRead a err => Sys2Proof.Machine.execHbmRead a err s
  | .hbmMaskedWrite a data mask poison => Sys2Proof.Machine.execHbmMaskedWrite a data mask poison s
  | .patrolRead ch err => Sys2Proof.Machine.execPatrolRead ch err s
  | .sramPatrolRead m bank errs => Sys2Proof.Machine.execSramPatrolRead m bank errs s
  | .faultPop => Sys2Proof.Machine.execFaultPop s
  | .frameStart port hd vc => Sys2Proof.Machine.execFrameStart port hd vc s
  | .frameEnd port hd vc => Sys2Proof.Machine.execFrameEnd port hd vc s
  | .longPacket port hd vc dt bytes crcOk bad => Sys2Proof.Machine.execLongPacket port hd vc dt bytes crcOk bad s
  | .shortPacket port hd vc dt => Sys2Proof.Machine.execShortPacket port hd vc dt s
  | .phyError port => Sys2Proof.Machine.execPhyError port s
  | .sofDeadline c n => Sys2Proof.Machine.execSofDeadline c n s
  | .eofDeadline c => Sys2Proof.Machine.execEofDeadline c s
  | .patternInjection c ctxOk pipeOk => Sys2Proof.Machine.execPatternInjection c ctxOk pipeOk s
  | .fsyncEdge idx => Sys2Proof.Machine.execFsyncEdge idx s
  | .fsyncPulseEnd idx => Sys2Proof.Machine.execFsyncPulseEnd idx s
  | .ticketSubmit q c => Sys2Proof.Machine.execTicketSubmit q c s
  | .ticketWindowOpen idx => Sys2Proof.Machine.execTicketWindowOpen idx s
  | .ticketDone idx nack => Sys2Proof.Machine.execTicketDone idx nack s
  | .ticketResultPop => Sys2Proof.Machine.execTicketResultPop s
  | .i3cFwTransfer idx bits bytes => Sys2Proof.Machine.execI3cFwTransfer idx bits bytes s
  | .i3cIbi idx target bytes => Sys2Proof.Machine.execI3cIbi idx target bytes s
  | .spiDrdyEdge port => Sys2Proof.Machine.execSpiDrdyEdge port s
  | .spiSampleDone port data => Sys2Proof.Machine.execSpiSampleDone port data s
  | .lineArrive slot => Sys2Proof.Machine.execLineArrive slot s
  | .passEnd pipe => Sys2Proof.Machine.execPassEnd pipe s
  | .outputRowWrite slot output => Sys2Proof.Machine.execOutputRowWrite slot output s
  | .adjSubmit q c => Sys2Proof.Machine.execAdjSubmit q c s
  | .headDescriptorCheck cls inst => Sys2Proof.Machine.execHeadDescriptorCheck cls inst s
  | .warpBandComplete inst => Sys2Proof.Machine.execWarpBandComplete inst s
  | .predictionSubmit q c => Sys2Proof.Machine.execPredictionSubmit q c s
  | .ledgerWindowRead a n => Sys2Proof.Machine.execLedgerWindowRead a n s
  | .ledgerWindowWrite a bs => Sys2Proof.Machine.execLedgerWindowWrite a bs s
  | .ledgerSweepDone die q => Sys2Proof.Machine.execLedgerSweepDone die q s
  | .poseSubmit k => Sys2Proof.Machine.execPoseSubmit k s
  | .sndProducersDone => Sys2Proof.Machine.execSndProducersDone s
  | .edgeDeadline source region => Sys2Proof.Machine.execEdgeDeadline source region s
  | .edgeRelease ini => Sys2Proof.Machine.execEdgeRelease ini s
  | .edgeTest ini force => Sys2Proof.Machine.execEdgeTest ini force s
  | .matmul inst k => Sys2Proof.Machine.execMatmul inst k s
  | .conv2d inst k => Sys2Proof.Machine.execConv2d inst k s
  | .attn inst k => Sys2Proof.Machine.execAttn inst k s
  | .norm inst k => Sys2Proof.Machine.execNorm inst k s
  | .vec inst k => Sys2Proof.Machine.execVec inst k s
  | .reduce inst k => Sys2Proof.Machine.execReduce inst k s
  | .fetch inst k => Sys2Proof.Machine.execFetch inst k s
  | .copy inst k => Sys2Proof.Machine.execCopy inst k s
  | .layer inst => Sys2Proof.Machine.execLayer inst s
  | .elvEnd inst => Sys2Proof.Machine.execElvEnd inst s
  | .elvTransferComplete inst j => Sys2Proof.Machine.execElvTransferComplete inst j s
  | .bollardRelease q n voyage => Sys2Proof.Machine.execBollardRelease q n voyage s
  | .tandemIssue inst left => Sys2Proof.Machine.execTandemIssue inst left s
  | .layoutCopy inst => Sys2Proof.Machine.execLayoutCopy inst s
  | .permute inst => Sys2Proof.Machine.execPermute inst s
  | .gather inst => Sys2Proof.Machine.execGather inst s
  | .scatter inst => Sys2Proof.Machine.execScatter inst s
  | .fill inst => Sys2Proof.Machine.execFill inst s
  | .layoutEnd inst => Sys2Proof.Machine.execLayoutEnd inst s
  | .cmdringDoorbell q val => Sys2Proof.Machine.execCmdringDoorbell q val s
  | .cmdringEntryRead q => Sys2Proof.Machine.execCmdringEntryRead q s
  | .neuralRequestDispatch q placed => Sys2Proof.Machine.execNeuralRequestDispatch q placed s
  | .drlWindow => Sys2Proof.Machine.execDrlWindow s
  | .combinerTimeout port => Sys2Proof.Machine.execCombinerTimeout port s
  | .tagSetStaticFull q => Sys2Proof.Machine.execTagSetStaticFull q s
  | .tagSetEmpty q => Sys2Proof.Machine.execTagSetEmpty q s
  | .firmwareBerthWrite a bs => Sys2Proof.Machine.execFirmwareBerthWrite a bs s
  | .bankGateRequest ini bank => Sys2Proof.Machine.execBankGateRequest ini bank s
  | .bankGated bank => Sys2Proof.Machine.execBankGated bank s
  | .bankGateGiveup bank => Sys2Proof.Machine.execBankGateGiveup bank s
  | .bankWake ini bank => Sys2Proof.Machine.execBankWake ini bank s
  | .bankWakeDone bank => Sys2Proof.Machine.execBankWakeDone bank s
  | .hbmcRetireAdd st page => Sys2Proof.Machine.execHbmcRetireAdd st page s
  | .xltProbe val => Sys2Proof.Machine.execXltProbe val s
  | .xltProbeDone => Sys2Proof.Machine.execXltProbeDone s
  | .pageRemap q va leaf => Sys2Proof.Machine.execPageRemap q va leaf s
  | .tenderStart n => Sys2Proof.Machine.execTenderStart n s
  | .tenderPause n => Sys2Proof.Machine.execTenderPause n s
  | .tenderResume n => Sys2Proof.Machine.execTenderResume n s
  | .tenderAbort n => Sys2Proof.Machine.execTenderAbort n s
  | .tenderTimerFire timer => Sys2Proof.Machine.execTenderTimerFire timer s
  | .peripheralRequest line => Sys2Proof.Machine.execPeripheralRequest line s
  | .chainTrigger source => Sys2Proof.Machine.execChainTrigger source s
  | .tenderWriteResponse n off wr st bytes => Sys2Proof.Machine.execTenderWriteResponse n off wr st bytes s
  | .tenderRetry n off => Sys2Proof.Machine.execTenderRetry n off s
  | .transferComplete n => Sys2Proof.Machine.execTransferComplete n s
  | .tenderHaltDrained n => Sys2Proof.Machine.execTenderHaltDrained n s
  | .pauseDrained n => Sys2Proof.Machine.execPauseDrained n s
  | .abortDrained n => Sys2Proof.Machine.execAbortDrained n s
  | .hello p frame fcs => Sys2Proof.Machine.execHello p frame fcs s
  | .helloTimer => Sys2Proof.Machine.execHelloTimer s
  | .ack p frame fcs => Sys2Proof.Machine.execAck p frame fcs s
  | .ackTimer n => Sys2Proof.Machine.execAckTimer n s
  | .keepaliveAck n => Sys2Proof.Machine.execKeepaliveAck n s
  | .rtoExpiry n lane => Sys2Proof.Machine.execRtoExpiry n lane s
  | .peerTimeout n => Sys2Proof.Machine.execPeerTimeout n s
  | .bind p frame fcs => Sys2Proof.Machine.execBind p frame fcs s
  | .bindAck p frame fcs => Sys2Proof.Machine.execBindAck p frame fcs s
  | .bindRetry q n => Sys2Proof.Machine.execBindRetry q n s
  | .read p frame fcs => Sys2Proof.Machine.execRead p frame fcs s
  | .readResp p frame fcs => Sys2Proof.Machine.execReadResp p frame fcs s
  | .write p frame fcs => Sys2Proof.Machine.execWrite p frame fcs s
  | .writeAck p frame fcs => Sys2Proof.Machine.execWriteAck p frame fcs s
  | .signal p frame fcs => Sys2Proof.Machine.execSignal p frame fcs s
  | .signalAck p frame fcs => Sys2Proof.Machine.execSignalAck p frame fcs s
  | .stream p frame fcs => Sys2Proof.Machine.execStream p frame fcs s
  | .streamData p frame fcs => Sys2Proof.Machine.execStreamData p frame fcs s
  | .streamEnd p frame fcs => Sys2Proof.Machine.execStreamEnd p frame fcs s
  | .requestDeadline n tag => Sys2Proof.Machine.execRequestDeadline n tag s
  | .writePackTimeout idx => Sys2Proof.Machine.execWritePackTimeout idx s
  | .linkUp p => Sys2Proof.Machine.execLinkUp p s
  | .linkDown p => Sys2Proof.Machine.execLinkDown p s
  | .otherEthertypeFrame p frame => Sys2Proof.Machine.execOtherEthertypeFrame p frame s
  | .ethMgmtRxFrame frame fcs => Sys2Proof.Machine.execEthMgmtRxFrame frame fcs s
  | .ethMgmtTxDoorbell val => Sys2Proof.Machine.execEthMgmtTxDoorbell val s
  | .gclCommit ini val => Sys2Proof.Machine.execGclCommit ini val s
  | .gclTakeEffect => Sys2Proof.Machine.execGclTakeEffect s
  | .lighthouseVerdict entry status lines => Sys2Proof.Machine.execLighthouseVerdict entry status lines s
  | .ageTick => Sys2Proof.Machine.execAgeTick s
  | .descriptorCheck => Sys2Proof.Machine.execDescriptorCheck s
  | .decision => Sys2Proof.Machine.execDecision s
  | .noticeTimer => Sys2Proof.Machine.execNoticeTimer s
  | .cgRelease ini val => Sys2Proof.Machine.execCgRelease ini val s
  | .cgSwRequest ini val => Sys2Proof.Machine.execCgSwRequest ini val s
  | .cgWdtKick ini => Sys2Proof.Machine.execCgWdtKick ini s
  | .watchdogExpiry => Sys2Proof.Machine.execWatchdogExpiry s
  | .selfFault k => Sys2Proof.Machine.execSelfFault k s
  | .detectorSample space => Sys2Proof.Machine.execDetectorSample space s
  | .noProgress q space => Sys2Proof.Machine.execNoProgress q space s
  | .salvageDeclare q ini => Sys2Proof.Machine.execSalvageDeclare q ini s
  | .snapshot q ini => Sys2Proof.Machine.execSnapshot q ini s
  | .shadowMirror q cls inst => Sys2Proof.Machine.execShadowMirror q cls inst s
  | .dumpUnitAnswer q => Sys2Proof.Machine.execDumpUnitAnswer q s
  | .dumpUnitTimeout q => Sys2Proof.Machine.execDumpUnitTimeout q s
  | .dumpRelease q => Sys2Proof.Machine.execDumpRelease q s
  | .replayDispatch q => Sys2Proof.Machine.execReplayDispatch q s
  | .replayTimeout q => Sys2Proof.Machine.execReplayTimeout q s
  | .coldReset ns => Sys2Proof.Machine.execColdReset ns s
  | .coldResetRelease src recovery node medium sound => Sys2Proof.Machine.execColdResetRelease src recovery node medium sound s
  | .warmRstN samples => Sys2Proof.Machine.execWarmRstN samples s
  | .topResetWarm => Sys2Proof.Machine.execTopResetWarm s
  | .hbmTrainingDone stack ok => Sys2Proof.Machine.execHbmTrainingDone stack ok s
  | .coreRelease v => Sys2Proof.Machine.execCoreRelease v s
  | .announce => Sys2Proof.Machine.execAnnounce s
  | .data uart off bytes => Sys2Proof.Machine.execData uart off bytes s
  | .done uart => Sys2Proof.Machine.execDone uart s
  | .verify => Sys2Proof.Machine.execVerify s
  | .digest => Sys2Proof.Machine.execDigest s
  | .attest => Sys2Proof.Machine.execAttest s
  | .rollbackAdvance => Sys2Proof.Machine.execRollbackAdvance s
  | .fuseProgram => Sys2Proof.Machine.execFuseProgram s
  | .debugOpen => Sys2Proof.Machine.execDebugOpen s
  | .mailboxComplete => Sys2Proof.Machine.execMailboxComplete s
  | .unlock token => Sys2Proof.Machine.execUnlock token s
  | .topMsiWrite v val => Sys2Proof.Machine.execTopMsiWrite v val s
  | .pcieInbound r => Sys2Proof.Machine.execPcieInbound r s
  | .epochBoundary m o => Sys2Proof.Machine.execEpochBoundary m o s
  | .clockChangeDone => Sys2Proof.Machine.execClockChangeDone s
  | .sensorSample temps => Sys2Proof.Machine.execSensorSample temps s
  | .voutCommand r ack => Sys2Proof.Machine.execVoutCommand r ack s
  | .pmbAlert => Sys2Proof.Machine.execPmbAlert s
  | .railFault rails => Sys2Proof.Machine.execRailFault rails s
  | .warmRstNRelease => Sys2Proof.Machine.execWarmRstNRelease s
  | .lossOfLock => Sys2Proof.Machine.execLossOfLock s
  | .gclEntryExpiry => Sys2Proof.Machine.execGclEntryExpiry s
  | .ethMgmtTxSent => Sys2Proof.Machine.execEthMgmtTxSent s

end Sys2Proof.Machine
end

