-- ==== Sys2Proof/WellFormed.lean ====
section
/-! DEFINITION. Which terms of Instr stand for a command of the hardware: operands within the widths that the spec gives them. Numbers
of ports, channels, cores and quays are bounded by their types already. -/
namespace Sys2Proof
open Sys2Proof.Machine

/-- A device address has 48 bits (R396). -/
def okAddr (a : Nat) : Bool := decide (a < 2 ^ 48)

/-- A control-window access is of 1 to 64 bytes (R10). -/
def okAccess (a n : Nat) : Bool := decide (1 ≤ n ∧ n ≤ 64 ∧ a < 0x1700000)

/-- An error pattern names distinct symbols of a line's codeword, each in error by a non-zero byte (R403). -/
def okErrors (err : List (Nat × Nat)) : Bool :=
  err.all (fun e => decide (e.1 < 72 ∧ 0 < e.2 ∧ e.2 < 256)) && decide ((err.map (·.1)).Nodup)

/-- A quay, handle and slot that a request carries (R118, R371). -/
def ReqTag.ok (t : ReqTag) : Bool := decide (t.quay < 4 ∧ t.handle < 1024 ∧ t.gen < 16)

/-- An access to one line of a berth, all of it or, for a write, its enabled bytes (R350, R369). -/
def okBerth (r : BerthReq) : Bool :=
  ReqTag.ok r.tag && decide (r.berth < 49152 ∧ r.off < 4096 ∧ r.off % 64 = 0 ∧ r.enables < 2 ^ 64) &&
    decide (r.kind = .read ∨ r.data.length = 64)

/-- A request to a line of HBM or a remote window (R350, R413). -/
def okMem (r : MemReq) : Bool :=
  ReqTag.ok r.tag && decide (r.va < 2 ^ 48 ∧ r.enables < 2 ^ 64 ∧ r.indices.length ≤ 6) && decide (r.kind = .read ∨ r.data.length = 64)

/-- A frame on the wire without its FCS: at least its two MAC addresses and EtherType, at most a jumbo frame (R444). -/
def okFrame (b : List Byte) : Bool := decide (14 ≤ b.length ∧ b.length ≤ 9600)

/-- Virtual channel and data type of a CSI-2 packet (R124, R125). -/
def okPacket (vc dt : Nat) : Bool := decide (vc < 32 ∧ dt < 64)

/-- The operands are within their widths. -/
def Instr.wf : Instr → Bool
  | .registerWrite _ a n _ _ => okAccess a n
  | .rcRead _ a n _ => okAccess a n
  | .loCaptureRead _ a => okAccess a 4
  | .hiWriteCommit _ a _ => okAccess a 4
  | .berthTagWrite t _ b => ReqTag.ok t && decide (b < 49152)
  | .engineBerthRead r => okBerth r
  | .engineBerthWrite r => okBerth r
  | .engineRequest r => okMem r
  | .hbmRead a err => okAddr a && okErrors err
  | .hbmMaskedWrite a d m _ => okAddr a && decide (d.length = 64 ∧ m < 2 ^ 64)
  | .patrolRead _ err => okErrors err
  | .frameStart _ _ vc => okPacket vc 0
  | .frameEnd _ _ vc => okPacket vc 1
  | .longPacket _ _ vc dt _ _ _ => okPacket vc dt
  | .shortPacket _ _ vc dt => okPacket vc dt
  | .ticketSubmit _ c => decide (c < 32)
  | .adjSubmit _ c => decide (c < 32)
  | .predictionSubmit _ c => decide (c < 32)
  | .poseSubmit k => decide (k < 4)
  | .i3cIbi _ target _ => decide (target < 128)
  | .spiSampleDone _ d => decide (d.length ≤ 48)
  | .ledgerWindowRead a n => okAddr a && decide (1 ≤ n ∧ n ≤ 64)
  | .ledgerWindowWrite a bs => okAddr a && decide (1 ≤ bs.length ∧ bs.length ≤ 64)
  | .firmwareBerthWrite a bs => okAddr a && decide (1 ≤ bs.length ∧ bs.length ≤ 64)
  | .pageRemap _ va leaf => okAddr va && decide (leaf < 2 ^ 64)
  | .tenderWriteResponse _ _ _ _ bs => decide (bs.length ≤ 64)
  | .hello _ b _ => okFrame b
  | .ack _ b _ => okFrame b
  | .bind _ b _ => okFrame b
  | .bindAck _ b _ => okFrame b
  | .read _ b _ => okFrame b
  | .readResp _ b _ => okFrame b
  | .write _ b _ => okFrame b
  | .writeAck _ b _ => okFrame b
  | .signal _ b _ => okFrame b
  | .signalAck _ b _ => okFrame b
  | .stream _ b _ => okFrame b
  | .streamData _ b _ => okFrame b
  | .streamEnd _ b _ => okFrame b
  | .otherEthertypeFrame _ b => okFrame b
  | .ethMgmtRxFrame b _ => okFrame b
  | .coldResetRelease _ _ node _ _ => decide (node < 8)
  | .unlock token => decide (token.length = 144)
  | .epochBoundary m _ => decide (m.railMa.length ≤ 16 ∧ m.stackTemps.length ≤ 2)
  | .sensorSample temps => decide (temps.length ≤ 32)
  | .railFault rails => rails.all (fun r => decide (r < 16))
  | .ctxFrameRead _ | .tickOriginWrite _ _ | .gptpMessage _ _ _ | .harbourTimeStep | .load _ _ | .loadComplete _ | .start _ _ | .dock _ _
  | .undock _ _ | .unload _ _ | .reset _ _ | .dockTimeout _ | .resetDrainLimit _ | .resetQuiescent _ | .resetOverdue _ | .resetEscalation _
  | .cadenceTick _ | .windowOpen _ _ _ | .windowClose _ _ _ | .stageComplete _ _ _ | .publishPoint _ | .squashComplete _ | .berthSignalArrival _
  | .translationWalkDone _ | .memoryReply _ | .sramPatrolRead _ _ _ | .faultPop | .phyError _ | .sofDeadline _ _ | .eofDeadline _
  | .patternInjection _ _ _ | .fsyncEdge _ | .fsyncPulseEnd _ | .ticketWindowOpen _ | .ticketDone _ _ | .ticketResultPop | .i3cFwTransfer _ _ _
  | .spiDrdyEdge _ | .lineArrive _ | .passEnd _ | .outputRowWrite _ _ | .headDescriptorCheck _ _ | .warpBandComplete _ | .ledgerSweepDone _ _
  | .sndProducersDone | .edgeDeadline _ _ | .edgeRelease _ | .edgeTest _ _ | .matmul _ _ | .conv2d _ _ | .attn _ _ | .norm _ _ | .vec _ _
  | .reduce _ _ | .fetch _ _ | .copy _ _ | .layer _ | .elvEnd _ | .elvTransferComplete _ _ | .bollardRelease _ _ _ | .tandemIssue _ _ | .layoutCopy _
  | .permute _ | .gather _ | .scatter _ | .fill _ | .layoutEnd _ | .cmdringDoorbell _ _ | .cmdringEntryRead _ | .neuralRequestDispatch _ _
  | .drlWindow | .combinerTimeout _ | .tagSetStaticFull _ | .tagSetEmpty _ | .bankGateRequest _ _ | .bankGated _ | .bankGateGiveup _ | .bankWake _ _
  | .bankWakeDone _ | .hbmcRetireAdd _ _ | .xltProbe _ | .xltProbeDone | .tenderStart _ | .tenderPause _ | .tenderResume _ | .tenderAbort _
  | .tenderTimerFire _ | .peripheralRequest _ | .chainTrigger _ | .tenderRetry _ _ | .transferComplete _ | .tenderHaltDrained _ | .pauseDrained _
  | .abortDrained _ | .helloTimer | .ackTimer _ | .keepaliveAck _ | .rtoExpiry _ _ | .peerTimeout _ | .bindRetry _ _ | .requestDeadline _ _
  | .writePackTimeout _ | .linkUp _ | .linkDown _ | .ethMgmtTxDoorbell _ | .gclCommit _ _ | .gclTakeEffect | .lighthouseVerdict _ _ _ | .ageTick
  | .descriptorCheck | .decision | .noticeTimer | .cgRelease _ _ | .cgSwRequest _ _ | .cgWdtKick _ | .watchdogExpiry | .selfFault _
  | .detectorSample _ | .noProgress _ _ | .salvageDeclare _ _ | .snapshot _ _ | .shadowMirror _ _ _ | .dumpUnitAnswer _ | .dumpUnitTimeout _
  | .dumpRelease _ | .replayDispatch _ | .replayTimeout _ | .coldReset _ | .warmRstN _ | .topResetWarm | .hbmTrainingDone _ _ | .coreRelease _
  | .announce | .data _ _ _ | .done _ | .verify | .digest | .attest | .rollbackAdvance | .fuseProgram | .debugOpen | .mailboxComplete
  | .topMsiWrite _ _ | .pcieInbound _ | .clockChangeDone | .voutCommand _ _ | .pmbAlert | .warmRstNRelease | .lossOfLock | .gclEntryExpiry
  | .ethMgmtTxSent => true

end Sys2Proof
end

