-- ==== Sys2Proof/Safety.lean ====
section
/-! DEFINITION. What a sound state is, in the terms that statements use: every sparse table in its one canonical form, and every command
that waits well formed. -/
namespace Sys2Proof.Machine

/-- Memory is in its one canonical form: bytes, poison marks, berth tags and tile stores are listed by strictly rising keys, and no entry equals
what an unlisted key reads as (R376, R396). -/
def Memory.wf (m : MemState) : Bool :=
  Tab.wf byte0 m.bytes && Tab.wf mark0 m.poison && Tab.wf mark0 m.fresh && Tab.wf byte0 m.tile && Tab.wf mark0 m.tilePoison && Tab.wf tag0 m.tags

/-- Every sparse table is in canonical form: registers, captures, held halves, and the tables of the memory system (R10, R20, R396). -/
def State.tablesWf (s : State) : Bool :=
  Tab.wf regReset s.regs && Tab.wf noCapture s.captures && Tab.wf noHeld s.heldLo && Memory.wf s.mem

/-- Every command that waits is well formed. -/
def State.pendingWf (s : State) : Bool := s.pending.all Instr.wf

/-- No reset holds the device. -/
def State.awake (s : State) : Bool := !s.coldHeld && !s.warmHeld

/-- The device as a cold reset leaves it (R21, R557): every register, memory and unit at its reset value. What a reset does not touch is as it
is: fuses and boot medium, and, after an internal cold reset, the hold of a critical trip, the die sensors' samples and a recorded self-fault
(R552, R562). -/
def State.coldImage (s : State) : State :=
  { State.reset with
    regs := if s.customs.fuses.industrial then Tab.set regReset [] Reg.PMC_THROTTLE_TEMP (w32 100) else []
    customs := { CustomsState.reset with fuses := s.customs.fuses, medium := s.customs.medium }
    cg := { CgState.reset with selfFault := s.cg.selfFault, active := s.cg.active }
    pmc := { PmcState.reset with tripHold := s.pmc.tripHold, temps := s.pmc.temps, tripOnce := s.pmc.tripOnce }
    out := s.out
    reply := s.reply
    coldHeld := true
    free := s.free
    pending := s.pending }

/-- While PORST_N is low the whole device is held in reset (R557). -/
def State.coldWf (s : State) : Bool := !s.coldHeld || decide (s = s.coldImage)

/-- The outcome is a next state that satisfies `p`. -/
def Res.nextWith (r : Res) (p : State → Prop) : Prop := ∃ t, r = .next t ∧ p t

/-- The command of a quay command's name (R70). -/
def QCmd.instr (c : QCmd) (q : Fin 4) (ini : Initiator) : Instr :=
  match c with
  | .load => .load q ini
  | .start => .start q ini
  | .dock => .dock q ini
  | .undock => .undock q ini
  | .unload => .unload q ini
  | .reset => .reset q ini

/-- Operands are all found: each is unused or a reference without poisoned heads. -/
def RefSet.found (r : RefSet) : Prop := ∀ x ∈ r.all, x = .unused ∨ ∃ o, x = .ref o false

/-- The next command of the k-th stage on ELV instance `inst` is `cx`, it is `op`, nothing is wrong with it (R311) and its operands are
found. -/
def State.elvReady (s : State) (op inst k : Nat) (cx : CmdCtx) : Prop :=
  s.cmdCtx Cls.ELV inst k = some cx ∧ s.mayIssue inst k cx.run = true ∧ cx.c.op = op ∧
    cx.elvFaults cx.c.uses (s.refSet cx cx.c.uses) = [] ∧ (s.refSet cx cx.c.uses).found

/-- The next command of the stage on LAYOUT instance `inst` is `cx`, it is `op`, nothing is wrong with it (R362) and its operands are
found and ready. -/
def State.layReady (s : State) (op inst : Nat) (cx : CmdCtx) : Prop :=
  s.cmdCtx Cls.LAYOUT inst 0 = some cx ∧ cx.c.op = op ∧ cx.layFaults cx.c.layUses (s.refSet cx cx.c.layUses) = [] ∧
    (s.refSet cx cx.c.layUses).found ∧
    ([(s.refSet cx cx.c.layUses).refs.a, (s.refSet cx cx.c.layUses).refs.b].filterMap id).all (s.refReady cx) = true

end Sys2Proof.Machine

namespace Sys2Proof
open Sys2Proof.Machine

/-- The commands that act while PORST_N is low: the pins and rails of the resets, and the die sensors, which a critical trip watches
(R557, R562). -/
def Instr.actsInColdReset : Instr → Bool
  | .coldReset _ => true
  | .coldResetRelease _ _ _ _ _ => true
  | .warmRstN _ => true
  | .warmRstNRelease => true
  | .railFault _ => true
  | .sensorSample _ => true
  | _ => false

/-- An access of Coastguard software to its own block, which goes on through a device warm reset (R471, R536). -/
def cgAccess (ini : Initiator) (a : Nat) : Bool := decide (ini = .cg ∧ blockOf a = 18)

/-- The commands that act while a device warm reset is in progress: those of a cold reset, the time base and Coastguard (R471, R536). -/
def Instr.actsInWarmReset : Instr → Bool
  | .harbourTimeStep => true
  | .ageTick => true
  | .descriptorCheck => true
  | .decision => true
  | .noticeTimer => true
  | .cgRelease _ _ => true
  | .cgSwRequest _ _ => true
  | .cgWdtKick _ => true
  | .watchdogExpiry => true
  | .selfFault _ => true
  | .registerWrite ini a _ _ _ => cgAccess ini a
  | .loCaptureRead ini a => cgAccess ini a
  | .hiWriteCommit ini a _ => cgAccess ini a
  | .rcRead ini a _ _ => cgAccess ini a
  | c => c.actsInColdReset

/-- Commands whose effect is on registers, on a unit's own record and on pins and ports alone: they reach neither memory nor the quays. -/
def Instr.sparesMemory : Instr → Bool
  | .tenderStart _ => true
  | .tenderPause _ => true
  | .tenderResume _ => true
  | .tenderAbort _ => true
  | .tenderTimerFire _ => true
  | .peripheralRequest _ => true
  | .chainTrigger _ => true
  | .tenderRetry _ _ => true
  | .pauseDrained _ => true
  | .abortDrained _ => true
  | .gclCommit _ _ => true
  | .cgSwRequest _ _ => true
  | .cgWdtKick _ => true
  | .coreRelease _ => true
  | .announce => true
  | .data _ _ _ => true
  | .verify => true
  | .mailboxComplete => true
  | .dumpRelease _ => true
  | .topMsiWrite _ _ => true
  | .voutCommand _ _ => true
  | .pmbAlert => true
  | .fsyncEdge _ => true
  | .fsyncPulseEnd _ => true
  | .ticketResultPop => true
  | _ => false

end Sys2Proof
end

