-- ==== Sys2Proof/Certificates/Slice0/Obligations.lean ====
section
/-! DEFINITION. What is to be proved of the machine: the rules of the spec about its registers, harbour time, quays, frames, memory, engines,
fleet, safety island, recovery, boot and power, each as one statement. `s.after t` is the state `t` with harbour time, the cold reset and the queue
as they are in `s`: no command but the time base's and the resets' changes them. -/
open Sys2Proof Sys2Proof.Machine

/-- For every command c and state s: the step of a state with c at the front of its queue is exec of c on that state with the rest of the
queue. The queue is the model's own (log entry 1). -/
def Obligations.StepRunsFrontCommand : Prop :=
  ∀ (c : Instr) (rest : List Instr) (s : State), s.pending = c :: rest → step s = exec c { s with pending := rest }

/-- For every command and state: exec answers a next state, never a fault or a refusal, and the queue of waiting commands is unchanged. -/
def Obligations.CommandsAnswerAndKeepQueue : Prop :=
  ∀ (c : Instr) (s : State), ∃ t, exec c s = .next t ∧ t.pending = s.pending

/-- With no command waiting and PORST_N high, a step changes harbour time's record alone (the outputs and the reply of the last command are
gone): now advances by 2 ns when nothing is left to slew, and by 1 to 3 ns otherwise; a slew that is gathering moves the slewed phase by
at most 1 ns. While PORST_N is low nothing but the outputs and the reply changes. That an empty queue stands for one cycle is the model's
choice (log entry 1). -/
def Obligations.IdleCycleAdvancesHarbourTime : Prop :=
  (∀ s : State, s.pending = [] → s.coldHeld = false →
    ∃ u : TimeState, step s = .next { s with out := [], reply := none, time := u } ∧
      (s.time.slew = 0 → u.now = s.time.now + 2 ∧ u.slew = 0) ∧ s.time.now + 1 ≤ u.now ∧ u.now ≤ s.time.now + 3 ∧
      ((u.now : Int) - s.time.now - 2 = s.time.slew - u.slew) ∧ u.locked = s.time.locked ∧ u.step = s.time.step) ∧
  (∀ s : State, s.pending = [] → s.coldHeld = true → step s = .next { s with out := [], reply := none })

/-- State.reset: every register reads its reset value, every quay is EMPTY at tide 0 with no chart, harbour time is 0, the fault FIFO is
empty, no reset holds the device, every byte of memory reads 0 (the model's choice, log entry 3), every sparse table is in canonical form
and the queue is empty. -/
def Obligations.ResetStateIsAsColdReset : Prop :=
  (∀ a, State.reset.reg a = regReset a) ∧ (∀ q : Fin 4, State.reset.quays[q] = Quay.reset) ∧ Quay.reset.st = .empty ∧
  Quay.reset.tide = 0#8 ∧ Quay.reset.chart = none ∧ State.reset.time.now = 0 ∧ State.reset.faultFifo = [] ∧
  State.reset.awake = true ∧ (∀ a, Tab.get byte0 State.reset.mem.bytes a = 0#8) ∧ State.reset.tablesWf = true ∧
  State.reset.coldWf = true ∧ State.reset.pending = []

/-- An invariant of every step: while PORST_N is low every register, memory and unit holds its reset value (but for what no reset touches:
fuses and boot medium, the hold of a critical trip, the die sensors' samples and a recorded self-fault), and every command that waits is
well formed. The last three are the model's reading (log entries on cold reset). -/
def Obligations.ColdResetHoldsTheDevice : Prop :=
  ∀ s t : State, s.coldWf = true → s.pendingWf = true → step s = .next t → t.coldWf = true ∧ t.pendingWf = true

/-- For every state and every step from it, whatever command is at the front of the queue: either the device is then held in cold reset, or
harbour time is no less than before. -/
def Obligations.HarbourTimeNeverDecreases : Prop :=
  ∀ s t : State, step s = .next t → t.coldHeld = true ∨ s.time.now ≤ t.time.now

/-- While a device warm reset is in progress, every command but those of the resets, the rails and sensors, the time base and Coastguard (with
its own register block) changes nothing: exec answers the state with the outputs and the reply of the last command gone. While PORST_N is
low, so does every command but the cold reset's own, WARM_RST_N and its release, a rail fault and a sample of the die sensors. -/
def Obligations.ResetsAbsorbCommands : Prop :=
  (∀ (c : Instr) (s : State), s.coldHeld = false → s.warmHeld = true → c.actsInWarmReset = false → exec c s = .next s.begin) ∧
  (∀ (c : Instr) (s : State), s.coldHeld = true → c.actsInColdReset = false → exec c s = .next s.begin)

/-- For every initiator, address of a block window, width and alignment other than one naturally aligned 32-bit word, and for a read and a
write alike: the access completes normally, a read returns zero, nothing is written but the block's ignored-write counter (saturating) and
the offset of the ignored access. -/
def Obligations.OddAccessReadsZeroAndCounts : Prop :=
  ∀ (s : State) (ini : Initiator) (a n : Nat) (v same : Word), s.awake = true → blockOf a < 23 → (n ≠ 4 ∨ a % 4 ≠ 0) →
    let t : State := (((s.begin.setReg (Reg.IGNORED_WRITE_COUNT (blockOf a)) (satInc (s.reg (Reg.IGNORED_WRITE_COUNT (blockOf a))) 1)).put
      (Reg.LAST_IGNORED_OFFSET (blockOf a)) (offOf a))).answer St.OK 0
    exec (.registerWrite ini a n v same) s = .next (s.after t) ∧ exec (.rcRead ini a n same) s = .next (s.after t) ∧
    (a % 4 ≠ 0 → exec (.loCaptureRead ini a) s = .next (s.after t) ∧ exec (.hiWriteCommit ini a v) s = .next (s.after t))

/-- Aligned words only. A reserved offset reads zero; a write to it is ignored and counted. A write that the register's access code, initiator
or owning quay does not allow is ignored and counted: RO and RC registers always, an RWD register unless its owning quay is DOCKED or
EMPTY. No other register changes. -/
def Obligations.ReservedAndForbiddenWritesAreCounted : Prop :=
  (∀ (s : State) (ini : Initiator) (a : Nat) (v same : Word), s.awake = true → blockOf a < 23 → a % 4 = 0 → regRow a = none →
    exec (.rcRead ini a 4 same) s = .next (s.after (s.begin.answer St.OK 0)) ∧
    exec (.registerWrite ini a 4 v same) s = .next (s.after ((s.begin.ignoredWrite a).answer St.OK))) ∧
  (∀ (s : State) (ini : Initiator) (a : Nat) (v same : Word) (r : RegRow) (i : Nat), s.awake = true → a % 4 = 0 →
    regRow a = some (r, i) →
    (r.acc = .ro ∨ r.acc = .rc ∨ (r.acc = .rwd ∧ (∀ q, s.regOwner a = some q → s.quays[q].st ≠ .docked ∧ s.quays[q].st ≠ .empty))) →
    exec (.registerWrite ini a 4 v same) s = .next (s.after ((s.begin.ignoredWrite a).answer St.OK)))

/-- For every register that stores its written value (RW, or RWD while its owner is DOCKED or EMPTY), is no half of a 64-bit pair and whose
write is no command: the register then holds the written value with every reserved bit zero, every other register and everything else is
as before, and the access completes with OK. -/
def Obligations.PlainWriteStoresUnreservedBits : Prop :=
  ∀ (s : State) (ini : Initiator) (a : Nat) (v same : Word) (r : RegRow) (i : Nat), s.awake = true → a % 4 = 0 →
    regRow a = some (r, i) → (r.acc = .rw ∨ r.acc = .rwd) → s.mayWrite ini a r i = true → isLo a = false → isHi a = false →
    s.mayHold a i (v &&& w32 r.mask) = true → s.begin.writeSpecial ini a i (v &&& w32 r.mask) same = none →
    ∃ t, exec (.registerWrite ini a 4 v same) s = .next t ∧ t = s.after ((s.begin.setReg a (v &&& w32 r.mask)).answer St.OK) ∧
      t.reg a = v &&& w32 r.mask ∧ (∀ b, b ≠ a → t.reg b = s.reg b)

/-- Every register with the access code RWD has an owning quay named through its index, its engine instance or its stream. -/
def Obligations.RwdRegistersBelongToQuays : Prop :=
  ∀ (a : Nat) (r : RegRow) (i : Nat), regRow a = some (r, i) → r.acc = .rwd → r.own ≠ .none

/-- For every W1C register but the service register, and for every written value and set of bits that hardware sets in the cycle of the write:
a bit written 1 is cleared unless hardware sets it, a bit set and cleared in the same cycle is 1 after, and COLLIDE_COUNT then advances by
one, saturating. For the service register likewise: each code raised in the same cycle stays latched and the collision is counted. -/
def Obligations.SetWinsOverClearOfW1c : Prop :=
  (∀ (s : State) (ini : Initiator) (a : Nat) (v same : Word) (r : RegRow) (i : Nat), s.awake = true → a % 4 = 0 →
    regRow a = some (r, i) → r.acc = .w1c → a ≠ Reg.PMC_SERVICE_LATCHED → s.mayWrite ini a r i = true →
    let hit := v &&& w32 r.mask &&& same
    ∃ t, exec (.registerWrite ini a 4 v same) s = .next t ∧ t.reg a = (s.reg a &&& ~~~(v &&& w32 r.mask &&& ~~~hit)) ||| hit ∧
      t.reg a &&& hit = hit ∧
      t.reg (Reg.COLLIDE_COUNT (blockOf a)) =
        (if hit = 0#32 then s.reg (Reg.COLLIDE_COUNT (blockOf a)) else satInc (s.reg (Reg.COLLIDE_COUNT (blockOf a))) 1)) ∧
  (∀ (s : State) (ini : Initiator) (v same : Word), s.awake = true →
    let hit := v &&& same &&& w32 0x3CE
    ∃ t, exec (.registerWrite ini Reg.PMC_SERVICE_LATCHED 4 v same) s = .next t ∧
      t.reg Reg.PMC_SERVICE_LATCHED &&& hit = hit ∧
      t.reg (Reg.COLLIDE_COUNT 20) =
        (if hit = 0#32 then s.reg (Reg.COLLIDE_COUNT 20) else satInc (s.reg (Reg.COLLIDE_COUNT 20)) 1))

/-- A read of a _LO register captures the whole 64-bit value and returns its low half, and changes no register; a read of its _HI register
returns the high half of the captured value while one is held, whatever the registers hold now, and that of the live value otherwise; a
write to a plain _LO register is held and changes no register; a write to a plain _HI register then stores both halves. -/
def Obligations.PairsCaptureHoldAndCommit : Prop :=
  (∀ (s : State) (ini : Initiator) (a : Nat) (r : RegRow) (i : Nat), s.awake = true → a % 4 = 0 → regRow a = some (r, i) → isLo a = true →
    let v := (s.view a).toNat + 2 ^ 32 * (s.view (a + 4)).toNat
    let t : State := { s.begin with captures := s.captures.set noCapture a (some v) }
    exec (.loCaptureRead ini a) s = .next (s.after (t.answer St.OK (v % 2 ^ 32))) ∧
    exec (.rcRead ini a 4 0#32) s = .next (s.after (t.answer St.OK (v % 2 ^ 32)))) ∧
  (∀ (s : State) (ini : Initiator) (a : Nat) (r : RegRow) (i : Nat) (same : Word), s.awake = true → a % 4 = 0 →
    regRow (a + 4) = some (r, i) → isLo a = true → isLo (a + 4) = false → ctxFrame? (a + 4) = none →
    exec (.rcRead ini (a + 4) 4 same) s = .next (s.after (s.begin.answer St.OK
      (match s.captures.get noCapture a with | some v => v / 2 ^ 32 | none => (s.view (a + 4)).toNat)))) ∧
  (∀ (s : State) (ini : Initiator) (a : Nat) (v same : Word) (r : RegRow) (i : Nat), s.awake = true → a % 4 = 0 →
    regRow a = some (r, i) → r.acc = .rw → s.mayWrite ini a r i = true → isLo a = true →
    exec (.registerWrite ini a 4 v same) s =
      .next (s.after (({ s.begin with heldLo := s.heldLo.set noHeld a (some (v &&& w32 r.mask)) } : State).answer St.OK))) ∧
  (∀ (s : State) (ini : Initiator) (a : Nat) (v w : Word) (r : RegRow) (i : Nat), s.awake = true → a % 4 = 0 →
    regRow a = some (r, i) → r.acc = .rw → s.mayWrite ini a r i = true → isLo a = false → isHi a = true →
    s.mayHold a i (v &&& w32 r.mask) = true → s.heldLo.get noHeld (a - 4) = some w →
    (s.begin.commitLo (a - 4)).writeSpecial ini a i (v &&& w32 r.mask) 0#32 = none →
    ∃ t, exec (.hiWriteCommit ini a v) s = .next t ∧ t.reg (a - 4) = w ∧ t.reg a = v &&& w32 r.mask ∧
      (∀ b, b ≠ a → b ≠ a - 4 → t.reg b = s.reg b) ∧ t.heldLo.get noHeld (a - 4) = none)

/-- For every register of a block window that is no half of a 64-bit pair, no read-to-clear register and not CAMRX_CTX_FRAME: the read returns
what the register reads as and changes nothing else. A read of CAMRX_CTX_FRAME[c] returns the frame number of context c's last frame and
captures that frame's other registers, changing nothing else. -/
def Obligations.ReadsReturnTheValueAndChangeNoRegister : Prop :=
  (∀ (s : State) (ini : Initiator) (a : Nat) (same : Word) (r : RegRow) (i : Nat), s.awake = true → a % 4 = 0 → regRow a = some (r, i) →
    r.acc ≠ .rc → isLo a = false → isHi a = false → ctxFrame? a = none →
    exec (.rcRead ini a 4 same) s = .next (s.after (s.begin.answer St.OK (s.view a).toNat))) ∧
  (∀ (s : State) (c : Fin 24), s.awake = true →
    exec (.ctxFrameRead c) s = .next (s.after ((s.begin.modCtx c (fun x => { x with captured := x.last })).answer St.OK
      (match (s.ctx c).last with | some f => f.frame.toNat | none => 0))))

/-- A write of HM_TICK_ORIGIN by any initiator, as one command or to either half: while some quay is RUNNING, DOCKING or DOCKED it is ignored
and counted in HM's ignored-write counter and nothing else changes; while none is, the 64-bit value is stored by the one command, and by
the halves in their order. -/
def Obligations.TickOriginOnlyWhileNoQuayIsActive : Prop :=
  (∀ (s : State) (ini : Initiator) (val : BitVec 64), s.awake = true →
    (∃ q : Fin 4, s.quays[q].st = .running ∨ s.quays[q].st = .docking ∨ s.quays[q].st = .docked) →
    exec (.tickOriginWrite ini val) s = .next (s.after ((s.begin.ignoredWrite Reg.HM_TICK_ORIGIN_LO).answer St.OK)) ∧
    (∀ (a : Nat) (v same : Word), a = Reg.HM_TICK_ORIGIN_LO ∨ a = Reg.HM_TICK_ORIGIN_HI →
      exec (.registerWrite ini a 4 v same) s = .next (s.after ((s.begin.ignoredWrite a).answer St.OK)) ∧
      exec (.hiWriteCommit ini a v) s = .next (s.after ((s.begin.ignoredWrite a).answer St.OK)))) ∧
  (∀ (s : State) (ini : Initiator) (val : BitVec 64), s.awake = true →
    (∀ q : Fin 4, s.quays[q].st ≠ .running ∧ s.quays[q].st ≠ .docking ∧ s.quays[q].st ≠ .docked) →
    exec (.tickOriginWrite ini val) s = .next (s.after ((s.begin.setReg64 Reg.HM_TICK_ORIGIN_LO val.toNat).answer St.OK)) ∧
    (∀ (v same : Word),
      exec (.registerWrite ini Reg.HM_TICK_ORIGIN_LO 4 v same) s = .next (s.after ((s.begin.holdLo Reg.HM_TICK_ORIGIN_LO v).answer St.OK)) ∧
      exec (.hiWriteCommit ini Reg.HM_TICK_ORIGIN_HI v) s =
        .next (s.after (((s.begin.commitLo Reg.HM_TICK_ORIGIN_LO).setReg Reg.HM_TICK_ORIGIN_HI v).answer St.OK))))

/-- For every quay, initiator and written value whose opcode field is 0 or 7 to 15, in every state of the quay: the write of HM_QUAY_CMD[q]
answers REFUSED and nothing else changes. -/
def Obligations.UndefinedQuayOpcodesAreRefused : Prop :=
  ∀ (s : State) (q : Fin 4) (ini : Initiator) (v same : Word), s.awake = true → (v.toNat % 16 = 0 ∨ 7 ≤ v.toNat % 16) →
    exec (.registerWrite ini (Reg.HM_QUAY_CMD q) 4 v same) s = .next (s.after (s.begin.answer St.REFUSED))

/-- For every quay, initiator and state: writing HM_QUAY_CMD[q] with one of the six opcodes does exactly what the command of that name does. -/
def Obligations.QuayCommandRegisterRunsTheCommands : Prop :=
  ∀ (s : State) (q : Fin 4) (ini : Initiator) (same : Word), s.awake = true →
    exec (.registerWrite ini (Reg.HM_QUAY_CMD q) 4 1#32 same) s = exec (.load q ini) s ∧
    exec (.registerWrite ini (Reg.HM_QUAY_CMD q) 4 2#32 same) s = exec (.start q ini) s ∧
    exec (.registerWrite ini (Reg.HM_QUAY_CMD q) 4 3#32 same) s = exec (.dock q ini) s ∧
    exec (.registerWrite ini (Reg.HM_QUAY_CMD q) 4 4#32 same) s = exec (.undock q ini) s ∧
    exec (.registerWrite ini (Reg.HM_QUAY_CMD q) 4 5#32 same) s = exec (.unload q ini) s ∧
    exec (.registerWrite ini (Reg.HM_QUAY_CMD q) 4 6#32 same) s = exec (.reset q ini) s

/-- Messages of domain 0 long enough to hold their fields. A Sync (type 0) on the master's port records its sequence number and the harbour
time of its arrival. The Follow_Up (type 8) of the same port and number computes the offset of harbour time from the master's stamp,
correction, link delay and known asymmetry, and harbour time is corrected by it: locked and slewed, or a step held and not locked. A
Pdelay_Req (type 2) is answered. A Pdelay_Resp (type 3) records its stamp; the follow-up (type 10) then sets the port's delay to half the
turnaround. Nothing but the time base's records changes. The layout of the messages and whether a correction needs a step are the model's
(log entries 49 and 50). -/
def Obligations.GptpMessagesSetTheCorrection : Prop :=
  (∀ (s : State) (port : Fin 5) (b : List Byte) (sent : Nat), s.awake = true → 44 ≤ b.length → beAt b 4 1 = 0 → beAt b 0 1 % 16 = 0 →
    s.gptp.master.isSome = true → s.gptp.port = port.val →
    exec (.gptpMessage port b sent) s =
      .next (s.after { s.begin with gptp := { s.gptp with sync := some (port.val, beAt b 30 2, s.time.now) } })) ∧
  (∀ (s : State) (port : Fin 5) (b : List Byte) (sent at' : Nat), s.awake = true → 44 ≤ b.length → beAt b 4 1 = 0 → beAt b 0 1 % 16 = 8 →
    s.gptp.sync = some (port.val, beAt b 30 2, at') →
    let d : Int := ptpStamp b 34 + ptpCorrection b + s.gptp.delays.getD port 0 + s.asymmetry port - at'
    ∃ u : TimeState, exec (.gptpMessage port b sent) s =
        .next (s.after { s.begin with gptp := { s.gptp with sync := none }, time := u, free := s.free + 1 }) ∧
      ((u.step = none ∧ u.slew = d ∧ u.locked = true) ∨ (u.step = some d ∧ d ≠ 0 ∧ u.slew = s.time.slew ∧ u.locked = false))) ∧
  (∀ (s : State) (port : Fin 5) (b : List Byte) (sent : Nat), s.awake = true → 44 ≤ b.length → beAt b 4 1 = 0 → beAt b 0 1 % 16 = 2 →
    exec (.gptpMessage port b sent) s = .next (s.after (s.begin.emit (.note "PDELAY_RESP" port (beAt b 30 2))))) ∧
  (∀ (s : State) (port : Fin 5) (b : List Byte) (sent : Nat), s.awake = true → 44 ≤ b.length → beAt b 4 1 = 0 → beAt b 0 1 % 16 = 3 →
    exec (.gptpMessage port b sent) s =
      .next (s.after { s.begin with gptp := { s.gptp with pdelay := some (port.val, ptpStamp b 34, s.time.now) } })) ∧
  (∀ (s : State) (port : Fin 5) (b : List Byte) (sent t2 t4 : Nat), s.awake = true → 44 ≤ b.length → beAt b 4 1 = 0 →
    beAt b 0 1 % 16 = 10 → s.gptp.pdelay = some (port.val, t2, t4) →
    exec (.gptpMessage port b sent) s = .next (s.after { s.begin with gptp := { s.gptp with
      pdelay := none
      delays := setAt s.gptp.delays port ((((t4 : Int) - sent - ((ptpStamp b 34 : Int) - t2)) / 2).toNat) } }))

/-- HARBOUR_TIME_STEP with a step of d ns held: while a quay is RUNNING or DOCKING nothing but the last command's outputs changes; else a step
forward moves harbour time by d at once, a step back moves it not at all and is slewed, and the step is no longer held. LOSS_OF_LOCK while
locked: the device is no longer locked, every binding stays as it is, and ONNAK_EVENT.unlocked is set when a binding is BOUND. -/
def Obligations.HeldStepsWaitForTheQuays : Prop :=
  (∀ (s : State) (d : Int), s.coldHeld = false → s.time.step = some d →
    (∃ q : Fin 4, s.quays[q].st = .running ∨ s.quays[q].st = .docking) → exec .harbourTimeStep s = .next s.begin) ∧
  (∀ (s : State) (d : Int), s.coldHeld = false → s.time.step = some d →
    (∀ q : Fin 4, s.quays[q].st ≠ .running ∧ s.quays[q].st ≠ .docking) →
    ∃ t, exec .harbourTimeStep s = .next t ∧ t.time.step = none ∧ (0 ≤ d → (t.time.now : Int) = s.time.now + d ∧ t.time.slew = 0) ∧
      (d < 0 → t.time.now = s.time.now ∧ t.time.slew = d) ∧ t.regs = s.regs ∧ t.quays = s.quays ∧ t.mem = s.mem ∧ t.onnak = s.onnak) ∧
  (∀ (s : State), s.awake = true → s.time.locked = true →
    ∃ t, exec .lossOfLock s = .next t ∧ t.time = { s.time with locked := false } ∧ t.onnak = s.onnak ∧ t.quays = s.quays ∧ t.mem = s.mem ∧
      (s.onnak.binds.any (fun b => decide (b.st = .bound)) = true → flag (t.reg Reg.ONNAK_EVENT) 4 = true) ∧
      (s.onnak.binds.any (fun b => decide (b.st = .bound)) = false → t.regs = s.regs))

/-- For every quay, initiator and command of the table: in a state that the table marks BAD_STATE the command answers BAD_STATE and changes
nothing but the quay's BAD_STATE count; a command other than RESET in a state that accepts it, while the quay has a command in progress
and quay 0 is not fenced against it, answers BUSY and changes nothing. The states that accept each command are listed. -/
def Obligations.IllegalQuayCommandsAreBadState : Prop :=
  (∀ (s : State) (q : Fin 4) (ini : Initiator) (c : QCmd), s.awake = true → (s.quays[q].st).accepts c = false →
    exec (c.instr q ini) s = .next (s.after ((s.begin.bump (Reg.HM_QUAY_BAD_STATE_COUNT q)).answer St.BAD_STATE))) ∧
  (∀ (s : State) (q : Fin 4) (ini : Initiator) (c : QCmd), s.awake = true → (s.quays[q].st).accepts c = true → c ≠ .reset →
    s.quays[q].busy.isSome = true → (q ≠ 0 ∨ ini = .cg ∨ ini = .salvage ∨ c = .load ∨ c = .start ∨ flag (s.reg Reg.CG_Q0_GUARD) 0 = true) →
    exec (c.instr q ini) s = .next (s.after (s.begin.answer St.BUSY))) ∧
  (∀ (c : QCmd) (st : QState), st.accepts c = true ↔ (c, st) ∈ ([(.load, .empty), (.start, .loaded), (.dock, .running), (.undock, .docked),
    (.unload, .loaded), (.unload, .docked), (.unload, .faulted), (.reset, .empty), (.reset, .loaded), (.reset, .running),
    (.reset, .docking), (.reset, .docked), (.reset, .faulted)] : List (QCmd × QState)))

/-- For quay 0 in a state that accepts the command: DOCK, UNDOCK, UNLOAD and RESET from an initiator other than Coastguard software and the
Salvage unit, while HM_Q0_GUARD.cmd_enable is 0, answer FENCED and change nothing; while it is 1, or from Coastguard software or the
Salvage unit at any time, no command is judged FENCED. A command that the state does not accept is BAD_STATE first. -/
def Obligations.QuayZeroCommandsAreFenced : Prop :=
  (∀ (s : State) (ini : Initiator) (c : QCmd), s.awake = true → c = .dock ∨ c = .undock ∨ c = .unload ∨ c = .reset → ini ≠ .cg → ini ≠ .salvage →
    flag (s.reg Reg.CG_Q0_GUARD) 0 = false → (s.quays[(0 : Fin 4)].st).accepts c = true →
    exec (c.instr 0 ini) s = .next (s.after (s.begin.answer St.FENCED))) ∧
  (∀ (s : State) (ini : Initiator) (c : QCmd), (flag (s.reg Reg.CG_Q0_GUARD) 0 = true ∨ ini = .cg ∨ ini = .salvage) →
    s.judgeCmd 0 ini c ≠ some St.FENCED)

/-- An EMPTY quay with no command in progress takes LOAD: the command is in progress with a verdict, the quay stays EMPTY at its tide with its
chart as before, and no other quay's record changes. While the next tide was retired less than 64 ms ago the verdict is BUSY with no
chart, and nothing else changes at all. -/
def Obligations.LoadIsAcceptedAndJudged : Prop :=
  (∀ (s : State) (q : Fin 4) (ini : Initiator), s.awake = true → s.quays[q].st = .empty → s.quays[q].busy = none →
    ∃ t, exec (.load q ini) s = .next t ∧ t.quays[q].busy = some .load ∧ t.quays[q].load.isSome = true ∧ t.quays[q].st = .empty ∧
      t.quays[q].tide = s.quays[q].tide ∧ t.quays[q].chart = s.quays[q].chart ∧ (∀ r : Fin 4, r ≠ q → t.quays[r] = s.quays[r]) ∧
      t.reply = some ⟨St.OK, 0, [], false⟩) ∧
  (∀ (s : State) (q : Fin 4) (ini : Initiator), s.awake = true → s.quays[q].st = .empty → s.quays[q].busy = none →
    s.quays[q].tideFresh s.time.now = true →
    exec (.load q ini) s = .next (s.after ((s.begin.modQuay q (fun x => { x with
      busy := some .load, load := some ⟨St.BUSY, [], none, [], x.tide, [], s.time.now + 1000000⟩ })).answer St.OK)))

/-- A LOAD in progress whose banks are awake completes, outside recovery: with an accepted chart the quay is LOADED with that chart, its
handle table, its groups and frames and the new tide; without one it stays EMPTY at its tide with no chart. In both cases the command has
ended with the verdict's status and is no longer in progress. -/
def Obligations.LoadCompletesByItsVerdict : Prop :=
  (∀ (s : State) (q : Fin 4) (v : LoadVerdict) (c : Chart), s.awake = true → s.quays[q].st = .empty → s.quays[q].busy = some .load →
    s.quays[q].load = some v → v.chart = some c → s.loadWaits v = false → s.salv[q].recovering = false →
    ∃ t, exec (.loadComplete q) s = .next t ∧ t.quays[q].st = .loaded ∧
      t.quays[q].chart = some { c with clamped := decide (v.status = St.CLAMPED) } ∧ t.quays[q].tide = v.newTide ∧
      t.quays[q].handles = c.handleTable ∧ t.quays[q].groups = v.groups ∧ t.quays[q].hbmFrames = v.frames ∧ t.quays[q].busy = none ∧
      t.quays[q].lastOp = 1 ∧ t.quays[q].lastStatus = v.status ∧ t.quays[q].load = none) ∧
  (∀ (s : State) (q : Fin 4) (v : LoadVerdict), s.awake = true → s.quays[q].st = .empty → s.quays[q].busy = some .load →
    s.quays[q].load = some v → v.chart = none → s.salv[q].recovering = false →
    ∃ t, exec (.loadComplete q) s = .next t ∧ t.quays[q].st = .empty ∧ t.quays[q].chart = s.quays[q].chart ∧
      t.quays[q].tide = s.quays[q].tide ∧ t.quays[q].busy = none ∧ t.quays[q].lastOp = 1 ∧ t.quays[q].lastStatus = v.status ∧
      t.quays[q].load = none ∧ (∀ r : Fin 4, r ≠ q → t.quays[r] = s.quays[r]))

/-- A LOADED quay with no command in progress, outside recovery. When the checks of START answer OK and the chart is Piloted: the quay is
RUNNING, the command has ended with OK, the first frame will be HM_QUAY_START_FRAME at slot index 0, at a tick at least 100 µs later, and
no frame is in flight. When they answer another status: the quay is LOADED, the command has ended with that status, and no frame is in
flight that was not. -/
def Obligations.StartEntersRunningOrStaysLoaded : Prop :=
  (∀ (s : State) (q : Fin 4) (ini : Initiator) (c : Chart), s.awake = true → s.quays[q].st = .loaded → s.quays[q].busy = none →
    s.quays[q].chart = some c → c.cfg.piloted = true → s.salv[q].recovering = false →
    ((s.begin.modQuay q (fun x => { x with busy := some .start })).checkStart q c).2.1 = St.OK →
    ∃ t, exec (.start q ini) s = .next t ∧ t.quays[q].st = .running ∧ t.quays[q].busy = none ∧ t.quays[q].lastOp = 2 ∧
      t.quays[q].lastStatus = St.OK ∧ t.quays[q].nextFrame = s.reg (Reg.HM_QUAY_START_FRAME q) ∧ t.quays[q].nextK = 0 ∧
      t.quays[q].openFrom = s.time.now + 100000 ∧ t.quays[q].frames = [] ∧ t.quays[q].chart = some c) ∧
  (∀ (s : State) (q : Fin 4) (ini : Initiator) (c : Chart) (st : Status), s.awake = true → s.quays[q].st = .loaded → s.quays[q].busy = none →
    s.quays[q].chart = some c → s.salv[q].recovering = false →
    ((s.begin.modQuay q (fun x => { x with busy := some .start })).checkStart q c).2.1 = st → st ≠ St.OK →
    ∃ t, exec (.start q ini) s = .next t ∧ t.quays[q].st = .loaded ∧ t.quays[q].busy = none ∧ t.quays[q].lastOp = 2 ∧
      t.quays[q].lastStatus = st ∧ t.quays[q].frames = s.quays[q].frames ∧ t.quays[q].tide = s.quays[q].tide)

/-- DOCK accepted with every frame published: the quay is DOCKED and the command has ended with OK. With frame f the oldest unpublished: the
state is that of DOCKING entered now with every other frame in flight squashed. UNDOCK: RUNNING, ended with OK, the next frame one after
the last published since START (or HM_QUAY_START_FRAME), at a tick at least 100 µs later. DOCK_TIMEOUT once DOCKING has lasted
frames_in_flight periods and 500 µs: FAULTED, the command ended with HANG. -/
def Obligations.DockAndUndock : Prop :=
  (∀ (s : State) (q : Fin 4) (ini : Initiator), s.awake = true → s.judgeCmd q ini .dock = none →
    s.quays[q].frames.find? (fun f => !f.committed) = none →
    ∃ t, exec (.dock q ini) s = .next t ∧ t.quays[q].st = .docked ∧ t.quays[q].busy = none ∧ t.quays[q].lastOp = 3 ∧
      t.quays[q].lastStatus = St.OK ∧ t.quays[q].frames = s.quays[q].frames ∧ (∀ r : Fin 4, r ≠ q → t.quays[r] = s.quays[r]) ∧
      t.mem = s.mem) ∧
  (∀ (s : State) (q : Fin 4) (ini : Initiator) (f : FrameRec), s.awake = true → s.judgeCmd q ini .dock = none →
    s.quays[q].frames.find? (fun f => !f.committed) = some f →
    let u := (s.begin.modQuay q (fun x => { x with busy := some .dock, dockedAt := s.time.now })).setQState q .docking
    u.quays[q].st = .docking ∧ u.quays[q].busy = some .dock ∧ u.quays[q].frames = s.quays[q].frames ∧
    exec (.dock q ini) s = .next (s.after ((u.squashWhere q (fun g => g.num ≠ f.num) true).answer St.OK))) ∧
  (∀ (s : State) (q : Fin 4) (ini : Initiator) (c : Chart), s.awake = true → s.judgeCmd q ini .undock = none → s.quays[q].chart = some c →
    ∃ t, exec (.undock q ini) s = .next t ∧ t.quays[q].st = .running ∧ t.quays[q].busy = none ∧ t.quays[q].lastOp = 4 ∧
      t.quays[q].lastStatus = St.OK ∧ t.quays[q].openFrom = s.time.now + 100000 ∧ t.quays[q].chart = some c ∧
      t.quays[q].nextFrame = (match s.quays[q].lastPub with
        | some p => p.1 + 1#32
        | none => s.reg (Reg.HM_QUAY_START_FRAME q))) ∧
  (∀ (s : State) (q : Fin 4) (c : Chart), s.awake = true → s.quays[q].st = .docking → s.quays[q].busy = some .dock → s.quays[q].chart = some c →
    s.quays[q].dockedAt + c.cfg.fif * c.cfg.periodUs * 1000 + 500000 ≤ s.time.now →
    ∃ t, exec (.dockTimeout q) s = .next t ∧ t.quays[q].st = .faulted ∧ t.quays[q].busy = none ∧ t.quays[q].lastStatus = St.HANG ∧
      t.quays[q].frames = s.quays[q].frames ∧ t.mem = s.mem ∧ (∀ r : Fin 4, r ≠ q → t.quays[r] = s.quays[r]))

/-- UNLOAD or RESET, when accepted, enters RESETTING now: the command is in progress, the tide is one more modulo 256 and the old one is
recorded as retired now, every handle is fenced, no frame and no request is left, and the chart is still held until the end of the reset. -/
def Obligations.UnloadAndResetEnterResetting : Prop :=
  (∀ (s : State) (q : Fin 4) (ini : Initiator), s.awake = true → s.judgeCmd q ini .unload = none →
    ∃ t, exec (.unload q ini) s = .next t ∧ t.quays[q].st = .resetting ∧ t.quays[q].busy = some .unload ∧ t.quays[q].resetAt = s.time.now ∧
      t.quays[q].tide = s.quays[q].tide + 1#8 ∧ (s.quays[q].tide.toNat, s.time.now) ∈ t.quays[q].retired ∧ t.quays[q].frames = [] ∧
      t.quays[q].requests = [] ∧ t.quays[q].chart = s.quays[q].chart ∧ (∀ h ∈ t.quays[q].handles, h.fenced = true)) ∧
  (∀ (s : State) (q : Fin 4) (ini : Initiator), s.awake = true → s.judgeCmd q ini .reset = none →
    ∃ t, exec (.reset q ini) s = .next t ∧ t.quays[q].st = .resetting ∧ t.quays[q].busy = some .reset ∧ t.quays[q].resetAt = s.time.now ∧
      t.quays[q].tide = s.quays[q].tide + 1#8 ∧ (s.quays[q].tide.toNat, s.time.now) ∈ t.quays[q].retired ∧ t.quays[q].frames = [] ∧
      t.quays[q].requests = [] ∧ t.quays[q].chart = s.quays[q].chart ∧ (∀ h ∈ t.quays[q].handles, h.fenced = true))

/-- RESET_DRAIN_LIMIT 20 µs after RESETTING was entered: no request of the quay is outstanding, what was is counted as late, every register of
the quay that a quay reset returns reads its reset value, the units are reset and the drain is done. RESET_QUIESCENT, outside recovery,
once the quay is quiescent: EMPTY with no chart, no groups and no handles, the command ended with OK. RESET_OVERDUE at 150 µs: the Salvage
unit shows OVERDUE. RESET_ESCALATION at 500 µs: the escalation is recorded and the device resets. -/
def Obligations.QuayResetRunsToEmpty : Prop :=
  (∀ (s : State) (q : Fin 4), s.awake = true → s.quays[q].st = .resetting → s.quays[q].phase = .fencing →
    s.quays[q].resetAt + 20000 ≤ s.time.now →
    ∃ t, exec (.resetDrainLimit q) s = .next t ∧ t.quays[q] = { s.quays[q] with phase := .drained } ∧
      t.mem.outstanding = s.mem.outstanding.filter (fun o => decide (o.req.tag.quay ≠ q.val)) ∧
      (∀ a, s.quayResets q a = true → t.reg a = regReset a) ∧
      t.reg (Reg.SALVAGE_QUAY_LATE_DROP_COUNT q) = satInc (s.reg (Reg.SALVAGE_QUAY_LATE_DROP_COUNT q))
        (s.mem.outstanding.filter (fun o => decide (o.req.tag.quay = q.val))).length ∧
      (∀ r : Fin 4, r ≠ q → t.quays[r] = s.quays[r])) ∧
  (∀ (s : State) (q : Fin 4), s.awake = true → s.quays[q].st = .resetting → s.quiescent q = true → s.salv[q].recovering = false →
    s.quays[q].busy = some .reset ∨ s.quays[q].busy = some .unload →
    ∃ t, exec (.resetQuiescent q) s = .next t ∧ t.quays[q].st = .empty ∧ t.quays[q].chart = none ∧ t.quays[q].groups = [] ∧
      t.quays[q].handles = [] ∧ t.quays[q].busy = none ∧ t.quays[q].lastStatus = St.OK ∧ t.quays[q].tide = s.quays[q].tide) ∧
  (∀ (s : State) (q : Fin 4), s.awake = true → s.quays[q].st = .resetting → s.quays[q].resetAt + 150000 ≤ s.time.now → s.salv[q].phase ≠ .overdue →
    ∃ t, exec (.resetOverdue q) s = .next t ∧ t.salv[q].phase = .overdue ∧ t.quays = s.quays ∧ t.mem = s.mem ∧
      flag (t.reg (Reg.SALVAGE_QUAY_EVENT q)) 3 = true) ∧
  (∀ (s : State) (q : Fin 4), s.awake = true → s.quays[q].st = .resetting → s.quays[q].resetAt + 500000 ≤ s.time.now → s.quiescent q = false →
    exec (.resetEscalation q) s = .next (s.after
      ((((s.begin.put Reg.SALVAGE_ESCALATION (q.val + (s.salv[q].hungFor % 8) * 4 + 0x20)).setReg64 Reg.SALVAGE_ESCALATION_TIME_LO s.time.now).bump
        Reg.SALVAGE_ESCALATION_COUNT).warmReset false)))

/-- A tick of the quay that has come and was not taken yet. While the quay is RUNNING, past its opening time and has room, the tick is
recorded and the next frame opens in it; while it has no room the tick is recorded and a Piloted quay counts a skip; while it is not
RUNNING or the tick falls before the opening time the tick is recorded and no frame opens. Opening a frame of a camera-fed quay at tick T:
the frame is the youngest in flight, with the next number and slot index, that tick, unconfirmed and unpublished, every stage still to be
dispatched; the next number and index advance by one; HM_QUAY_FRAME holds its number; no other quay and no memory changes. A tick taken
already changes nothing. -/
def Obligations.CadenceTickOpensTheNextFrame : Prop :=
  (∀ (s : State) (q : Fin 4) (c : Chart) (T : Nat), s.awake = true → s.quays[q].chart = some c → s.lastTick? c = some T →
    s.reg64 (Reg.HM_QUAY_TICK_LO q) ≠ T →
    let u := s.begin.setReg64 (Reg.HM_QUAY_TICK_LO q) T
    let v : State := if q = 0 ∧ s.quays[q].firstNext = true then { u with cg := { u.cg with ages := u.cg.ages.map (fun _ => some 0) } } else u
    (s.quays[q].st = .running → s.quays[q].openFrom ≤ T → s.quays[q].frameRoom = true →
      exec (.cadenceTick q) s = .next (s.after ((((((v.noteTick q T s.quays[q].nextFrame).openFrame q T).joinEarly q T
        (some s.quays[q].nextFrame)).releaseSignals q).settleRemote q)))) ∧
    (s.quays[q].st = .running → s.quays[q].openFrom ≤ T → s.quays[q].frameRoom = false →
      exec (.cadenceTick q) s =
        .next (s.after ((if c.cfg.piloted then u.bump (Reg.HM_QUAY_SKIP_COUNT q) else u).joinEarly q T none))) ∧
    (s.quays[q].st ≠ .running ∨ T < s.quays[q].openFrom → exec (.cadenceTick q) s = .next (s.after (u.joinEarly q T none)))) ∧
  (∀ (s : State) (q : Fin 4) (T : Nat), s.quays[q].streamCtxs.isEmpty = false →
    ∃ f : FrameRec, (s.openFrame q T).quays[q].frames = s.quays[q].frames ++ [f] ∧ f.num = s.quays[q].nextFrame ∧ f.k = s.quays[q].nextK ∧
      f.tick = T ∧ f.confirmed = false ∧ f.committed = false ∧ (∀ r ∈ f.stages, r.dispatched = false) ∧
      (s.openFrame q T).quays[q].nextFrame = s.quays[q].nextFrame + 1#32 ∧ (s.openFrame q T).quays[q].nextK = s.quays[q].nextK + 1 ∧
      (s.openFrame q T).reg (Reg.HM_QUAY_FRAME q) = s.quays[q].nextFrame ∧ (s.openFrame q T).mem = s.mem ∧
      (∀ r : Fin 4, r ≠ q → (s.openFrame q T).quays[r] = s.quays[r])) ∧
  (∀ (s : State) (q : Fin 4) (c : Chart) (T : Nat), s.awake = true → s.quays[q].chart = some c → s.lastTick? c = some T →
    s.reg64 (Reg.HM_QUAY_TICK_LO q) = T → exec (.cadenceTick q) s = .next (s.after s.begin))

/-- WINDOW_OPEN of a frame in flight and unpublished, at or after the window's open time in an active quay, when it has not opened: the
window's stages are dispatched and what then is to be signalled at peers is sent. A window that has opened, or whose time has not come,
changes nothing. WINDOW_CLOSE at or after its close time: every stage of the window is closed in STAGES order (none in a squashed frame),
then its Lighthouse runs, then a Piloted quay publishes. -/
def Obligations.WindowsOpenOnceAndClose : Prop :=
  (∀ (s : State) (q : Fin 4) (n : FrameNo) (w : Nat) (c : Chart) (f : FrameRec) (e : WindowE), s.awake = true → s.quays[q].chart = some c →
    s.quays[q].frame? n = some f → c.windowE w = some e →
    (f.committed = false → f.opened.elem w = false → f.timeOf c e.period e.openUs ≤ s.time.now → s.quays[q].st.active = true →
      exec (.windowOpen q n w) s = .next (s.after ((s.begin.openWindow q n w).settleRemote q))) ∧
    (f.committed = true ∨ f.opened.elem w = true ∨ s.time.now < f.timeOf c e.period e.openUs →
      exec (.windowOpen q n w) s = .next (s.after s.begin)) ∧
    (f.timeOf c e.period e.closeUs ≤ s.time.now → s.quays[q].st.active = true → f.squashed = false →
      exec (.windowClose q n w) s = .next (s.after ((((((c.allStages.filter (fun i => (c.stageAt i).window = w)).foldl
        (fun (s : State) i => s.closeStage q n i) s.begin).closeLights q n w).settlePiloted q).settleRemote q)))) ∧
    (f.timeOf c e.period e.closeUs ≤ s.time.now → s.quays[q].st.active = true → f.squashed = true →
      exec (.windowClose q n w) s = .next (s.after (((s.begin.closeLights q n w).settlePiloted q).settleRemote q))) ∧
    (s.time.now < f.timeOf c e.period e.closeUs → exec (.windowClose q n w) s = .next (s.after s.begin)))

/-- STAGE_COMPLETE of a stage that runs and does not wait for remote writes: a camera stage ends once its pipe slot has done its work, a
Soundings stage and a vision stage by their engines' completion; a stage that does not run changes nothing. PUBLISH_POINT of a Moored
active quay at or after the publish point of its oldest unpublished frame, which a DOCK did not squash: that frame is published.
SQUASH_COMPLETE while a squash is in progress: the squashed frames' held signals and packed writes are gone and the squash is done. -/
def Obligations.StagesPublishAndSquashComplete : Prop :=
  (∀ (s : State) (q : Fin 4) (n : FrameNo) (i : Nat) (r : StageRun), s.awake = true → s.stageRun? q n i = some r → r.running = true →
    r.draining = false →
    ((s.quays[q].engineE i).cls = Cls.CAMP → ∀ k, s.campDone q n i = some k →
      exec (.stageComplete q n i) s = .next (s.after
        ((s.begin.modSlot k (fun (x : CampSlot) => { x with runs := x.runs.filter (fun u => u.frame ≠ n) })).completeStage q n i []))) ∧
    ((s.quays[q].engineE i).cls = Cls.SND → exec (.stageComplete q n i) s = .next (s.after (s.begin.sndDone q n i))) ∧
    ((s.quays[q].engineE i).cls = Cls.PYR ∨ (s.quays[q].engineE i).cls = Cls.WARP ∨ (s.quays[q].engineE i).cls = Cls.STEREO ∨
        (s.quays[q].engineE i).cls = Cls.FLOW ∨ (s.quays[q].engineE i).cls = Cls.FEAT →
      exec (.stageComplete q n i) s = .next (s.after (s.begin.visionDone q n i)))) ∧
  (∀ (s : State) (q : Fin 4) (n : FrameNo) (i : Nat) (r : StageRun), s.awake = true → s.stageRun? q n i = some r → r.running = false →
    exec (.stageComplete q n i) s = .next (s.after s.begin)) ∧
  (∀ (s : State) (q : Fin 4) (c : Chart) (f : FrameRec), s.awake = true → s.quays[q].chart = some c →
    s.quays[q].frames.find? (fun f => !f.committed) = some f → c.cfg.piloted = false → f.byDock = false →
    f.timeOf c c.cfg.publishPeriod c.cfg.publishOffsetUs ≤ s.time.now → s.quays[q].st.active = true →
    exec (.publishPoint q) s = .next (s.after (((s.begin.publishMoored q f.num).releaseSignals q).settleRemote q))) ∧
  (∀ (s : State) (q : Fin 4), s.awake = true → s.quays[q].squashing = true →
    let gone := fun (n : FrameNo) => match s.quays[q].frame? n with | some f => f.squashed | none => false
    let u : State := { s.begin with onnak := { s.onnak with
      heldSignals := s.onnak.heldSignals.filter (fun h => !(decide (h.2.1.quay = q.val) && gone h.2.1.frame))
      packs := s.onnak.packs.filter (fun w => !(decide (w.req.quay = q.val) && gone w.req.frame)) } }
    exec (.squashComplete q) s = .next (s.after ((u.squashDone q).settleRemote q)))

/-- An ended stage is counted for its quay and entered at the end of the FIFO with its stage, status, quay and frame while fewer than 32
entries stand there; with 32 the entries stay as they are and the lost count advances. FAULT_POP removes the oldest entry, or nothing from
an empty FIFO, and changes nothing else. -/
def Obligations.FaultFifoKeepsTheOldest : Prop :=
  (∀ (s : State) (q : Fin 4) (stage : Nat) (st : Status) (n : FrameNo), s.faultFifo.length < 32 →
    s.pushFault q stage st n =
      { (s.bump (Reg.HM_QUAY_STAGE_FAULT_COUNT q)) with faultFifo := s.faultFifo ++ [⟨stage, st, q.val, n⟩] }) ∧
  (∀ (s : State) (q : Fin 4) (stage : Nat) (st : Status) (n : FrameNo), 32 ≤ s.faultFifo.length →
    s.pushFault q stage st n = (s.bump (Reg.HM_QUAY_STAGE_FAULT_COUNT q)).bump Reg.HM_FAULT_LOST_COUNT) ∧
  (∀ (s : State), s.awake = true →
    exec .faultPop s = .next (s.after (({ s.begin with faultFifo := s.faultFifo.drop 1 } : State).answer St.OK)))

/-- ENGINE_BERTH_READ. Through a fenced handle: FENCED, counted, not issued. With a stale tide or a berth of another owner: dropped, counted,
STALE_TIDE. Otherwise, when the berth is FULL with the frame tag the read carries, or static, or its bank is gated, it is issued; else it
waits at the tag check, as the youngest read held there, and nothing else changes. Issued with budget for its lanes it answers the line's
stored bytes and its poison mark, OK or POISON. -/
def Obligations.BerthReadsAreServedHeldOrDropped : Prop :=
  (∀ (s : State) (r : BerthReq), s.awake = true →
    (s.handleFenced r.tag = true → exec (.engineBerthRead r) s = .next (s.after
      (((s.begin.bump (Reg.QUAY_SPAD_FENCED_COUNT r.tag.q)).gather r.tag St.FENCED).answer St.FENCED))) ∧
    (s.handleFenced r.tag = false → s.staleTide r.tag = true ∨ s.berthOwned r.tag r.berth = false →
      exec (.engineBerthRead r) s = .next (s.after
        (((s.begin.bump (Reg.HM_QUAY_STALE_DROP_COUNT r.tag.q)).gather r.tag St.STALE_TIDE).answer St.STALE_TIDE))) ∧
    (s.handleFenced r.tag = false → s.staleTide r.tag = false → s.berthOwned r.tag r.berth = true →
      s.isGated (bankOf r.berth) = true ∨ s.berthReady r.berth r.carries = true →
      exec (.engineBerthRead r) s = .next (s.after (s.begin.issueRead { r with kind := .read }))) ∧
    (s.handleFenced r.tag = false → s.staleTide r.tag = false → s.berthOwned r.tag r.berth = true →
      s.isGated (bankOf r.berth) = false → s.berthReady r.berth r.carries = false →
      exec (.engineBerthRead r) s = .next (s.after { s.begin with mem := { s.mem with
        heldReads := s.mem.heldReads ++ [⟨r.tag, r.carries, r.berth, r.off, s.time.now⟩] } }))) ∧
  (∀ (s : State) (b : Nat) (n : FrameNo), s.berthReady b n = true ↔
    (tagStatic (s.tag b) = true ∨ tagFrame (s.tag b) = n.toNat % 16) ∧ tagFull (s.tag b) = true) ∧
  (∀ (s u : State) (r : BerthReq), s.charge r.tag.quay (s.berthLanes r) 1 = some u → u.isGated (bankOf r.berth) = false →
    u.anyMarked (berthAddr r.berth + r.off) 64 = false →
    s.issueRead r = u.answer St.OK 0 (u.bytesAt (berthAddr r.berth + r.off) 64) false)

/-- ENGINE_BERTH_WRITE of at most 64 bytes to a berth its tag owns, through a handle that is not fenced: with no burst of its stream and quay
open at the port it opens one; where the open burst does not take it that burst goes first. COMBINER_TIMEOUT issues the burst that is 16
cycles old. BERTH_TAG_WRITE of a live tide issues its stream's bursts and then sets the berth FULL, answering what that came to; of a
stale one it is dropped. A write to an owned, awake berth is judged by its tag: EMPTY stored, FULL and older reopened and stored, FULL
static or not older late. -/
def Obligations.BerthWritesCombineAndTagWrites : Prop :=
  (∀ (s : State) (r : BerthReq), s.awake = true → s.handleFenced r.tag = false → s.staleTide r.tag = false →
    s.berthOwned r.tag r.berth = true → 1 ≤ r.data.length → r.data.length ≤ 64 →
    let port := 2 + berthDie r.berth
    let w : BerthReq := { r with kind := .write }
    let mine := fun (b : Burst) => b.port = port && (match b.writes.head? with
      | some h => decide (h.stream = r.stream ∧ h.tag.quay = r.tag.quay)
      | none => false)
    (s.mem.bursts.find? mine = none →
      exec (.engineBerthWrite r) s = .next (s.after { s.begin with mem := { s.mem with bursts := s.mem.bursts ++ [⟨port, [w], s.time.now⟩] } })) ∧
    (∀ b, s.mem.bursts.find? mine = some b → b.takes w = false →
      exec (.engineBerthWrite r) s = .next (s.after ((s.begin.flushBurst b).modMem (fun m => { m with
        bursts := m.bursts ++ [⟨port, [w], (s.begin.flushBurst b).time.now⟩] }))))) ∧
  (∀ (s : State) (p : Fin 6) (b : Burst), s.awake = true →
    s.mem.bursts.find? (fun b => b.port = p.val && (match b.writes.head? with
      | some w => decide (16 ≤ s.cyclesSince (s.dieOf w.tag % 2) b.since)
      | none => true)) = some b →
    exec (.combinerTimeout p) s = .next (s.after (s.begin.flushBurst b))) ∧
  (∀ (s : State) (t : ReqTag) (stream berth : Nat), s.awake = true → s.staleTide t = false →
    let mine := s.mem.bursts.filter (fun b => match b.writes.head? with
      | some w => decide (w.stream = stream ∧ w.tag.quay = t.quay)
      | none => false)
    let u := mine.foldl (fun (s : State) b => s.flushBurst b) s.begin
    exec (.berthTagWrite t stream berth) s =
      .next (s.after (((u.setFull t t.handle berth).1.gather t (u.setFull t t.handle berth).2).answer (u.setFull t t.handle berth).2))) ∧
  (∀ (s : State) (t : ReqTag) (stream berth : Nat), s.awake = true → s.staleTide t = true →
    exec (.berthTagWrite t stream berth) s = .next (s.after (s.begin.dropStale t))) ∧
  (∀ (g : Word) (t : ReqTag), tagOwned g = true → tagQuay g = t.quay → tagTide g = t.tide.toNat →
    judgeWrite g t = (if tagFull g = false then .store else if tagStatic g = true then .late
      else if tagNewer (t.frame.toNat % 16) (tagFrame g) = true then .reopen else .late))

/-- TAG_SET_STATIC_FULL and TAG_SET_EMPTY. A quay neither LOADED nor DOCKED: BAD_STATE, counted, nothing else. A range outside the rules:
REFUSED, nothing else. Otherwise OK: every berth of the range is FULL and static with its frame tag kept, or EMPTY with static cleared, in
order. FIRMWARE_BERTH_WRITE outside the scratchpad answers OOB; in it the bytes are stored as the device address map allows and the
poisoned bit of the berth follows its lines. BERTH_SIGNAL_ARRIVAL takes the oldest signal; one whose quay or tide no longer owns the berth
is dropped and counted, any other reaches its consumers. -/
def Obligations.TagOperationsAndFirmwareWrites : Prop :=
  (∀ (s : State) (q : Fin 4), s.awake = true → s.quays[q].st ≠ .loaded → s.quays[q].st ≠ .docked →
    let t := ((s.begin.bump (Reg.QUAY_SPAD_BAD_STATE_COUNT q)).put (Reg.QUAY_SPAD_TAG_STATUS q) St.BAD_STATE.toNat).answer St.BAD_STATE
    exec (.tagSetStaticFull q) s = .next (s.after t) ∧ exec (.tagSetEmpty q) s = .next (s.after t)) ∧
  (∀ (s : State) (q : Fin 4) (c : Chart), s.awake = true → s.quays[q].st = .loaded ∨ s.quays[q].st = .docked → s.quays[q].chart = some c →
    let first := fld (s.reg (Reg.QUAY_SPAD_TAG_FIRST q)) 15 0
    let count := fld (s.reg (Reg.QUAY_SPAD_TAG_COUNT q)) 15 0
    let bs := (List.range count).map (fun i => c.cfg.berthFirst + first + i)
    let ended := fun (u : State) (st : Status) => s.after ((u.put (Reg.QUAY_SPAD_TAG_STATUS q) st.toNat).answer st)
    (s.quays[q].tagRangeOk c first count = false →
      exec (.tagSetStaticFull q) s = .next (ended s.begin St.REFUSED) ∧ exec (.tagSetEmpty q) s = .next (ended s.begin St.REFUSED)) ∧
    (s.quays[q].tagRangeOk c first count = true →
      exec (.tagSetStaticFull q) s = .next (ended (bs.foldl (fun (u : State) b => u.setTag b
        (mkTag true true (tagFrame (u.tag b)) s.quays[q].tide q (tagOwned (u.tag b)) (tagPoisoned (u.tag b)))) s.begin) St.OK) ∧
      exec (.tagSetEmpty q) s = .next (ended (bs.foldl (fun (u : State) b => u.emptyBerth b) s.begin) St.OK))) ∧
  (∀ (s : State) (a : Nat) (bs : List Byte), s.awake = true →
    (regionOf a ≠ .spad → exec (.firmwareBerthWrite a bs) s = .next (s.after (s.begin.answer St.OOB))) ∧
    (regionOf a = .spad → (s.begin.devWrite .app a bs).2 = St.OK →
      exec (.firmwareBerthWrite a bs) s = .next (s.after (((s.begin.devWrite .app a bs).1.retagPoison (berthOf a)).answer St.OK))) ∧
    (regionOf a = .spad → (s.begin.devWrite .app a bs).2 ≠ St.OK →
      exec (.firmwareBerthWrite a bs) s = .next (s.after ((s.begin.devWrite .app a bs).1.answer (s.begin.devWrite .app a bs).2)))) ∧
  (∀ (s : State) (bad : Option Outc) (g : BerthSig) (rest : List BerthSig) (q : Fin 4), s.awake = true → s.mem.signals = g :: rest →
    quayOf? g.quay = some q →
    (s.quays[q].tide ≠ g.tide ∨ tagOwned (s.tag g.berth) = false ∨ tagQuay (s.tag g.berth) ≠ g.quay ∨ tagTide (s.tag g.berth) ≠ g.tide.toNat →
      exec (.berthSignalArrival bad) s = .next (s.after
        (({ s.begin with mem := { s.mem with signals := rest } } : State).bump (Reg.HM_QUAY_STALE_DROP_COUNT q)))) ∧
    (s.quays[q].tide = g.tide → tagOwned (s.tag g.berth) = true → tagQuay (s.tag g.berth) = g.quay → tagTide (s.tag g.berth) = g.tide.toNat →
      exec (.berthSignalArrival bad) s = .next (s.after (({ s.begin with mem := { s.mem with signals := rest } } : State).signalReaches q g bad))))

/-- BANK_GATE_REQUEST and BANK_WAKE from another initiator than the MC are ignored and counted. From the MC a request sets the bank's bit and
waits from now unless the bank is gated or already waits; a wake clears the bit and the request and wakes the bank. BANK_GATED of a
waiting bank that no handle maps: its berths are wiped, its request is done and it is gated. BANK_GATE_GIVEUP 50 µs after the request: the
request ends, its bit is clear and the give-up is counted. BANK_WAKE_DONE: the bank no longer wakes. -/
def Obligations.BanksGateAndWake : Prop :=
  (∀ (s : State) (ini : Initiator) (b : Fin 128), s.awake = true → ini ≠ .mc →
    let t := (s.begin.ignoredWrite (Reg.QUAY_BANK_GATE_REQ (b.val / 32))).answer St.OK
    exec (.bankGateRequest ini b) s = .next (s.after t) ∧ exec (.bankWake ini b) s = .next (s.after t)) ∧
  (∀ (s : State) (b : Fin 128), s.awake = true → s.isGated b = false → s.mem.gateReqs.any (fun e => e.1 = b.val) = false →
    let t := (s.begin.setBits (Reg.QUAY_BANK_GATE_REQ (b.val / 32)) (b.val % 32) (b.val % 32) 1).answer St.OK
    exec (.bankGateRequest .mc b) s = .next (s.after { t with mem := { s.mem with gateReqs := s.mem.gateReqs ++ [(b.val, s.time.now)] } })) ∧
  (∀ (s : State) (b : Fin 128), s.awake = true → s.mem.gateReqs.any (fun e => e.1 = b.val) = true → s.bankHeld b = false →
    let m := (bankBerths b).foldl (fun (m : MemState) n => m.wipe (berthAddr n) 4096) s.mem
    exec (.bankGated b) s = .next (s.after { s.begin with mem := { m with gateReqs := m.gateReqs.filter (fun e => e.1 ≠ b.val), gated := addNew b.val m.gated } })) ∧
  (∀ (s : State) (b : Fin 128) (t : Nat), s.awake = true → s.mem.gateReqs.find? (fun e => e.1 = b.val) = some (b.val, t) →
    (t + 50000 ≤ s.time.now → exec (.bankGateGiveup b) s = .next (s.after
      ((({ s.begin with mem := { s.mem with gateReqs := s.mem.gateReqs.filter (fun e => e.1 ≠ b.val) } } : State).setBits
        (Reg.QUAY_BANK_GATE_REQ (b.val / 32)) (b.val % 32) (b.val % 32) 0).bump Reg.QUAY_BANK_GIVEUP_COUNT))) ∧
    (s.time.now < t + 50000 → exec (.bankGateGiveup b) s = .next (s.after s.begin))) ∧
  (∀ (s : State) (b : Fin 128), s.awake = true →
    exec (.bankWake .mc b) s = .next (s.after ((((s.begin.setBits (Reg.QUAY_BANK_GATE_REQ (b.val / 32)) (b.val % 32) (b.val % 32) 0).modMem
      (fun m => { m with gateReqs := m.gateReqs.filter (fun e => e.1 ≠ b.val) })).wakeBank b).answer St.OK)) ∧
    exec (.bankWakeDone b) s = .next (s.after { s.begin with mem := { s.mem with waking := s.mem.waking.filter (fun x => x ≠ b.val) } }))

/-- ENGINE_REQUEST: FENCED through a fenced handle, dropped and STALE_TIDE with a stale tide; otherwise, below the engine's limits, translated
at once on a cached leaf, and waiting for a walk without one. TRANSLATION_WALK_DONE takes the i-th waiting request and translates it. A
translation that faults is recorded, counted and answers FAULT. MEMORY_REPLY of the i-th outstanding local request: with a stale tide or
slot generation it is dropped and counted; a write answers OK; a read of an unmarked line answers its bytes. DRL_WINDOW refills every
bucket and tries again what waited, oldest first. XLT_PROBE: the written high half is stored, done is clear and the probe waits.
XLT_PROBE_DONE: the probe is over and the result registers hold the device address with done and the page kind, or done and the fault
kind; nothing else changes. PAGE_REMAP of a quay without a chart answers FENCED; of a Moored quay, or of a leaf that is not movable,
FENCED; of a movable leaf of a Piloted quay the leaf is stored as 8 bytes and every cached translation of the page is gone. -/
def Obligations.EngineRequestsTranslateAndReply : Prop :=
  (∀ (s : State) (r : MemReq), s.awake = true →
    (s.handleFenced r.tag = true → exec (.engineRequest r) s = .next (s.after (s.begin.answerFenced r.tag))) ∧
    (s.handleFenced r.tag = false → s.staleTide r.tag = true → exec (.engineRequest r) s = .next (s.after (s.begin.dropStale r.tag))) ∧
    (s.handleFenced r.tag = false → s.staleTide r.tag = false →
      (∀ pa k l, s.walk r.tag.q r.va (decide (r.kind = .write)) = .ok pa k l → s.atLimit r pa = false) →
      exec (.engineRequest r) s = .next (s.after (if s.tlbHit r then s.begin.translate r
        else { s.begin with mem := { s.mem with walks := s.mem.walks ++ [r] } })))) ∧
  (∀ (s : State) (i : Nat) (r : MemReq), s.awake = true → s.mem.walks[i]? = some r →
    exec (.translationWalkDone i) s = .next (s.after (({ s.begin with mem := { s.mem with walks := s.mem.walks.eraseIdx i } } : State).translate r))) ∧
  (∀ (s : State) (r : MemReq) (k : Nat), s.walk r.tag.q r.va (decide (r.kind = .write)) = .fault k →
    s.translate r = ((s.xltFault r.tag k r.va (decide (r.kind = .write)) r.descAddr r.indices).gather r.tag St.FAULT).answer St.FAULT) ∧
  (∀ (s : State) (i : Nat) (o : Outstanding), s.awake = true → s.mem.outstanding[i]? = some o → (∀ n, regionOf o.pa ≠ .onnak n) →
    let u : State := { s.begin with mem := { s.mem with outstanding := s.mem.outstanding.eraseIdx i } }
    (s.staleTide o.req.tag = true ∨ s.staleGen o.req.tag = true →
      exec (.memoryReply i) s = .next (s.after (u.bump (Reg.HM_QUAY_STALE_DROP_COUNT o.req.tag.q)))) ∧
    (s.staleTide o.req.tag = false → s.staleGen o.req.tag = false → o.req.kind = .write →
      exec (.memoryReply i) s = .next (s.after ((u.progress o.req.tag.q).answer St.OK))) ∧
    (s.staleTide o.req.tag = false → s.staleGen o.req.tag = false → o.req.kind = .read → s.marked (o.pa / 64 * 64) = false →
      exec (.memoryReply i) s = .next (s.after ((u.progress o.req.tag.q).answer St.OK 0 (s.bytesAt (o.pa / 64 * 64) 64) false)))) ∧
  (∀ (s : State), s.awake = true →
    let lanes := allQuays.flatMap (fun q => (List.range 6).flatMap (fun p => (List.range 3).flatMap (fun c => (List.range 2).map (fun d =>
      (bucketKey q (p, c, d), s.budget q (p, c, d))))))
    let free := (List.range 6).map (fun p => (freeKey p, s.freeBudget p))
    let u : State := { s.begin with mem := { s.mem with drlWait := [], buckets := (lanes ++ free).filter (fun e => e.2 ≠ 0) } }
    exec .drlWindow s = .next (s.after (s.mem.drlWait.foldl (fun (s : State) w => match w with
      | .mem r => if s.staleTide r.tag then s.dropStale r.tag else s.translate r
      | .berth r => s.retryBerth r
      | .fleet n p b => s.retryFleet n p b) u))) ∧
  (∀ (s : State) (val : Word), s.awake = true →
    let u := s.begin.setReg Reg.XLT_PROBE_VA_HI (val &&& 0x7FFFF#32)
    exec (.xltProbe val) s = .next (s.after (({ (u.setBits Reg.XLT_PROBE_PA_HI 16 16 0) with mem := { s.mem with
      probe := some ⟨fld val 17 16, (u.reg Reg.XLT_PROBE_VA_LO).toNat + 2 ^ 32 * fld val 15 0, flag val 18⟩ } } : State).answer St.OK))) ∧
  (∀ (s : State) (p : Probe), s.awake = true → s.mem.probe = some p →
    let u : State := { s.begin with mem := { s.mem with probe := none } }
    (∀ pa kind leaf, s.walk (quayAt p.quay) p.va p.write = .ok pa kind leaf → exec .xltProbeDone s = .next (s.after
      ((u.put Reg.XLT_PROBE_PA_LO pa).put Reg.XLT_PROBE_PA_HI (pa / 2 ^ 32 % 65536 + 65536 + kind * 2 ^ 20)))) ∧
    (∀ k, s.walk (quayAt p.quay) p.va p.write = .fault k → exec .xltProbeDone s = .next (s.after
      ((u.put Reg.XLT_PROBE_PA_LO 0).put Reg.XLT_PROBE_PA_HI (65536 + k * 2 ^ 17))))) ∧
  (∀ (s : State) (q : Fin 4) (va leaf : Nat), s.awake = true → s.quays[q].chart = none →
    exec (.pageRemap q va leaf) s = .next (s.after (s.begin.answer St.FENCED))) ∧
  (∀ (s : State) (q : Fin 4) (va leaf : Nat) (c : Chart) (e level table : Nat) (ok : Bool), s.awake = true → s.quays[q].chart = some c →
    s.walkFrom va 4 1 (s.addr48 (Reg.XLT_QUAY_ROOT_LO q)) true = some (some (e, level, table, ok)) →
    (c.cfg.piloted = false ∨ bitOf e 6 = false → exec (.pageRemap q va leaf) s = .next (s.after (s.begin.answer St.FENCED))) ∧
    (c.cfg.piloted = true → bitOf e 6 = true →
      let size := leafSize level e
      exec (.pageRemap q va leaf) s = .next (s.after (((s.begin.store (table + 8 * vaIndex va level) (natLE 8 leaf)).modMem (fun m => { m with
        tlb := m.tlb.filter (fun x => !(decide (x.quay = q.val) && decide (x.va < va / size * size + size) &&
          decide (va / size * size < x.va + x.size))) })).answer St.OK))))

/-- HBM_READ outside HBM answers OOB; of a line it answers the bytes and mark the code gives. HBM_MASKED_WRITE of a line: every bit whose mask
bit is 1 is written, every other keeps its value, and no register, quay or byte of another line changes. PATROL_READ while patrol is off
changes nothing. SRAM_PATROL_READ of a word without error advances the bank's word alone. HBMC_RETIRE_ADD while every quay is EMPTY
retires the page; otherwise it is ignored and counted. -/
def Obligations.HbmLinesReadWriteAndPatrol : Prop :=
  (∀ (s : State) (a : Nat) (err : List (Nat × Nat)), s.awake = true →
    (groupOf a = none → exec (.hbmRead a err) s = .next (s.after (s.begin.answer St.OOB))) ∧
    (∀ g, groupOf a = some g →
      let d := s.begin.hbmLine (a / 64 * 64) err
      exec (.hbmRead a err) s = .next (s.after (d.1.answer (if d.2.2.1 then St.POISON else St.OK) 0 d.2.1 d.2.2.1)))) ∧
  (∀ (s : State) (a g : Nat) (data : List Byte) (mask : Nat) (poison : Bool), s.awake = true → groupOf a = some g → data.length = 64 →
    ∃ t, exec (.hbmMaskedWrite a data mask poison) s = .next t ∧
      (∀ i, i < 64 → t.byte (a / 64 * 64 + i) = (s.byte (a / 64 * 64 + i) &&& ~~~ BitVec.ofNat 8 (mask >>> (8 * i))) |||
        (data.getD i 0#8 &&& BitVec.ofNat 8 (mask >>> (8 * i)))) ∧
      (∀ b, (b < a / 64 * 64 ∨ a / 64 * 64 + 64 ≤ b) → t.byte b = s.byte b) ∧
      t.regs = s.regs ∧ t.quays = s.quays ∧ t.reply = some ⟨St.OK, 0, [], false⟩) ∧
  (∀ (s : State) (ch : Fin 64) (err : List (Nat × Nat)), s.awake = true →
    (flag (s.reg (Reg.HBMC_STATUS (ch.val / 32))) 3 = false → exec (.patrolRead ch err) s = .next (s.after s.begin)) ∧
    (flag (s.reg (Reg.HBMC_STATUS (ch.val / 32))) 3 = true →
      (s.begin.hbmLine (pchLine ch (Tab.get nat0 s.mem.patrolAt ch)) err).2.2.2 = false → Tab.get nat0 s.mem.patrolAt ch + 1 < pchLines →
      exec (.patrolRead ch err) s = .next (s.after ((s.begin.hbmLine (pchLine ch (Tab.get nat0 s.mem.patrolAt ch)) err).1.modMem
        (fun m => { m with patrolAt := Tab.set nat0 m.patrolAt ch (Tab.get nat0 s.mem.patrolAt ch + 1) }))))) ∧
  (∀ (s : State) (m : Fin 4) (bank errs : Nat), s.awake = true → bank < sramBanks m → errs ≤ 1 →
    let key := m.val * 256 + bank
    let next := (Tab.get nat0 s.mem.sramPatrolAt key + 1) % sramWords m
    let u : State := { s.begin with mem := { s.mem with sramPatrolAt := Tab.set nat0 s.mem.sramPatrolAt key next } }
    exec (.sramPatrolRead m bank errs) s = .next (s.after (if errs = 0 then u else u.bump (Reg.HBMC_SRAM_CE_COUNT m)))) ∧
  (∀ (s : State) (st : Fin 2) (page : Nat), s.awake = true →
    ((∀ q : Fin 4, s.quays[q].st = .empty) →
      exec (.hbmcRetireAdd st page) s = .next (s.after ((s.begin.retirePage st (page % 2 ^ 24) false).answer St.OK))) ∧
    ((∃ q : Fin 4, s.quays[q].st ≠ .empty) →
      exec (.hbmcRetireAdd st page) s = .next (s.after ((s.begin.ignoredWrite (Reg.HBMC_RETIRE_ADD st)).answer St.OK))))

/-- On a receiver that a quay claims. FRAME_START with a sound header on a virtual channel a context holds starts that context's stream frame;
one with a lost header changes only what its header shows; one that matches no context is counted as unmatched. FRAME_END of the frame
being received, in no early part, stamps it and ends the stream frame. SOF_DEADLINE once frame n's interval has ended with no frame start:
the frame is counted invalid and the stream of frame n is bad. EOF_DEADLINE once the deadline has passed marks the frame LATE; before it
nothing changes. On an unclaimed receiver a packet changes nothing. -/
def Obligations.FramesStartEndAndDeadlinesMark : Prop :=
  (∀ (s : State) (p : Fin 8) (hd : Header) (vc c : Nat) (e : Fin 4 × List Byte) (q : Fin 4) (r : StreamRec), s.awake = true →
    s.portEntry p = some e → hd ≠ .lost → (s.begin.headerSeen p hd).ctxOfVc p vc = some c →
    (s.begin.headerSeen p hd).streamRec? c = some (q, r) →
    exec (.frameStart p hd vc) s = .next (s.after (if hd = .corrected
      then ((s.begin.headerSeen p hd).startStream e.1 c r).markFrame c (2 ^ Ing.ECC_CORRECTED)
      else (s.begin.headerSeen p hd).startStream e.1 c r))) ∧
  (∀ (s : State) (p : Fin 8) (vc : Nat) (e : Fin 4 × List Byte), s.awake = true → s.portEntry p = some e →
    exec (.frameStart p .lost vc) s = .next (s.after (s.begin.headerSeen p .lost)) ∧
    exec (.frameEnd p .lost vc) s = .next (s.after (s.begin.headerSeen p .lost))) ∧
  (∀ (s : State) (p : Fin 8) (hd : Header) (vc : Nat) (e : Fin 4 × List Byte), s.awake = true → s.portEntry p = some e → hd ≠ .lost →
    (s.begin.headerSeen p hd).ctxOfVc p vc = none →
    exec (.frameStart p hd vc) s = .next (s.after ((s.begin.headerSeen p hd).unmatched p)) ∧
    exec (.frameEnd p hd vc) s = .next (s.after ((s.begin.headerSeen p hd).unmatched p))) ∧
  (∀ (s : State) (p : Fin 8) (vc c : Nat) (e : Fin 4 × List Byte) (f : StreamFrame), s.awake = true → s.portEntry p = some e →
    let u := s.begin.headerSeen p .good
    u.ctxOfVc p vc = some c → (u.ctx c).cur = some f → f.extra = false → f.early = none →
    exec (.frameEnd p .good vc) s = .next (s.after ((u.stamp.2.modCur c (fun g => { g with eof := u.stamp.1 })).endStream c))) ∧
  (∀ (s : State) (c : Fin 24) (n : FrameNo) (q : Fin 4) (r : StreamRec) (T : Nat), s.awake = true → s.streamRec? c = some (q, r) →
    s.tickOf q n = some T → (∀ m, (s.ctx c).seen = some m → frameAtOrBefore n m = false) → T + r.sofUs * 1000 ≤ s.time.now →
    exec (.sofDeadline c n) s = .next (s.after
      (((s.begin.bump (Reg.CAMRX_CTX_INVALID_COUNT c)).modCtx c (fun x => { x with seen := some n })).badStream q n c))) ∧
  (∀ (s : State) (c : Fin 24) (q : Fin 4) (r : StreamRec) (f : StreamFrame) (T : Nat), s.awake = true → s.streamRec? c = some (q, r) →
    (s.ctx c).cur = some f → s.tickOf q f.frame = some T →
    (f.extra = false → f.early = none → T + r.eofUs * 1000 ≤ s.time.now →
      exec (.eofDeadline c) s = .next (s.after (s.begin.markFrame c (2 ^ Ing.LATE)))) ∧
    (s.time.now < T + r.eofUs * 1000 → exec (.eofDeadline c) s = .next (s.after s.begin))) ∧
  (∀ (s : State) (p : Fin 8) (hd : Header) (vc : Nat), s.awake = true → s.portEntry p = none →
    exec (.frameStart p hd vc) s = .next (s.after s.begin) ∧ exec (.frameEnd p hd vc) s = .next (s.after s.begin))

/-- On a receiver that a quay claims. LONG_PACKET of the context's data type with a sound header and CRC while a frame is received is a pixel
line of it; one outside a frame is stray; a type that is not supported is unmatched and marks the frame MALFORMED. SHORT_PACKET of type 0
or 1 is a frame start or frame end; of type 2 or 3 within a frame it changes nothing further; of any other type it is unmatched. PHY_ERROR
is counted, sets the receiver's event and marks the open frames of the receiver. PATTERN_INJECTION between frames with a CRC that differs
is counted and flags the next frame; with equal CRCs nothing changes. -/
def Obligations.PacketsReachTheirContext : Prop :=
  (∀ (s : State) (p : Fin 8) (vc dt c : Nat) (bs : List Byte) (bad : Option Outc) (e : Fin 4 × List Byte) (o : Fin 4) (r : StreamRec),
    s.awake = true → s.portEntry p = some e →
    let u := s.begin.headerSeen p .good
    u.ctxOfVc p vc = some c → u.streamRec? c = some (o, r) →
    (∀ f, supportedType dt = true → dt = r.dt → dt ≠ 0x12 → (u.ctx c).cur = some f → f.extra = false →
      exec (.longPacket p .good vc dt bs true bad) s = .next (s.after (u.pixelLine e.1 c r bs bad))) ∧
    (supportedType dt = true → dt = r.dt → (u.ctx c).cur = none →
      exec (.longPacket p .good vc dt bs true bad) s = .next (s.after (u.strayPacket c))) ∧
    (supportedType dt = false →
      exec (.longPacket p .good vc dt bs true bad) s = .next (s.after ((u.unmatched p).markFrame c (2 ^ Ing.MALFORMED))))) ∧
  (∀ (s : State) (p : Fin 8) (hd : Header) (vc : Nat), s.awake = true →
    exec (.shortPacket p hd vc 0) s = exec (.frameStart p hd vc) s ∧ exec (.shortPacket p hd vc 1) s = exec (.frameEnd p hd vc) s) ∧
  (∀ (s : State) (p : Fin 8) (vc dt c : Nat) (e : Fin 4 × List Byte), s.awake = true → s.portEntry p = some e → 2 ≤ dt →
    let u := s.begin.headerSeen p .good
    u.ctxOfVc p vc = some c →
    (dt = 2 ∨ dt = 3 → (u.ctx c).cur.isSome = true → exec (.shortPacket p .good vc dt) s = .next (s.after u)) ∧
    (dt = 2 ∨ dt = 3 → (u.ctx c).cur = none → exec (.shortPacket p .good vc dt) s = .next (s.after (u.strayPacket c))) ∧
    (4 ≤ dt → exec (.shortPacket p .good vc dt) s = .next (s.after (u.unmatched p)))) ∧
  (∀ (s : State) (p : Fin 8) (e : Fin 4 × List Byte), s.awake = true → s.portEntry p = some e →
    exec (.phyError p) s = .next (s.after (((s.begin.bump (Reg.CAMRX_PORT_PHY_ERR_COUNT p)).setEvent (Reg.CAMRX_PORT_EVENT p) 8).markPort p
      (2 ^ Ing.PHY)))) ∧
  (∀ (s : State) (c : Fin 24) (q : Fin 4) (r : StreamRec) (a b : Bool), s.awake = true → s.streamRec? c = some (q, r) → r.inject = true →
    (s.ctx c).cur = none →
    (a = false ∨ b = false → exec (.patternInjection c a b) s = .next (s.after
      ((s.begin.bump (Reg.CAMRX_CTX_INJECT_FAIL_COUNT c)).modCtx c (fun x => { x with nextFlags := x.nextFlags ||| 2 ^ Ing.INJECT_FAIL })))) ∧
    (a = true → b = true → exec (.patternInjection c a b) s = .next (s.after s.begin)))

/-- FSYNC_EDGE of an output that a quay claims, once the harbour time of its latest frame tick plus the output's offset has come and no pulse
of that tick has been given: some edge time of that instant plus at most 4 ns is recorded in CAMRX_FSYNC_EDGE, the pulse is active on the
pin, and one free value is drawn for it. A second edge of the same tick changes nothing. FSYNC_PULSE_END once the width has passed since
the edge ends the pulse; before it nothing changes. -/
def Obligations.FsyncPulsesFollowTheTick : Prop :=
  (∀ (s : State) (i : Fin 8) (q : Fin 4) (b : List Byte) (t : OpenTick), s.awake = true → s.ownerOf Cls.FSYNC i = some q →
    s.quays[q].paramOf Cls.FSYNC i = some b → s.cam.ticks.reverse.find? (fun t => t.quay = q.val) = some t →
    let due := t.tick + leAt b 8 4 * 1000
    (due ≤ s.time.now → s.cam.edges.any (fun g => g.1 = i.val && g.2.1 = t.tick) = false →
      ∃ v ≤ 4, ∃ es, exec (.fsyncEdge i) s = .next (s.after
        ((({ s.begin with free := s.free + 1, cam := { s.cam with edges := es ++ [(i.val, t.tick, due + v)] } } : State).setReg64
          (Reg.CAMRX_FSYNC_EDGE_LO i) (due + v)).fsyncPin i true))) ∧
    (s.time.now < due ∨ s.cam.edges.any (fun g => g.1 = i.val && g.2.1 = t.tick) = true →
      exec (.fsyncEdge i) s = .next (s.after s.begin))) ∧
  (∀ (s : State) (i : Fin 8) (q : Fin 4) (b : List Byte), s.awake = true → s.ownerOf Cls.FSYNC i = some q →
    s.quays[q].paramOf Cls.FSYNC i = some b → s.cam.fsync.getD i false = true →
    (s.reg64 (Reg.CAMRX_FSYNC_EDGE_LO i) + leAt b 0xC 2 * 1000 ≤ s.time.now →
      exec (.fsyncPulseEnd i) s = .next (s.after (s.begin.fsyncPin i false))) ∧
    (s.time.now < s.reg64 (Reg.CAMRX_FSYNC_EDGE_LO i) + leAt b 0xC 2 * 1000 → exec (.fsyncPulseEnd i) s = .next (s.after s.begin)))

/-- TICKET_SUBMIT in a quay EMPTY, FAULTED or RESETTING: BAD_STATE, counted and shown in CAMRX_TKT_STATUS, nothing else. For a context whose
stream another quay holds, in a state that takes tickets, with a readable script and room in the queue: REFUSED, shown, nothing else.
TICKET_WINDOW_OPEN with an idle controller and an eligible ticket: the first eligible ticket leaves its context's queue and its script is
sent. TICKET_DONE of a ticket all acknowledged, whose context is still held: the controller is idle and a result is pushed: OK with the
frame it took effect on, moved when that is not its target or it ended after its close. TICKET_RESULT_POP removes the oldest result and
nothing else. -/
def Obligations.ExposureTicketsQueueAndReport : Prop :=
  (∀ (s : State) (q : Fin 4) (c : Nat), s.awake = true → s.quays[q].st = .empty ∨ s.quays[q].st = .faulted ∨ s.quays[q].st = .resetting →
    exec (.ticketSubmit q c) s = .next (s.after (((s.begin.bump (Reg.CAMRX_TKT_BAD_STATE_COUNT q)).put (Reg.CAMRX_TKT_STATUS q)
      St.BAD_STATE.toNat).answer St.BAD_STATE))) ∧
  (∀ (s : State) (q o : Fin 4) (c : Nat) (r : StreamRec), s.awake = true → s.quays[q].st = .running ∨ s.quays[q].st = .docked →
    s.streamRec? c = some (o, r) → o ≠ q → (s.readScript (s.addr48 (Reg.CAMRX_TKT_SCRIPT_LO q))).2 = false → (s.ctx c).queue.length < 8 →
    exec (.ticketSubmit q c) s = .next (s.after ((s.begin.put (Reg.CAMRX_TKT_STATUS q) St.REFUSED.toNat).answer St.REFUSED))) ∧
  (∀ (s : State) (i : Fin 4) (q : Fin 4) (rate c : Nat) (x : Nat) (t : Ticket) (w : FrameNo) (tick : Nat)
    (rest : List (Nat × Nat × Ticket × FrameNo × Nat)), s.awake = true → s.i3cRate i = some (q, rate) → s.i3cIdle i = true →
    s.eligible q i rate = (x, c, t, w, tick) :: rest →
    exec (.ticketWindowOpen i) s = .next (s.after (((s.begin.modCtx c (fun x => { x with queue := x.queue.drop 1 })).setI3c i
      (some (.ticket t w tick none))).emit (.i3c i t.script)))) ∧
  (∀ (s : State) (i : Fin 4) (q o : Fin 4) (rate tick : Nat) (t : Ticket) (w : FrameNo) (k : Option Nat) (r : StreamRec), s.awake = true →
    s.cam.i3c.getD i none = some (.ticket t w tick k) → s.i3cRate i = some (q, rate) → s.streamRec? t.ctx = some (o, r) →
    let late := decide (tick + r.closeUs * 1000 < s.time.now)
    let actual := w + BitVec.ofNat 32 (r.latch + b2n late)
    let moved := late || decide (w + BitVec.ofNat 32 r.latch ≠ t.target)
    exec (.ticketDone i none) s = .next (s.after ((((s.begin.setI3c i none).pushResult
      ⟨t.number, t.ctx, if moved then 0x80#8 else St.OK, actual⟩)).modCtx t.ctx
        (fun x => { x with inForce := x.inForce ++ [⟨actual, t.number, t.exposure, moved, false⟩] })))) ∧
  (∀ (s : State), s.awake = true →
    exec .ticketResultPop s = .next (s.after (({ s.begin with cam := { s.cam with results := s.cam.results.drop 1 } } : State).answer St.OK)))

/-- I3C_FW_TRANSFER on a controller no quay claims queues the transfer behind the others of that controller and nothing else. I3C_IBI on a
claimed controller: the interrupt is received for firmware and its source raised. SPI_DRDY_EDGE on a disabled port changes nothing; with
two stamps held already the sample is counted as dropped and the gap is noted; else the edge is stamped at now plus at most 6 ns.
SPI_SAMPLE_DONE with the ring full: the oldest stamp is spent, the sample counted as dropped, and the next read begins if another stamp is
held. -/
def Obligations.SensorBusesCarryFirmwareAndSamples : Prop :=
  (∀ (s : State) (i : Fin 4) (bits : Nat) (bs : List Byte), s.awake = true → bs ≠ [] → s.i3cRate i = none →
    exec (.i3cFwTransfer i bits bs) s = .next (s.after { s.begin with cam := { s.cam with
      i3cQueue := modAt s.cam.i3cQueue i (fun l => l ++ [(bits, bs)]) } })) ∧
  (∀ (s : State) (i : Fin 4) (target : Nat) (bs : List Byte) (q : Fin 4), s.awake = true → s.ownerOf Cls.I3C i = some q →
    exec (.i3cIbi i target bs) s = .next (s.after (({ s.begin with cam := { s.cam with
      ibi := modAt s.cam.ibi i (fun l => l ++ [(target, bs)]) } } : State).raiseMsi (72 + i)))) ∧
  (∀ (s : State) (p : Fin 4), s.awake = true →
    (s.spiEnabled p = false → exec (.spiDrdyEdge p) s = .next (s.after s.begin)) ∧
    (s.spiEnabled p = true → 2 ≤ (s.spi p).held.length → exec (.spiDrdyEdge p) s = .next (s.after
      ((s.begin.bump (Reg.SPI_STAMP_DROP_COUNT p)).setSpi p { s.spi p with dropped := true }))) ∧
    (s.spiEnabled p = true → (s.spi p).held.length = 1 → ∃ v ≤ 6, exec (.spiDrdyEdge p) s = .next (s.after
      (({ s.begin with free := s.free + 1 } : State).setSpi p { s.spi p with held := (s.spi p).held ++ [s.time.now + v] })))) ∧
  (∀ (s : State) (p : Fin 4) (data : List Byte) (stamp : Nat) (rest : List Nat), s.awake = true → (s.spi p).held = stamp :: rest →
    ringFull (2 ^ fld (s.reg (Reg.SPI_STAMP_CTRL p)) 24 21) (fld (s.reg (Reg.SPI_STAMP_PRODUCER p)) 11 0)
      (fld (s.reg (Reg.SPI_STAMP_CONSUMER p)) 11 0) = true →
    let u := (s.begin.bump (Reg.SPI_STAMP_DROP_COUNT p)).setSpi p { s.spi p with held := rest, dropped := true }
    exec (.spiSampleDone p data) s = .next (s.after (if rest.isEmpty then u else u.emit (.spi p (u.spiCmd p))))) ∧
  (∀ (s : State) (p : Fin 4) (data : List Byte) (stamp : Nat) (rest : List Nat), s.awake = true → (s.spi p).held = stamp :: rest →
    let prod := fld (s.reg (Reg.SPI_STAMP_PRODUCER p)) 11 0
    let size := 2 ^ fld (s.reg (Reg.SPI_STAMP_CTRL p)) 24 21
    ringFull size prod (fld (s.reg (Reg.SPI_STAMP_CONSUMER p)) 11 0) = false →
    let d := (s.begin.devWrite .app (s.addr48 (Reg.SPI_STAMP_RING_LO p) + 64 * prod)
      (spiRecord p stamp (s.spi p).seq (s.begin.spiLen p) (s.spi p).dropped data)).1
    let u := ((d.setSpi p ⟨rest, ((s.spi p).seq + 1) % 2 ^ 32, false⟩).put (Reg.SPI_STAMP_PRODUCER p) ((prod + 1) % size)).raiseMsi (48 + p)
    exec (.spiSampleDone p data) s = .next (s.after (if rest.isEmpty then u else u.emit (.spi p (u.spiCmd p)))))

/-- LINE_ARRIVE of a slot's next line whose frame's run is discarded: the line leaves the queue and counts for its run, and a pass may begin.
PASS_END: the pass in progress ends, every run of the pipe settles and the next pass begins. OUTPUT_ROW_WRITE of the oldest run with a row
left of the output: the row is written once the stage runs and the pass that completes its inputs has ended; before that nothing changes.
ADJ_SUBMIT in a quay EMPTY, FAULTED or RESETTING: BAD_STATE, counted and shown, nothing else; a readable, well-formed record for a slot of
the quay, no target of the same number queued, not older than the last, with room: queued behind the others with the next number. -/
def Obligations.CameraPipesTakeLinesAndWriteRows : Prop :=
  (∀ (s : State) (k : Fin 32) (q : Fin 4) (bs : List Byte) (l : CampLine) (rest : List CampLine) (u : CampRun), s.awake = true →
    s.campRec? k = some (q, bs) → (s.slot k).inbound = l :: rest →
    let v := s.begin.modSlot k (fun x => { x with inbound := rest })
    (v.slot k).runs.find? (fun u => u.frame = l.frame) = some u → u.lines ≠ 0 → u.discarded = true →
    exec (.lineArrive k) s = .next (s.after (((v.modRun k l.frame (fun u => { u with lines := u.lines + 1 })).settleRuns k).beginPass (k.val / 8)))) ∧
  (∀ (s : State) (i : Fin 4) (p : Pass), s.awake = true → s.camp.pass.getD i none = some p →
    let v := ({ s.begin with camp := { s.camp with pass := setAt s.camp.pass i none } } : State).endPass i p
    exec (.passEnd i) s = .next (s.after (((List.range 8).foldl (fun (s : State) j => s.settleRuns (8 * i + j)) v).beginPass i))) ∧
  (∀ (s : State) (k : Fin 32) (m : Fin 4) (q : Fin 4) (bs : List Byte) (i h : Nat) (u : CampRun) (f : FrameRec) (r : StageRun), s.awake = true →
    s.campRec? k = some (q, bs) → s.quays[q].stageIdx? (leAt bs 8 2) = some i → s.rowRun? k m bs = some u →
    (s.quays[q].stageE i).outs[m.val]? = some h → s.quays[q].frame? u.frame = some f → s.stageRun? q u.frame i = some r →
    (r.running = true → s.rowReady m bs u = true →
      exec (.outputRowWrite k m) s = .next (s.after (s.begin.writeRow q k m i h bs u f))) ∧
    (r.running = false ∨ s.rowReady m bs u = false → exec (.outputRowWrite k m) s = .next (s.after s.begin))) ∧
  (∀ (s : State) (q : Fin 4) (c : Nat), s.awake = true → s.quays[q].st = .empty ∨ s.quays[q].st = .faulted ∨ s.quays[q].st = .resetting →
    exec (.adjSubmit q c) s = .next (s.after (((s.begin.bump (Reg.CAMP_ADJ_BAD_STATE_COUNT q)).put (Reg.CAMP_ADJ_STATUS q)
      St.BAD_STATE.toNat).answer St.BAD_STATE))) ∧
  (∀ (s : State) (q : Fin 4) (c k : Nat) (bs : List Byte) (p : Bool), s.awake = true → s.quays[q].st = .running ∨ s.quays[q].st = .docked →
    s.slotOf q c = some k → s.devRead (s.addr48 (Reg.CAMP_ADJ_RECORD_LO q)) 64 = (St.OK, bs, p) → (⟨bs⟩ : Adj).ok = true →
    let target := (s.reg (Reg.CAMP_ADJ_TARGET q)).toNat
    (s.slot k).lastTarget = none → (s.slot k).queue = [] →
    exec (.adjSubmit q c) s = .next (s.after (((s.begin.modSlot k (fun x => { x with
      queue := [⟨(s.slot k).nextNumber, target, bs⟩], nextNumber := nextTicket x.nextNumber, lastTarget := some target })).put
        (Reg.CAMP_ADJ_STATUS q) (0 + (s.slot k).nextNumber * 65536)).answer St.OK)))

/-- HEAD_DESCRIPTOR_CHECK of an idle vision instance of a quay with a next job: while a head berth of its inputs is not full nothing changes;
once they all are, the head descriptors are read and judged, and the job starts or ends with STALE_TIDE or SHAPE. A FLOW job without
history writes its invalid field at once. While a job runs on the instance nothing changes. WARP_BAND_COMPLETE of the running job's next
band writes the band once its mesh rows and source rows can be read, and changes nothing before that or after its last band. -/
def Obligations.VisionJobsStartBandAndWait : Prop :=
  (∀ (s : State) (cls inst : Nat) (q : Fin 4), s.awake = true → s.ownerOf cls inst = some q → 3 ≤ cls → cls ≤ 7 →
    (∀ (f : FrameRec) (r : StageRun) (k : Nat) (b : List Byte), s.visRun? cls inst = none → s.nextJob q cls inst = some (f, r) →
      s.quays[q].jobOf r.idx = some (k, b) →
      (cls ≠ Cls.FLOW ∨ r.gathered.elem 0x82#8 = false →
        (s.headsReady q cls f r b = true →
          exec (.headDescriptorCheck cls inst) s = .next (s.after (s.begin.judgeHeads q cls inst f r b))) ∧
        (s.headsReady q cls f r b = false → exec (.headDescriptorCheck cls inst) s = .next (s.after s.begin))) ∧
      (cls = Cls.FLOW → r.gathered.elem 0x82#8 = true →
        exec (.headDescriptorCheck cls inst) s =
          .next (s.after (((s.begin.flowNoHist q f.num r.idx).settlePiloted q).settleRemote q)))) ∧
    ((s.visRun? cls inst).isSome = true → exec (.headDescriptorCheck cls inst) s = .next (s.after s.begin))) ∧
  (∀ (s : State) (i : Fin 2) (v : VisRun) (q : Fin 4) (k : Nat) (b : List Byte) (f : FrameRec) (d : Desc), s.awake = true →
    s.visRun? Cls.WARP i = some v → quayOf? v.quay = some q → s.quays[q].jobOf v.idx = some (k, b) →
    s.quays[q].frame? v.frame = some f → v.descs.head? = some d →
    let j : WarpJob := ⟨b⟩
    let ready := (decide (j.mode ≠ 1) || s.meshReady q v j (s.jobIn q f v.idx 1) (j.bandRows v.band)) &&
      s.bandReady q v j (s.jobIn q f v.idx 0) d (s.begin.bandPixels q v j f d).2.2
    (v.band < j.bands → ready = true → exec (.warpBandComplete i) s = .next (s.after (s.begin.warpBand q i v j f d))) ∧
    (j.bands ≤ v.band ∨ ready = false → exec (.warpBandComplete i) s = .next (s.after s.begin)))

/-- PREDICTION_SUBMIT in a quay EMPTY, FAULTED or RESETTING: BAD_STATE, counted and shown with the number queued. A well-formed record for a
context the quay associates, its first prediction, with a target not started: queued last with its nine coefficients and gate.
LEDGER_WINDOW_READ of a block no quay owns returns zeros; of an owned one it settles the context, counts what it folded and returns its
bytes. LEDGER_WINDOW_WRITE by anyone is dropped, counted and FENCED. LEDGER_SWEEP_DONE of a sweep not in progress changes nothing; of one
in progress it folds every block of the quay on the die and the sweep is over. -/
def Obligations.LedgerPredictionsWindowAndSweeps : Prop :=
  (∀ (s : State) (q : Fin 4) (c : Nat), s.awake = true → s.quays[q].st = .empty ∨ s.quays[q].st = .faulted ∨ s.quays[q].st = .resetting →
    exec (.predictionSubmit q c) s = .next (s.after (((s.begin.bump (Reg.LEDGER_PRED_BAD_STATE_COUNT q)).put (Reg.LEDGER_PRED_STATUS q)
      (St.BAD_STATE.toNat + 256 * (s.ledger.preds.filter (fun p => p.quay = q.val && p.ctx = c)).length)).answer St.BAD_STATE))) ∧
  (∀ (s : State) (q : Fin 4) (c : Nat) (bs : List Byte) (p : Bool), s.awake = true → s.quays[q].st = .running ∨ s.quays[q].st = .docked →
    s.devRead (s.addr48 (Reg.LEDGER_PRED_RECORD_LO q)) 64 = (St.OK, bs, p) → predOk bs = true → s.associates q c = true →
    let target := (s.reg (Reg.LEDGER_PRED_TARGET q)).toNat
    s.targetStarted q c target = false → s.ledger.preds.filter (fun p => p.quay = q.val && p.ctx = c) = [] →
    let e : Pred := ⟨c, q.val, target, (List.range 9).map (fun i => leAt bs (4 * i) 4), leAt bs 0x24 2⟩
    exec (.predictionSubmit q c) s = .next (s.after ((({ s.begin with ledger := { s.ledger with preds := s.ledger.preds ++ [e] } } : State).put
      (Reg.LEDGER_PRED_STATUS q) (0 + 256 * 1)).answer St.OK))) ∧
  (∀ (s : State) (a n : Nat), s.awake = true →
    let t := (a - Addr.ledger) / 64
    let b := blockOfTrack t
    (s.ownerOf Cls.LEDGER b = none → exec (.ledgerWindowRead a n) s = .next (s.after (s.begin.answer St.OK 0 (List.replicate n 0#8)))) ∧
    (∀ q, s.ownerOf Cls.LEDGER b = some q →
      let d := s.ledger.touch t
      let bs := slice (d.1.track t).bytes ((a - Addr.ledger) % 64) n
      exec (.ledgerWindowRead a n) s = .next (s.after ((({ s.begin with ledger := d.1 } : State).countFolded [(b, d.2.1, d.2.2)]).answer
        St.OK (leNat bs) bs)))) ∧
  (∀ (s : State) (a : Nat) (bs : List Byte), s.awake = true →
    exec (.ledgerWindowWrite a bs) s = .next (s.after ((s.begin.bump Reg.LEDGER_WRITE_DROP_COUNT).answer St.FENCED))) ∧
  (∀ (s : State) (die : Fin 2) (q : Fin 4), s.awake = true →
    (s.ledger.sweeps.elem (die.val, q.val) = false → exec (.ledgerSweepDone die q) s = .next (s.after s.begin)) ∧
    (s.ledger.sweeps.elem (die.val, q.val) = true →
      ∃ t, exec (.ledgerSweepDone die q) s = .next t ∧ t.ledger.sweeps.elem (die.val, q.val) = false ∧ t.quays = s.quays ∧ t.mem = s.mem ∧
        t.ledger.preds = s.ledger.preds))

/-- POSE_SUBMIT with no quay owning Soundings, or its quay FAULTED or RESETTING: BAD_STATE, counted and shown with the number queued. A
well-formed pose for a job of the map, its first, whose target has not started: queued last. SND_PRODUCERS_DONE of the running job, whose
work has not begun: while a producer has not completed nothing more changes; when one completed with another status than OK the stage ends
with its own status for that; when all are OK and the heads can be read the job integrates. -/
def Obligations.SoundingsTakePosesAndIntegrate : Prop :=
  (∀ (s : State) (k : Nat), s.awake = true →
    (s.ownerOf Cls.SND 0 = none ∨ ∃ q, s.ownerOf Cls.SND 0 = some q ∧ (s.quays[q].st = .faulted ∨ s.quays[q].st = .resetting)) →
    exec (.poseSubmit k) s = .next (s.after (((s.begin.bump Reg.SND_POSE_BAD_STATE_COUNT).put Reg.SND_POSE_STATUS
      (St.BAD_STATE.toNat + 256 * (s.snd.poses.filter (fun p => p.job = k)).length)).answer St.BAD_STATE))) ∧
  (∀ (s : State) (k : Nat) (q : Fin 4) (m : SndMap) (bs : List Byte) (p : Bool), s.awake = true → s.ownerOf Cls.SND 0 = some q →
    s.quays[q].st = .running → s.quays[q].sndMap = some m → k < m.count →
    s.devRead (s.addr48 Reg.SND_POSE_RECORD_LO) 64 = (St.OK, bs, p) → poseOk bs = true → s.snd.poses.filter (fun p => p.job = k) = [] →
    s.snd.latched.any (fun l => decide (l.1 = k)) = false →
    let target := (s.reg Reg.SND_POSE_TARGET).toNat
    exec (.poseSubmit k) s = .next (s.after ((({ s.begin with snd := { s.snd with poses := s.snd.poses ++ [poseOf k target bs] } } : State).put
      Reg.SND_POSE_STATUS (0 + 256 * ((s.snd.poses ++ [poseOf k target bs]).filter (fun p => p.job = k)).length)).answer St.OK))) ∧
  (∀ (s : State) (q : Fin 4) (v : VisRun) (f : FrameRec) (k : Nat) (b : List Byte) (m : SndMap), s.awake = true → s.ownerOf Cls.SND 0 = some q →
    let u := s.begin.sndNext q
    u.vis.find? (fun v => v.cls = Cls.SND) = some v → u.quays[q].frame? v.frame = some f → u.quays[q].jobOf v.idx = some (k, b) →
    u.quays[q].sndMap = some m → v.band = 0 →
    let ps := u.quays[q].producersOf f v.idx
    (ps.all (fun r => r.status.isSome) = false → exec .sndProducersDone s = .next (s.after u)) ∧
    (ps.all (fun r => r.status.isSome) = true → ps.any (fun r => r.status ≠ some St.OK) = true →
      exec .sndProducersDone s = .next (s.after (u.completeStage q f.num v.idx [0x83#8]))) ∧
    (ps.all (fun r => r.status.isSome) = true → ps.any (fun r => r.status ≠ some St.OK) = false →
      (u.sndInputs q v f ⟨b⟩).all (fun e => u.inReady q v.idx e.2 e.1.off 128) = true →
      exec .sndProducersDone s = .next (s.after (u.sndIntegrate q v f k ⟨b⟩ m))))

/-- EDGE_DEADLINE of a region whose first evaluation still waits for it, at or after its deadline: the region's outcome is UNKNOWN for that
frame; before the deadline nothing changes. EDGE_RELEASE and EDGE_TEST from another initiator than Coastguard software are ignored and
counted. From Coastguard software a release ends the latched disagreement and the wait, tries the release and settles EDGE_N; a test
stores the force and settles EDGE_N, and while the force stands EDGE_N is asserted. -/
def Obligations.EdgeGuardDecidesReleasesAndTests : Prop :=
  (∀ (s : State) (k r : Nat) (x : EdgeSrcSt) (e : EdgeSrc) (v : EdgeEval), s.awake = true → s.edge.srcs[k]? = some x →
    s.edgeSources[k]? = some e → x.evals.find? (fun v => (match v.runs[r]? with | some u => u.before.isNone | none => false)) = some v →
    (v.tick + e.deadlineUs * 1000 ≤ s.time.now →
      exec (.edgeDeadline k r) s = .next (s.after (s.begin.edgeDecide k r v.frame Outc.unknown Outc.unknown))) ∧
    (s.time.now < v.tick + e.deadlineUs * 1000 → exec (.edgeDeadline k r) s = .next (s.after s.begin))) ∧
  (∀ (s : State) (ini : Initiator) (force : Bool), s.awake = true → ini ≠ .cg →
    exec (.edgeRelease ini) s = .next (s.after (s.begin.ignoredWrite Reg.EDGE_RELEASE)) ∧
    exec (.edgeTest ini force) s = .next (s.after (s.begin.ignoredWrite Reg.EDGE_TEST))) ∧
  (∀ (s : State) (force : Bool), s.awake = true →
    exec (.edgeRelease .cg) s = .next (s.after (((({ s.begin with edge := { s.edge with awaiting := false, disagree := false } } :
      State).edgeTryRelease).edgeSettle s.edgeN).answer St.OK)) ∧
    exec (.edgeTest .cg force) s = .next (s.after (((s.begin.put Reg.EDGE_TEST (b2n force)).edgeSettle s.edgeN).answer St.OK))) ∧
  (∀ (s : State), s.awake = true → ∃ t, exec (.edgeTest .cg true) s = .next t ∧ t.edgeN = true ∧ t.edge = s.edge ∧ t.quays = s.quays)

/-- On the stage whose command is next. A sound compute command (MATMUL, CONV2D, ATTN, NORM, VEC, REDUCE) with no hazard against the stage's
queued transfers and its operands ready runs: its operation is carried out (runCmd) and the stage goes past it; while a hazard or an
unready operand holds it, nothing changes. FETCH and COPY enter the instance's transfer queue while it holds fewer than eight, and the
stage goes on; with eight queued nothing changes. A command with a fault and no transfer queued is a BAD_COMMAND with its first reason.
LAYER and END, once the stage's transfers are drained, take effect at once unless a layer of a Bollard voyage is behind them, and then the
stage waits. ELV_TRANSFER_COMPLETE of a queued transfer with no hazard before it and its source ready, other than a final COPY, moves its
data, leaves the queue and counts; one that is not queued changes nothing. BOLLARD_RELEASE lets every instance of a voyage that is met
pass its boundary together, and otherwise changes nothing. TANDEM_ISSUE that fits the primary's bubble starts the layer behind with its
bound, and one that does not fit changes nothing. -/
def Obligations.ElvowCommandsIssueComputeAndMove : Prop :=
  (∀ (s : State) (inst : Fin 12) (k op : Nat) (cx : CmdCtx), s.awake = true → s.begin.elvReady op inst k cx →
    let r := (s.begin.refSet cx cx.c.uses).refs
    let held := (s.begin.stageXfers cx).any (hazard r cx.c) || !([r.a, r.b, r.c, r.sa, r.sb].filterMap id).all (s.begin.refReady cx)
    let t : State := if held then s.begin
      else ((s.begin.runCmd cx r).1.cmdDone cx (s.begin.runCmd cx r).2.1).tandemCheck inst
    (op = 1 → exec (.matmul inst k) s = .next (s.after t)) ∧ (op = 2 → exec (.conv2d inst k) s = .next (s.after t)) ∧
    (op = 3 → exec (.attn inst k) s = .next (s.after t)) ∧ (op = 4 → exec (.norm inst k) s = .next (s.after t)) ∧
    (op = 5 → exec (.vec inst k) s = .next (s.after t)) ∧ (op = 6 → exec (.reduce inst k) s = .next (s.after t))) ∧
  (∀ (s : State) (inst : Fin 12) (k op : Nat) (cx : CmdCtx), s.awake = true → s.begin.elvReady op inst k cx →
    let xs := s.prog.xfers.getD inst []
    let t : State := if 8 ≤ xs.length then s.begin else
      (({ s.begin with prog := { s.prog with
        xfers := modAt s.prog.xfers inst (fun xs => xs ++ [⟨cx.run.idx, cx.run.frame, cx.c, (s.begin.refSet cx cx.c.uses).refs⟩]) } } : State).modProg cx
          (fun r => { r with pc := r.pc + 1 }))
    (op = 7 → exec (.fetch inst k) s = .next (s.after t)) ∧ (op = 8 → exec (.copy inst k) s = .next (s.after t))) ∧
  (∀ (s : State) (inst : Fin 12) (k op : Nat) (cx : CmdCtx) (why : Nat) (l : List Nat), s.awake = true →
    s.begin.cmdCtx Cls.ELV inst k = some cx → s.begin.mayIssue inst k cx.run = true → cx.c.op = op →
    cx.elvFaults cx.c.uses (s.begin.refSet cx cx.c.uses) = why :: l → (∀ x ∈ (s.begin.refSet cx cx.c.uses).all, ∀ st, x ≠ .status st) →
    s.begin.stageXfers cx = [] →
    let t := s.begin.badCommand cx why
    (op = 1 → exec (.matmul inst k) s = .next (s.after t)) ∧ (op = 2 → exec (.conv2d inst k) s = .next (s.after t)) ∧
    (op = 3 → exec (.attn inst k) s = .next (s.after t)) ∧ (op = 4 → exec (.norm inst k) s = .next (s.after t)) ∧
    (op = 5 → exec (.vec inst k) s = .next (s.after t)) ∧ (op = 6 → exec (.reduce inst k) s = .next (s.after t)) ∧
    (op = 7 → exec (.fetch inst k) s = .next (s.after t)) ∧ (op = 8 → exec (.copy inst k) s = .next (s.after t))) ∧
  (∀ (s : State) (inst : Fin 12) (op : Nat) (cx : CmdCtx), s.awake = true → s.begin.elvReady op inst 0 cx → s.begin.stageXfers cx = [] →
    let t : State := if s.begin.bollardMode cx.q && decide (0 < cx.run.layer) then s.begin.modProg cx (fun r => { r with waiting := true })
      else s.begin.elvBoundary cx
    (op = 9 → exec (.layer inst) s = .next (s.after t)) ∧ (op = 10 → exec (.elvEnd inst) s = .next (s.after t))) ∧
  (∀ (s : State) (inst : Fin 12) (j : Nat) (x : ElvXfer) (run : ProgRun) (cx0 : CmdCtx), s.awake = true →
    (s.prog.xfers.getD inst [])[j]? = some x →
    (s.begin.progRuns Cls.ELV inst).find? (fun r => r.frame = x.frame ∧ r.idx = x.idx) = some run → s.begin.cmdAt Cls.ELV inst run = some cx0 →
    (∀ y ∈ (s.prog.xfers.getD inst []).take j, y.frame = x.frame → y.idx = x.idx → hazard x.refs x.cmd y = false) →
    let cx := { cx0 with c := x.cmd }
    ([x.refs.a].filterMap id).all (s.begin.refReady cx) = true → (x.cmd.final && decide (x.cmd.op = 8)) = false →
    let u := (s.begin.runCmd cx x.refs).1
    exec (.elvTransferComplete inst j) s = .next (s.after
      (((({ u with prog := { u.prog with xfers := modAt u.prog.xfers inst (fun xs => removeAt j xs) } } : State).bump
        (Reg.ELV_CMD_COUNT inst)).modProg cx (fun r => { r with statuses := r.statuses ++ (s.begin.runCmd cx x.refs).2.1 })).tandemCheck inst))) ∧
  (∀ (s : State) (inst : Fin 12) (j : Nat), s.awake = true → (s.prog.xfers.getD inst []).length ≤ j →
    exec (.elvTransferComplete inst j) s = .next (s.after s.begin)) ∧
  (∀ (s : State) (q : Fin 4) (n : FrameNo) (v : Nat), s.awake = true →
    (s.begin.voyageMet q n v = true → exec (.bollardRelease q n v) s = .next (s.after ((s.begin.voyageRuns q n v).foldl
      (fun (s : State) r => match s.cmdAt Cls.ELV r.1 r.2 with | some cx => s.elvBoundary cx | none => s) s.begin))) ∧
    (s.begin.voyageMet q n v = false → exec (.bollardRelease q n v) s = .next (s.after s.begin))) ∧
  (∀ (s : State) (inst : Fin 12) (left : Nat) (p cx : CmdCtx), s.awake = true → s.begin.cmdCtx Cls.ELV inst 0 = some p →
    s.begin.cmdCtx Cls.ELV inst 1 = some cx →
    let u := if cx.run.layer = 0 then s.begin else s.begin.bump (Reg.ELV_LAYER_COUNT inst)
    exec (.tandemIssue inst left) s = .next (s.after (if s.begin.tandemFits p cx left then
      ((u.bump (Reg.ELV_CMD_COUNT inst)).bump (Reg.ELV_TANDEM_COUNT inst)).modProg cx (fun r => { r with
        pc := r.pc + 1, layer := r.layer + 1, layerCmd := some cx.c, tandem := some (cx.c.p 0x20 4, s.time.now) })
      else s.begin)))

/-- On the stage of a LAYOUT instance whose command is next. A sound command of its opcode whose operands are found and ready runs
(runLayout): its elements are computed and written and the stage goes past it. While an operand waits for its producer nothing changes. A
command with a fault and no operand that ends the stage is a BAD_COMMAND with its first reason. END ends the program. With no stage there,
nothing changes. -/
def Obligations.LayoutCommandsRun : Prop :=
  (∀ (s : State) (inst : Fin 2) (op : Nat) (cx : CmdCtx), s.awake = true → s.begin.layReady op inst cx →
    let t := s.begin.runLayout cx (s.begin.refSet cx cx.c.layUses).refs
    (op = 8 → exec (.layoutCopy inst) s = .next (s.after t)) ∧ (op = 16 → exec (.permute inst) s = .next (s.after t)) ∧ (op = 17 → exec (.gather inst) s = .next (s.after t)) ∧
    (op = 18 → exec (.scatter inst) s = .next (s.after t)) ∧ (op = 19 → exec (.fill inst) s = .next (s.after t)) ∧
    (op = 10 → exec (.layoutEnd inst) s = .next (s.after (s.begin.progEnd cx)))) ∧
  (∀ (s : State) (inst : Fin 2) (op : Nat) (cx : CmdCtx), s.awake = true → s.begin.cmdCtx Cls.LAYOUT inst 0 = some cx → cx.c.op = op →
    cx.layFaults cx.c.layUses (s.begin.refSet cx cx.c.layUses) = [] → RefRes.wait ∈ (s.begin.refSet cx cx.c.layUses).all →
    (∀ x ∈ (s.begin.refSet cx cx.c.layUses).all, ∀ st, x ≠ .status st) →
    (op = 8 → exec (.layoutCopy inst) s = .next (s.after s.begin)) ∧ (op = 16 → exec (.permute inst) s = .next (s.after s.begin)) ∧ (op = 17 → exec (.gather inst) s = .next (s.after s.begin)) ∧
    (op = 18 → exec (.scatter inst) s = .next (s.after s.begin)) ∧ (op = 19 → exec (.fill inst) s = .next (s.after s.begin))) ∧
  (∀ (s : State) (inst : Fin 2) (op : Nat) (cx : CmdCtx) (why : Nat) (l : List Nat), s.awake = true →
    s.begin.cmdCtx Cls.LAYOUT inst 0 = some cx → cx.c.op = op →
    cx.layFaults cx.c.layUses (s.begin.refSet cx cx.c.layUses) = why :: l →
    (∀ x ∈ (s.begin.refSet cx cx.c.layUses).all, ∀ st, x ≠ .status st) →
    let t := s.begin.badCommand cx why
    (op = 8 → exec (.layoutCopy inst) s = .next (s.after t)) ∧ (op = 16 → exec (.permute inst) s = .next (s.after t)) ∧ (op = 17 → exec (.gather inst) s = .next (s.after t)) ∧
    (op = 18 → exec (.scatter inst) s = .next (s.after t)) ∧ (op = 19 → exec (.fill inst) s = .next (s.after t))) ∧
  (∀ (s : State) (inst : Fin 2), s.awake = true → s.begin.cmdCtx Cls.LAYOUT inst 0 = none →
    exec (.layoutCopy inst) s = .next (s.after s.begin) ∧ exec (.permute inst) s = .next (s.after s.begin) ∧
    exec (.gather inst) s = .next (s.after s.begin) ∧ exec (.scatter inst) s = .next (s.after s.begin) ∧
    exec (.fill inst) s = .next (s.after s.begin) ∧ exec (.layoutEnd inst) s = .next (s.after s.begin))

/-- CMDRING_DOORBELL in a state that takes no requests (neither LOADED nor active) is counted and answers BAD_STATE; otherwise, a producer
index below the ring's size is taken, and one outside it, or with the ring disabled, is an ignored write. CMDRING_ENTRY_READ with an entry
there, the state right and fewer than 256 requests waiting reads 64 bytes at the consumer index and advances it; an entry that its
judgement turns away is recorded with its status, one that passes waits as the quay's newest request; with the ring empty nothing changes.
NEURAL_REQUEST_DISPATCH in an active quay that is not replaying takes the first waiting request whose stage's window is open: with no
voyage free it completes with BUSY, with no room with NO_ROOM, and otherwise it is dispatched on the first free voyage; in a quay that is
not active nothing changes. -/
def Obligations.CommandRingsAndNeuralDispatch : Prop :=
  (∀ (s : State) (q : Fin 4) (v : Word), s.awake = true →
    let k := s.ringK (Reg.HM_CMDRING_BASE_HI q)
    (s.quays[q].st.takesRequests = false →
      exec (.cmdringDoorbell q v) s = .next (s.after ((s.begin.bump (Reg.HM_CMDRING_BAD_STATE_COUNT q)).answer St.BAD_STATE))) ∧
    (s.quays[q].st.takesRequests = true → (k = 0 ∨ 2 ^ k ≤ fld v 11 0) →
      exec (.cmdringDoorbell q v) s = .next (s.after ((s.begin.ignoredWrite (Reg.HM_CMDRING_PRODUCER q)).answer St.OK))) ∧
    (s.quays[q].st.takesRequests = true → k ≠ 0 → fld v 11 0 < 2 ^ k →
      exec (.cmdringDoorbell q v) s = .next (s.after ((s.begin.put (Reg.HM_CMDRING_PRODUCER q) (fld v 11 0)).answer St.OK)))) ∧
  (∀ (s : State) (q : Fin 4), s.awake = true →
    let k := s.ringK (Reg.HM_CMDRING_BASE_HI q)
    let c := fld (s.reg (Reg.HM_CMDRING_CONSUMER q)) 11 0
    k ≠ 0 → s.quays[q].st.takesRequests = true → s.quays[q].waitingRequests.length < 256 →
    (fld (s.reg (Reg.HM_CMDRING_PRODUCER q)) 11 0 = c → exec (.cmdringEntryRead q) s = .next (s.after s.begin)) ∧
    (fld (s.reg (Reg.HM_CMDRING_PRODUCER q)) 11 0 ≠ c →
      let b := s.begin.bytesAt (s.ringBase (Reg.HM_CMDRING_BASE_LO q) + 64 * c) 64
      let u := s.begin.put (Reg.HM_CMDRING_CONSUMER q) ((c + 1) % 2 ^ k)
      (∀ st, u.judgeEntryCmd q b = some st → exec (.cmdringEntryRead q) s = .next (s.after (u.requestRecord q (entryRequest b) st))) ∧
      (u.judgeEntryCmd q b = none → exec (.cmdringEntryRead q) s = .next (s.after
        (u.modQuay q (fun x => { x with requests := x.requests ++ [entryRequest b] })))))) ∧
  (∀ (s : State) (q : Fin 4) (placed : Bool) (r : Request) (i : Nat) (n : FrameNo), s.awake = true → s.quays[q].st.active = true →
    s.salv[q].phase ≠ .replaying →
    s.quays[q].waitingRequests.findSome? (fun r => (s.begin.requestStage q r.stage).bind (fun i =>
      (s.quays[q].openFor i).map (fun f => (r, i, f.num)))) = some (r, i, n) →
    (s.begin.freeVoyages q = [] → exec (.neuralRequestDispatch q placed) s = .next (s.after (s.begin.completeRequest q r St.BUSY))) ∧
    (∀ v l, s.begin.freeVoyages q = v :: l →
      (placed = false → exec (.neuralRequestDispatch q placed) s = .next (s.after (s.begin.completeRequest q r St.NO_ROOM))) ∧
      (placed = true → exec (.neuralRequestDispatch q placed) s = .next (s.after
        ((s.begin.runRequest q n i (some r) { r with voyage := some v, frame := n, dispatchedAt := s.time.now }).settlePiloted q))))) ∧
  (∀ (s : State) (q : Fin 4) (placed : Bool), s.awake = true → s.quays[q].st.active = false →
    exec (.neuralRequestDispatch q placed) s = .next (s.after s.begin))

/-- On a free channel. START in IDLE or HALTED whose check fails answers REFUSED in cmd_status and changes nothing else; one whose check
passes arms the channel from its programming registers, and a software source begins its first block at once; START in any other state is
BAD_STATE, counted. PAUSE: ARMED becomes PAUSED; RUNNING becomes PAUSING and keeps only the lines whose data have been read; any other
state is BAD_STATE. RESUME: PAUSED goes on from the first byte not yet written if a block was cut, and otherwise is ARMED again; HALTED
goes on; others BAD_STATE. ABORT: IDLE and ABORTING are BAD_STATE; ARMED, PAUSED and HALTED end at once, IDLE with ABORTED; RUNNING,
PAUSING and HALTING stop issuing and become ABORTING. On a channel that a quay holds each command is an ignored write, counted.
TENDER_HALT_DRAINED, PAUSE_DRAINED and ABORT_DRAINED end the halt, pause and abort of a channel once no line is left, and do nothing while
one is. -/
def Obligations.TenderCommandsFollowTheStateTable : Prop :=
  (∀ (s : State) (n : Fin 32), s.awake = true → s.chanOwner n = none →
    let st := (s.chan n).st
    let cfg := s.chanCfg n
    let src := s.addr48 (Reg.TENDER_CH_SRC_LO n)
    let dst := s.addr48 (Reg.TENDER_CH_DST_LO n)
    let count := (s.reg (Reg.TENDER_CH_COUNT n)).toNat
    let bad := Host.Outcome.next (s.after (s.begin.chanBadState n))
    (st = .idle ∨ st = .halted → cfg.ok n src dst count false = false → exec (.tenderStart n) s = .next (s.after
      ((s.begin.modChan n (fun t => { t with cmdStatus := St.REFUSED })).answer St.REFUSED))) ∧
    (st = .idle ∨ st = .halted → cfg.ok n src dst count false = true → exec (.tenderStart n) s = .next (s.after
      ((s.begin.modChan n (fun t => (t.arm cfg src dst count none).followOn cfg)).chanOk n))) ∧
    (st ≠ .idle → st ≠ .halted → exec (.tenderStart n) s = bad) ∧
    (st = .armed → exec (.tenderPause n) s = .next (s.after ((s.begin.modChan n (fun t => { t with st := .paused, cut := false })).chanOk n))) ∧
    (st = .running → exec (.tenderPause n) s = .next (s.after
      ((s.begin.modChan n (fun t => { t with st := .pausing, lines := t.readLines })).chanOk n))) ∧
    (st ≠ .armed → st ≠ .running → exec (.tenderPause n) s = bad) ∧
    (st = .paused → exec (.tenderResume n) s = .next (s.after ((s.begin.modChan n (fun t => if t.cut then t.continue cfg
      else ({ t with st := .armed } : TChan).followOn cfg)).chanOk n))) ∧
    (st = .halted → exec (.tenderResume n) s = .next (s.after ((s.begin.modChan n (fun t => t.continue cfg)).chanOk n))) ∧
    (st ≠ .paused → st ≠ .halted → exec (.tenderResume n) s = bad) ∧
    (st = .idle ∨ st = .aborting → exec (.tenderAbort n) s = bad) ∧
    (st = .armed ∨ st = .paused ∨ st = .halted → exec (.tenderAbort n) s = .next (s.after ((s.begin.chanAborted n).chanOk n))) ∧
    (st = .running ∨ st = .pausing ∨ st = .halting → exec (.tenderAbort n) s = .next (s.after
      ((s.begin.modChan n (fun t => { t with st := .aborting, lines := t.flying })).chanOk n)))) ∧
  (∀ (s : State) (n : Fin 32) (q : Fin 4), s.awake = true → s.chanOwner n = some q →
    let t := Host.Outcome.next (s.after ((s.begin.ignoredWrite (Reg.TENDER_CH_CMD n)).answer St.OK))
    exec (.tenderStart n) s = t ∧ exec (.tenderPause n) s = t ∧ exec (.tenderResume n) s = t ∧ exec (.tenderAbort n) s = t) ∧
  (∀ (s : State) (n : Fin 32), s.awake = true → (s.chan n).lines = [] →
    ((s.chan n).st = .halting → (s.chan n).tag = none → exec (.tenderHaltDrained n) s = .next (s.after
      ((s.begin.modChan n (fun t => { t with st := .halted, lastStatus := (s.chan n).haltCode, tag := none, trig := t.trig })).setEvent
        (Reg.TENDER_CH_EVENT n) 2))) ∧
    ((s.chan n).st = .pausing → exec (.pauseDrained n) s = .next (s.after (s.begin.modChan n (fun t => { t with
      st := .paused, early := [], cut := decide ((s.chan n).written < (s.chan n).blockEnd ∨ (s.chan n).written = (s.chan n).count) })))) ∧
    ((s.chan n).st = .aborting → exec (.abortDrained n) s = .next (s.after (s.begin.chanAborted n)))) ∧
  (∀ (s : State) (n : Fin 32), s.awake = true → (s.chan n).lines ≠ [] →
    exec (.tenderHaltDrained n) s = .next (s.after s.begin) ∧ exec (.pauseDrained n) s = .next (s.after s.begin) ∧
    exec (.abortDrained n) s = .next (s.after s.begin))

/-- TENDER_TIMER_FIRE of an enabled timer whose next firing has come records it and triggers every channel that selects that timer; before it,
or disabled, nothing changes. PERIPHERAL_REQUEST triggers every ARMED channel that selects the line. CHAIN_TRIGGER uses up one completion
pulse of its source and triggers the channels that chain on it; with no pulse nothing changes. A trigger begins the next block of an ARMED
channel, is held by a RUNNING, PAUSING or PAUSED one that holds none, and is otherwise lost and counted. TENDER_WRITE_RESPONSE to a line
that is not outstanding changes nothing; a read response to a line without data is judged by lineRead and a write response to one with
data by lineWrite. TENDER_RETRY of a line that waits reissues it and counts. TRANSFER_COMPLETE of a RUNNING free channel whose lines are
all written, the stored check included, counts, sets its event, and ends or re-arms the channel; while a line is left it changes nothing. -/
def Obligations.TenderTriggersAndTransfers : Prop :=
  (∀ (s : State) (t : Fin 8), s.awake = true →
    let period := fld (s.reg (Reg.TENDER_TIMER_PERIOD t)) 19 0
    let due := nextFiring period (fld (s.reg (Reg.TENDER_TIMER_CTRL t)) 20 1) (s.timers.getD t 0)
    (flag (s.reg (Reg.TENDER_TIMER_CTRL t)) 0 = true → period ≠ 0 → due ≤ s.time.now → exec (.tenderTimerFire t) s = .next (s.after
      (({ s.begin with timers := setAt s.timers t due } : State).triggerAll (fun cfg _ => decide (cfg.trig = 1 ∧ cfg.index = t))))) ∧
    (flag (s.reg (Reg.TENDER_TIMER_CTRL t)) 0 = false ∨ s.time.now < due → exec (.tenderTimerFire t) s = .next (s.after s.begin))) ∧
  (∀ (s : State) (i : Fin 16), s.awake = true → exec (.peripheralRequest i) s = .next (s.after
    (s.begin.triggerAll (fun cfg t => decide (cfg.trig = 3 ∧ cfg.index = i.val) && decide (t.st = .armed))))) ∧
  (∀ (s : State) (m : Fin 32), s.awake = true →
    ((s.chan m).pulses = 0 → exec (.chainTrigger m) s = .next (s.after s.begin)) ∧
    ((s.chan m).pulses ≠ 0 → exec (.chainTrigger m) s = .next (s.after
      ((s.begin.modChan m (fun t => { t with pulses := t.pulses - 1 })).triggerAll (fun cfg _ => decide (cfg.trig = 2 ∧ cfg.index = m)))))) ∧
  (∀ (s : State) (n : Nat),
    ((s.chan n).st = .armed → s.trigger n = s.modChan n (TChan.block (s.chanCfg n))) ∧
    ((s.chan n).st = .running ∨ (s.chan n).st = .pausing ∨ (s.chan n).st = .paused →
      ((s.chan n).trig = false → s.trigger n = s.modChan n (fun t => { t with trig := true })) ∧
      ((s.chan n).trig = true → s.trigger n = s.trigLost n)) ∧
    ((s.chan n).st = .idle ∨ (s.chan n).st = .halted → s.trigger n = s.trigLost n)) ∧
  (∀ (s : State) (n : Fin 32) (off : Nat) (wr : Bool) (st : Status) (bs : List Byte), s.awake = true →
    ((s.chan n).lines.find? (fun l => l.off = off) = none → exec (.tenderWriteResponse n off wr st bs) s = .next (s.after s.begin)) ∧
    (∀ l, (s.chan n).lines.find? (fun l => l.off = off) = some l → (s.chan n).st.moving = true → l.waiting = false →
      (l.data = none → exec (.tenderWriteResponse n off false st bs) s = .next (s.after { (s.begin.lineRead n l st bs) with reply := none })) ∧
      (∀ d p, l.data = some (d, p) → exec (.tenderWriteResponse n off true st bs) s = .next (s.after { (s.begin.lineWrite n l d p st) with reply := none })))) ∧
  (∀ (s : State) (n : Fin 32) (off : Nat), s.awake = true → (s.chan n).st.moving = true →
    (s.chan n).lines.any (fun l => decide (l.off = off) && l.waiting) = true →
    exec (.tenderRetry n off) s = .next (s.after
      ((s.begin.modChan n (fun t => { t with lines := t.lines.map (fun k => if k.off = off then { k with waiting := false } else k) })).bump
        (Reg.TENDER_CH_RETRY_COUNT n)))) ∧
  (∀ (s : State) (n : Fin 32), s.awake = true →
    ((s.chan n).st = .running → (s.chan n).lines = [] → (s.chan n).count ≤ (s.chan n).written →
      ((s.chanCfg n).store = true → (s.chan n).stored = true) → (s.chan n).tag = none →
      exec (.transferComplete n) s = .next (s.after
        (((s.begin.modChan n (TChan.completed (s.chanCfg n))).wrapBy (Reg.TENDER_CH_DONE_COUNT n) 1).setEvent (Reg.TENDER_CH_EVENT n)
          (1 + bitAt (s.chan n).poison 2)))) ∧
    ((s.chan n).lines ≠ [] → exec (.transferComplete n) s = .next (s.after s.begin)))

/-- A frame on a port that is down or of another type brings no message and changes nothing; a bad frame check counts at the port. Whatever
the checks of a message's type make of the state stands when it brings no message (ACK, BIND, BIND_ACK, READ, READ_RESP, WRITE, WRITE_ACK,
SIGNAL, SIGNAL_ACK, STREAM, STREAM_DATA, STREAM_END). When one is taken: ACK with gap sends the port's lanes again; BIND is answered with
a BIND_ACK, FENCED for no quay and for one EMPTY, RESETTING or FAULTED; requests go to the target's side; answers find their request by
tide, tag and kind, are stale or late and counted where they find none, and otherwise note progress and are applied (a binding set, lines
delivered, segments held, the status given). A HELLO of this fleet from another node, sent to this node alone, marks its port, updates the
peer and lets its lanes go on; one of another fleet is counted. OTHER_ETHERTYPE_FRAME is counted on a fleet port that is up, and on
ETH_MGMT where it is an Onnak frame. -/
def Obligations.OnnakMessagesAreJudgedAndApplied : Prop :=
  (∀ (s : State) (ty p : Nat) (frame : List Byte) (fcs : Bool),
    (s.onnakUp p = false ∨ (etherBody frame).1 ≠ 0x88B5 → s.arrival ty p frame fcs = (s, none)) ∧
    (s.onnakUp p = true → (etherBody frame).1 = 0x88B5 → fcs = false →
      s.arrival ty p frame fcs = (s.bump (Reg.ONNAK_PORT_FCS_COUNT p), none))) ∧
  (∀ (s u : State) (p : Fin 4) (f : List Byte) (fcs : Bool), s.awake = true →
    (s.begin.arrival Msg.ACK p f fcs = (u, none) → exec (.ack p f fcs) s = .next (s.after u)) ∧
    (s.begin.arrival Msg.BIND p f fcs = (u, none) → exec (.bind p f fcs) s = .next (s.after u)) ∧
    (s.begin.arrival Msg.BIND_ACK p f fcs = (u, none) → exec (.bindAck p f fcs) s = .next (s.after u)) ∧
    (s.begin.arrival Msg.READ p f fcs = (u, none) → exec (.read p f fcs) s = .next (s.after u)) ∧
    (s.begin.arrival Msg.READ_RESP p f fcs = (u, none) → exec (.readResp p f fcs) s = .next (s.after u)) ∧
    (s.begin.arrival Msg.WRITE p f fcs = (u, none) → exec (.write p f fcs) s = .next (s.after u)) ∧
    (s.begin.arrival Msg.WRITE_ACK p f fcs = (u, none) → exec (.writeAck p f fcs) s = .next (s.after u)) ∧
    (s.begin.arrival Msg.SIGNAL p f fcs = (u, none) → exec (.signal p f fcs) s = .next (s.after u)) ∧
    (s.begin.arrival Msg.SIGNAL_ACK p f fcs = (u, none) → exec (.signalAck p f fcs) s = .next (s.after u)) ∧
    (s.begin.arrival Msg.STREAM p f fcs = (u, none) → exec (.stream p f fcs) s = .next (s.after u)) ∧
    (s.begin.arrival Msg.STREAM_DATA p f fcs = (u, none) → exec (.streamData p f fcs) s = .next (s.after u)) ∧
    (s.begin.arrival Msg.STREAM_END p f fcs = (u, none) → exec (.streamEnd p f fcs) s = .next (s.after u))) ∧
  (∀ (s u : State) (p : Fin 4) (f : List Byte) (fcs : Bool) (n : Nat) (h : OHdr) (b : List Byte), s.awake = true →
    (s.begin.arrival Msg.ACK p f fcs = (u, some (n, h, b)) →
      exec (.ack p f fcs) s = .next (s.after (if bitOf h.flags 0 then u.resendPort n p else u))) ∧
    (s.begin.arrival Msg.BIND p f fcs = (u, some (n, h, b)) →
      (quayOf? h.dstQuay = none → exec (.bind p f fcs) s = .next (s.after (u.fleetAnswer n h Msg.BIND_ACK St.FENCED (natLE 32 0) 0))) ∧
      (∀ q, quayOf? h.dstQuay = some q →
        exec (.bind p f fcs) s = .next (s.after (u.fleetAnswer n h Msg.BIND_ACK (u.bindStatus n h b q) (u.bindMine n q) 0)))) ∧
    (s.begin.arrival Msg.READ p f fcs = (u, some (n, h, b)) → exec (.read p f fcs) s = .next (s.after (u.fleetRequest n p h b))) ∧
    (s.begin.arrival Msg.WRITE p f fcs = (u, some (n, h, b)) → exec (.write p f fcs) s = .next (s.after (u.fleetRequest n p h b))) ∧
    (s.begin.arrival Msg.SIGNAL p f fcs = (u, some (n, h, b)) → exec (.signal p f fcs) s = .next (s.after (u.fleetRequest n p h b))) ∧
    (s.begin.arrival Msg.STREAM p f fcs = (u, some (n, h, b)) → exec (.stream p f fcs) s = .next (s.after (u.fleetRequest n p h b)))) ∧
  (∀ (u : State) (n : Nat) (h : OHdr) (b : List Byte) (q : Fin 4),
    u.quays[q].st = .empty ∨ u.quays[q].st = .faulted ∨ u.quays[q].st = .resetting → u.bindStatus n h b q = St.FENCED) ∧
  (∀ (s u : State) (p : Fin 4) (f : List Byte) (fcs : Bool) (n : Nat) (h : OHdr) (b : List Byte) (q : Fin 4), s.awake = true →
    quayOf? h.srcQuay = some q → u.quays[q].tide.toNat = h.srcTide →
    let sought := fun (k : FleetKind) (r : FleetReq) => r.peer = n && r.tag = h.tag && r.quay = q.val && [k].elem r.kind
    (s.begin.arrival Msg.BIND_ACK p f fcs = (u, some (n, h, b)) → ∀ r, u.onnak.reqs.find? (sought .bind) = some r →
      exec (.bindAck p f fcs) s = .next (s.after ((u.progress q).bindAnswered n h b q r).settleAllDraining)) ∧
    (s.begin.arrival Msg.READ_RESP p f fcs = (u, some (n, h, b)) → ∀ r, u.onnak.reqs.find? (sought .read) = some r →
      exec (.readResp p f fcs) s = .next (s.after ((u.progress q).readAnswered n h b q r).settleAllDraining)) ∧
    (s.begin.arrival Msg.WRITE_ACK p f fcs = (u, some (n, h, b)) → ∀ r, u.onnak.reqs.find? (sought .write) = some r →
      exec (.writeAck p f fcs) s = .next (s.after ((u.progress q).answerStatus q n r (BitVec.ofNat 8 h.status)).settleAllDraining)) ∧
    (s.begin.arrival Msg.SIGNAL_ACK p f fcs = (u, some (n, h, b)) → ∀ r, u.onnak.reqs.find? (sought .signal) = some r →
      exec (.signalAck p f fcs) s = .next (s.after ((u.progress q).answerStatus q n r (BitVec.ofNat 8 h.status)).settleAllDraining)) ∧
    (s.begin.arrival Msg.STREAM_DATA p f fcs = (u, some (n, h, b)) → ∀ r, u.onnak.reqs.find? (sought .stream) = some r →
      exec (.streamData p f fcs) s = .next (s.after ((u.progress q).streamHeld n h b q r).settleAllDraining)) ∧
    (s.begin.arrival Msg.STREAM_END p f fcs = (u, some (n, h, b)) → ∀ r, u.onnak.reqs.find? (sought .stream) = some r →
      exec (.streamEnd p f fcs) s = .next (s.after ((u.progress q).streamEnded h q n r).settleAllDraining)) ∧
    (s.begin.arrival Msg.READ_RESP p f fcs = (u, some (n, h, b)) → u.onnak.reqs.find? (sought .read) = none →
      exec (.readResp p f fcs) s = .next (s.after
        ((u.bump (Reg.HM_QUAY_STALE_DROP_COUNT q)).bump (Reg.ONNAK_PEER_LATE_ANSWER_COUNT n))))) ∧
  (∀ (s : State) (p : Fin 4) (f : List Byte), s.awake = true → s.onnakUp p = true →
    let body := (etherBody f).2
    let h := OHdr.ofBytes (body.take 64)
    let r := body.drop 64
    let n := leAt r 10 1
    (etherBody f).1 = 0x88B5 → 128 = body.length → h.length = 64 → h.type = Msg.HELLO → n < 8 → h.version = 0x10 →
    (leAt r 6 4 ≠ (s.reg Reg.ONNAK_FLEET_ID).toNat → exec (.hello p f true) s = .next (s.after (s.begin.bump (Reg.ONNAK_PEER_BAD_FRAME_COUNT n)))) ∧
    (leAt r 6 4 = (s.reg Reg.ONNAK_FLEET_ID).toNat → f.take 6 ≠ s.begin.helloMac → n ≠ s.begin.nodeId →
      exec (.hello p f true) s = .next (s.after ((List.range 6).foldl (fun (s : State) l => s.pump n l)
        (({ s.begin with onnak := { s.onnak with
          ports := modAt s.onnak.ports p (fun x => { x with helloed := true }) } } : State).helloFrom p n r true).settleAllDraining)))) ∧
  (∀ (s : State) (p : Fin 5) (f : List Byte), s.awake = true →
    (p.val < 4 → (s.port p).up = true → (etherBody f).1 ≠ 0x88B5 → (etherBody f).1 ≠ 0x88F7 →
      exec (.otherEthertypeFrame p f) s = .next (s.after (s.begin.bump (Reg.ONNAK_PORT_OTHER_COUNT p)))) ∧
    (p.val < 4 → (s.port p).up = false → exec (.otherEthertypeFrame p f) s = .next (s.after s.begin)) ∧
    (p = 4 → s.eth.up = true → (etherBody f).1 = 0x88B5 →
      exec (.otherEthertypeFrame p f) s = .next (s.after (s.begin.bump Reg.ETH_MGMT_DROP_COUNT))))

/-- HELLO_TIMER 10 ms after the last, with Onnak enabled, sends HELLO on every port that is up. KEEPALIVE_ACK after 20 us with nothing sent to
an UP peer, and ACK_TIMER 2 us after a receipt left unacknowledged, send ACK frames on the lane's port. RTO_EXPIRY sends a lane's
unacknowledged frames again. PEER_TIMEOUT of an UP peer that has been silent for its limit loses it. BIND_RETRY of an active quay sends
BIND again after the binding's time-out. REQUEST_DEADLINE ends a request with TIMEOUT. WRITE_PACK_TIMEOUT sends a partly filled WRITE
after 64 cycles. Each, before its time, changes nothing. LINK_UP of an enabled port that is down marks it up with no HELLO yet exchanged;
of a port that is up or disabled it changes nothing. LINK_DOWN of a port that is up that had exchanged no HELLO marks it down, forgets
which peers were heard on it, counts, sets its event and moves the lanes of UP peers; of a port that is down it changes nothing. -/
def Obligations.OnnakTimersAndLinks : Prop :=
  (∀ (s : State), s.awake = true →
    (flag (s.reg Reg.ONNAK_CTRL) 0 = true → s.onnak.helloAt + 10000000 ≤ s.time.now → exec .helloTimer s = .next (s.after
      (((List.range 4).filter (fun p => (s.port p).up)).foldl (fun (s : State) p => s.sendHello p)
        { s.begin with onnak := { s.onnak with helloAt := s.time.now } }))) ∧
    (flag (s.reg Reg.ONNAK_CTRL) 0 = false ∨ s.time.now < s.onnak.helloAt + 10000000 → exec .helloTimer s = .next (s.after s.begin))) ∧
  (∀ (s : State) (n : Fin 8) (p : Nat), s.awake = true → (s.peer n).st = .up →
    (s.lanePort n 0 = some p → (s.peer n).lastTx + 20000 ≤ s.time.now →
      exec (.keepaliveAck n) s = .next (s.after (s.begin.sendAck n p false))) ∧
    (s.time.now < (s.peer n).lastTx + 20000 → exec (.keepaliveAck n) s = .next (s.after s.begin)) ∧
    (∀ e, (s.peer n).ackDue = [(0, e)] → s.lanePort n 1 = some p → e + 2000 ≤ s.time.now →
      exec (.ackTimer n) s = .next (s.after (s.begin.sendAck n p false))) ∧
    ((∀ e ∈ (s.peer n).ackDue, s.time.now < e.2 + 2000) → exec (.ackTimer n) s = .next (s.after s.begin))) ∧
  (∀ (s : State) (n : Fin 8) (l : Fin 6), s.awake = true →
    let t := (s.peer n).tx.getD l LaneTx.idle
    let rto := fld (s.reg Reg.ONNAK_RTO) 9 0 * 1000
    ((s.peer n).st = .up → t.unacked ≠ [] → t.since + rto ≤ s.time.now → exec (.rtoExpiry n l) s = .next (s.after (s.begin.resend n l))) ∧
    ((s.peer n).st ≠ .up ∨ t.unacked = [] ∨ s.time.now < t.since + rto → exec (.rtoExpiry n l) s = .next (s.after s.begin))) ∧
  (∀ (s : State) (n : Fin 8), s.awake = true →
    let limit := fld (s.reg Reg.ONNAK_PEER_TIMEOUT) 16 0 * 1000
    ((s.peer n).st = .up → (s.peer n).lastRx + limit ≤ s.time.now →
      exec (.peerTimeout n) s = .next (s.after (s.begin.losePeer n).settleAllDraining)) ∧
    ((s.peer n).st ≠ .up → exec (.peerTimeout n) s = .next (s.after s.begin)) ∧
    (s.time.now < (s.peer n).lastRx + limit → (∀ t ∈ (s.peer n).tx, t.unacked = []) → exec (.peerTimeout n) s = .next (s.after s.begin))) ∧
  (∀ (s : State) (q : Fin 4) (n : Fin 8) (f : FleetE), s.awake = true → s.quays[q].fleetE n = some f →
    (s.quays[q].st.active = true → (s.binding q n).st ≠ .bound → (s.binding q n).sentAt + f.timeoutNs ≤ s.time.now → (s.peer n).st = .up →
      exec (.bindRetry q n) s = .next (s.after (s.begin.sendBind q n))) ∧
    (s.quays[q].st.active = false ∨ (s.binding q n).st = .bound ∨ s.time.now < (s.binding q n).sentAt + f.timeoutNs →
      exec (.bindRetry q n) s = .next (s.after s.begin))) ∧
  (∀ (s : State) (n : Fin 8) (tag : Nat) (r : FleetReq), s.awake = true →
    s.onnak.reqs.find? (fun r => r.peer = n.val && r.tag = tag) = some r →
    (r.deadline ≤ s.time.now → exec (.requestDeadline n tag) s = .next (s.after (s.begin.endRequest r St.TIMEOUT).settleAllDraining)) ∧
    (s.time.now < r.deadline → exec (.requestDeadline n tag) s = .next (s.after s.begin))) ∧
  (∀ (s : State) (i : Nat), s.awake = true →
    (∀ w, s.onnak.packs[i]? = some w →
      (64 ≤ s.begin.cyclesSince 0 w.since → exec (.writePackTimeout i) s = .next (s.after (s.begin.sendPack w))) ∧
      (s.begin.cyclesSince 0 w.since < 64 → exec (.writePackTimeout i) s = .next (s.after s.begin))) ∧
    (s.onnak.packs[i]? = none → exec (.writePackTimeout i) s = .next (s.after s.begin))) ∧
  (∀ (s : State) (p : Fin 4), s.awake = true →
    ((s.port p).up = false → flag (s.reg (Reg.ONNAK_PORT_CTRL p)) 0 = true → flag (s.reg Reg.PMC_SERVICE_ACTIVE) 4 = false →
      let u : State := { s.begin with onnak := { s.onnak with ports := setAt s.onnak.ports p ⟨true, true, false⟩ } }
      exec (.linkUp p) s = .next (s.after (if flag (s.reg Reg.ONNAK_CTRL) 0 then u.sendHello p else u))) ∧
    ((s.port p).up = true ∨ flag (s.reg (Reg.ONNAK_PORT_CTRL p)) 0 = false → exec (.linkUp p) s = .next (s.after s.begin))) ∧
  (∀ (s : State) (p : Fin 4), s.awake = true →
    ((s.port p).up = true → (s.port p).helloed = false →
      let before := (List.range 8).map (fun n => [s.begin.lanePort n 0, s.begin.lanePort n 1])
      let u : State := { s.begin with onnak := { s.onnak with
        ports := modAt s.onnak.ports p (fun x => { x with up := false, fecLocked := false })
        peers := s.onnak.peers.map (fun (x : Peer) => { x with heard := x.heard.filter (fun e => decide (e ≠ p.val)) }) } }
      exec (.linkDown p) s = .next (s.after ((List.range 8).foldl (fun (s : State) n => if (s.peer n).st = .up then s.moveLanes n p
        (before.getD n []) else s) ((u.bump (Reg.ONNAK_PORT_DOWN_COUNT p)).setEvent Reg.ONNAK_EVENT 2)))) ∧
    ((s.port p).up = false → exec (.linkDown p) s = .next (s.after s.begin)))

/-- DECISION takes the oldest fault signal and decides it; with none it changes nothing. AGE_TICK advances every age counter of quay 0's
chart, each raising AGE when it first exceeds its limit; without a chart it changes nothing. DESCRIPTOR_CHECK checks the oldest mirrored
publish point; a clean one in the safe state with no self-fault leaves the safe state, releases SAFE_N and sends a NOTICE, any other
changes nothing more. NOTICE_TIMER in the safe state sends a NOTICE when its period is over. CG_RELEASE by Coastguard is BAD_STATE and
counted while it is barred (quay 0 not RUNNING, a self-fault, or a fenced engine of quay 0), and otherwise clears the latched causes, with
a NOTICE where the causes change. CG_SW_REQUEST signals SW_REQUEST, and CG_WDT_KICK records its time. Written by another initiator each is
an ignored write. WATCHDOG_EXPIRY with a booted pair and the kick late, and SELF_FAULT, record a self-fault and decide CG_SELF.
LIGHTHOUSE_VERDICT of an entry with no run changes nothing. -/
def Obligations.CoastguardDecidesAndReleases : Prop :=
  (∀ (s : State), s.awake = true →
    (s.cg.signals = [] → exec .decision s = .next (s.after s.begin)) ∧
    (∀ c n rest, s.cg.signals = (c, n) :: rest →
      exec .decision s = .next (s.after (({ s.begin with cg := { s.cg with signals := rest } } : State).decide' c n)))) ∧
  (∀ (s : State), s.awake = true →
    (s.quays[(0 : Fin 4)].chart = none → exec .ageTick s = .next (s.after s.begin)) ∧
    (∀ c, s.quays[(0 : Fin 4)].chart = some c → exec .ageTick s = .next (s.after
      ((enum c.ages).foldl (fun (s : State) a => s.ageStep a.1 a.2.maxAgeUs) s.begin)))) ∧
  (∀ (s : State) (i limit v : Nat), s.cg.ages.getD i none = some v →
    let u : State := { s with cg := { s.cg with ages := setAt s.cg.ages i (some (v + 1)) } }
    (v + 1 ≤ limit / 10 → s.ageStep i limit = u) ∧
    (limit / 10 < v + 1 → i ∉ s.cg.overAge → s.ageStep i limit =
      (({ u with cg := { u.cg with overAge := u.cg.overAge ++ [i] } } : State).bump Reg.CG_AGE_FAULT_COUNT).cgSignal Cause.AGE)) ∧
  (∀ (s : State) (c : Chart) (p : MirrorPub) (rest : List MirrorPub), s.awake = true → s.cg.mirror = p :: rest →
    s.quays[(0 : Fin 4)].chart = some c →
    let u := s.begin.checkPoint c p rest
    (u.pointClean p = true → u.cg.safe = true → u.cg.selfFault = false → exec .descriptorCheck s = .next (s.after
      ((({ u with cg := { u.cg with safe := false } } : State).driveSafe false)).notice)) ∧
    (u.pointClean p = false ∨ u.cg.safe = false ∨ u.cg.selfFault = true → exec .descriptorCheck s = .next (s.after u))) ∧
  (∀ (s : State), s.awake = true →
    let due := s.cg.noticeAt + fld (s.reg Reg.CG_NOTICE_PERIOD) 16 0 * 1000
    (s.cg.safe = true → due ≤ s.time.now → exec .noticeTimer s = .next (s.after s.begin.notice)) ∧
    (s.cg.safe = false ∨ s.time.now < due → exec .noticeTimer s = .next (s.after s.begin))) ∧
  (∀ (s : State) (v : Word), s.awake = true → flag v 0 = true →
    (s.releaseBarred = true → exec (.cgRelease .cg v) s = .next (s.after
      ((({ s.begin with cg := { s.cg with releaseStatus := St.BAD_STATE } } : State).put Reg.CG_RELEASE_STATUS
        (min (fld (s.reg Reg.CG_RELEASE_STATUS) 31 16 + 1) 0xFFFF * 65536)).answer St.BAD_STATE))) ∧
    (s.releaseBarred = false →
      let now := Nat.land s.cg.active (0xFFF - latchedCauses)
      let u : State := { s.begin with cg := { s.cg with active := now, releaseStatus := St.OK } }
      exec (.cgRelease .cg v) s = .next (s.after ((if now = s.cg.active then u else u.notice).answer St.OK)))) ∧
  (∀ (s : State) (v : Word), s.awake = true → flag v 0 = true →
    exec (.cgSwRequest .cg v) s = .next (s.after (s.begin.cgSignal Cause.SW_REQUEST))) ∧
  (∀ (s : State), s.awake = true →
    exec (.cgWdtKick .cg) s = .next (s.after { s.begin with cg := { s.cg with kickedAt := s.time.now } })) ∧
  (∀ (s : State) (ini : Initiator) (v : Word), s.awake = true → ini ≠ .cg →
    exec (.cgRelease ini v) s = .next (s.after (s.begin.ignoredWrite Reg.CG_RELEASE)) ∧
    exec (.cgSwRequest ini v) s = .next (s.after (s.begin.ignoredWrite Reg.CG_SW_REQUEST)) ∧
    exec (.cgWdtKick ini) s = .next (s.after (s.begin.ignoredWrite Reg.CG_WDT_KICK))) ∧
  (∀ (s : State), s.awake = true → s.cg.selfFault = false →
    let due := s.cg.kickedAt + fld (s.reg Reg.CG_WDT_PERIOD) 13 0 * 1000
    (true ∈ s.cg.pairs → due ≤ s.time.now → exec .watchdogExpiry s = .next (s.after
      (({ s.begin with cg := { s.cg with selfFault := true } } : State).decide' Cause.CG_SELF 0#32))) ∧
    (s.time.now < due → exec .watchdogExpiry s = .next (s.after s.begin)) ∧
    (∀ k, k ≠ SelfFault.copies → exec (.selfFault k) s = .next (s.after
      (({ s.begin with cg := { s.cg with selfFault := true } } : State).decide' Cause.CG_SELF 0#32)))) ∧
  (∀ (s : State) (entry : Nat) (st : Status) (lines : List (Nat × Nat × List Byte)) (c : Chart), s.awake = true →
    s.quays[(0 : Fin 4)].chart = some c →
    let instOf := fun (r : LhRun) => let g := c.engineAt ((c.lights.getD r.entry ⟨0, 0, 0, 0, 0⟩).engine); (g.cls, g.inst)
    (s.cg.runs.find? (fun r => r.entry = entry) = none → exec (.lighthouseVerdict entry st lines) s = .next (s.after s.begin)) ∧
    (∀ r j, s.cg.runs.find? (fun r => r.entry = entry) = some r → s.cg.runs.find? (fun x => instOf x = instOf r) = some r →
      st = St.POISON ∨ st = St.TIMEOUT → lhSlot (instOf r).1 (instOf r).2 = some j →
      let u := ({ s.begin with cg := { s.cg with runs := s.cg.runs.erase r } } : State).verdict j r.frame 3
      (u.lh j).fenced = false → exec (.lighthouseVerdict entry st lines) s = .next (s.after u)))

/-- DETECTOR_SAMPLE declares hung every quay with a cycle among its blocked records. NO_PROGRESS declares an active chart's RUNNING or DOCKING
quay hung once a unit has waited for its limit with no progress, and changes nothing with no unit waiting inside. SALVAGE_DECLARE and
SNAPSHOT by Coastguard or the MC in an active quay declare it hung and begin a dump that leaves the quay as it is; in a quay that is not
active they are BAD_STATE, counted, and from another initiator ignored writes. SHADOW_MIRROR of a unit of the quay replaces its shadow; of
another unit it changes nothing. DUMP_UNIT_ANSWER and DUMP_UNIT_TIMEOUT record the next unit of the dump live or from its shadow, and end
the dump with the last; with no dump they change nothing. DUMP_RELEASE clears held. REPLAY_DISPATCH with no suspect left ends the replays,
and one whose stage's window is open is run alone. REPLAY_TIMEOUT before 1 ms, or with no replay, changes nothing; after it the replay is
the culprit and its stage ends with HANG. -/
def Obligations.SalvageDetectsDumpsAndReplays : Prop :=
  (∀ (s : State) (sp : List (Fin 4 × Nat × Nat)), s.awake = true → exec (.detectorSample sp) s = .next (s.after
    (allQuays.foldl (fun (s : State) q =>
      let cycle := waitCycle ((s.waits q ((sp.filter (fun e => e.1 = q)).map (·.2))).filter (fun w => s.isBlocked w))
      if cycle.isEmpty then s else s.declareHung q 1 cycle) s.begin))) ∧
  (∀ (s : State) (q : Fin 4) (sp : List (Nat × Nat)) (c : Chart) (w : WaitRec), s.awake = true → s.quays[q].chart = some c → c.cfg.noProgressUs ≠ 0 →
    (((s.begin.waits q sp).filter (fun w => w.kind ≠ 4)) = [] → exec (.noProgress q sp) s = .next (s.after s.begin)) ∧
    (((s.begin.waits q sp).filter (fun w => w.kind ≠ 4)) = [w] →
      let due := max s.salv[q].progressAt w.since + c.cfg.noProgressUs * 1000
      (s.quays[q].st = .running ∨ s.quays[q].st = .docking → due ≤ s.time.now →
        exec (.noProgress q sp) s = .next (s.after (s.begin.declareHung q 2 []))) ∧
      (s.time.now < due → exec (.noProgress q sp) s = .next (s.after s.begin)))) ∧
  (∀ (s : State) (q : Fin 4) (ini : Initiator), s.awake = true →
    (ini = .cg ∨ ini = .mc → s.quays[q].st.active = true →
      exec (.salvageDeclare q ini) s = .next (s.after ((s.begin.declareHung q 4 []).salvStatus q St.OK)) ∧
      (s.salv[q].dump = none → exec (.snapshot q ini) s = .next (s.after
        (((s.begin.beginDump q 5 [] ((s.quays[q].requests).filter (fun r => r.voyage.isSome)).length).modSalv q
          (fun v => { v with phase := if v.phase = .idle then .dumping else v.phase })).salvStatus q St.OK)))) ∧
    (ini = .cg ∨ ini = .mc → s.quays[q].st.active = false →
      exec (.salvageDeclare q ini) s = .next (s.after (s.begin.salvBadState q)) ∧
      exec (.snapshot q ini) s = .next (s.after (s.begin.salvBadState q))) ∧
    (ini ≠ .cg → ini ≠ .mc →
      exec (.salvageDeclare q ini) s = .next (s.after ((s.begin.ignoredWrite (Reg.SALVAGE_QUAY_CMD q)).answer St.OK)) ∧
      exec (.snapshot q ini) s = .next (s.after ((s.begin.ignoredWrite (Reg.SALVAGE_QUAY_CMD q)).answer St.OK)))) ∧
  (∀ (s : State) (q : Fin 4) (cls inst : Nat), s.awake = true →
    ((s.begin.quayUnits q).elem (cls, inst) = true → exec (.shadowMirror q cls inst) s = .next (s.after
      { s.begin with shadows := s.shadows.filter (fun e => !(decide (e.quay = q.val) && decide (e.unit = (cls, inst)))) ++
        [⟨q, (cls, inst), s.time.now, s.begin.unitRecord q (cls, inst) []⟩] })) ∧
    ((s.begin.quayUnits q).elem (cls, inst) = false → exec (.shadowMirror q cls inst) s = .next (s.after s.begin))) ∧
  (∀ (s : State) (q : Fin 4), s.awake = true → s.salv[q].dump = none →
    exec (.dumpUnitAnswer q) s = .next (s.after s.begin) ∧ exec (.dumpUnitTimeout q) s = .next (s.after s.begin)) ∧
  (∀ (s : State) (q : Fin 4) (d : Dump) (u : UnitId) (rest : List UnitId), s.awake = true → s.salv[q].dump = some d →
    s.begin.ringTaken q d = false → d.todo = u :: rest → d.overtaken = false →
    let ends := fun (t : State) => if rest.isEmpty then t.dumpEnded q else t
    exec (.dumpUnitAnswer q) s = .next (s.after (ends (s.begin.dumpRecord q (s.begin.unitRecord q u d.cycle)))) ∧
    exec (.dumpUnitTimeout q) s = .next (s.after (ends (s.begin.dumpRecord q (s.begin.shadowRecord q u 1 d.cycle))))) ∧
  (∀ (s : State) (q : Fin 4), s.awake = true →
    exec (.dumpRelease q) s = .next (s.after ((s.begin.modSalv q (fun v => { v with held := false })).answer St.OK))) ∧
  (∀ (s : State) (q : Fin 4), s.awake = true → s.salv[q].phase = .replaying → s.salv[q].replay = none → s.quays[q].st.active = true →
    (s.salv[q].suspects = [] → exec (.replayDispatch q) s = .next (s.after (s.begin.modSalv q (fun v => { v with phase := .idle })))) ∧
    (∀ r rest i n, s.salv[q].suspects = r :: rest →
      (s.begin.requestStage q r.stage).bind (fun i => (s.quays[q].openFor i).map (fun f => (i, f.num))) = some (i, n) →
      let r' := { r with frame := n, dispatchedAt := s.time.now }
      exec (.replayDispatch q) s = .next (s.after
        (((s.begin.modSalv q (fun v => { v with suspects := rest, replay := some r', replayAt := s.time.now })).runRequest q n i none
          r').settlePiloted q)))) ∧
  (∀ (s : State) (q : Fin 4), s.awake = true →
    (s.salv[q].replay = none ∨ s.time.now < s.salv[q].replayAt + 1000000 → exec (.replayTimeout q) s = .next (s.after s.begin)) ∧
    (∀ r i, s.salv[q].replay = some r → s.salv[q].replayAt + 1000000 ≤ s.time.now →
      let u := (s.begin.replayEnded q false).culprit q r
      u.requestStage q r.stage = some i →
      exec (.replayTimeout q) s = .next (s.after (((u.stopEngine q r.frame i).finishStage q r.frame i St.HANG).settleRemote q))))

/-- COLD_RESET_RELEASE of a held device without a trip's hold latches the straps; fuses that fail their check halt the ROM with a drawn code,
a recovery strap enters the recovery path, and otherwise the boot goes on from step 4. HBM_TRAINING_DONE of a stack still training records
the result and lets a waiting boot go on, a failed stack retiring its bank groups with a service request. CORE_RELEASE sets bits of
TOP_CORE_RELEASE. In the recovery path ANNOUNCE is sent both ways once a second, DATA at the next offset is stored and acknowledged and at
another answered with the offset expected, and DONE answers the check's code and either boots the received image or listens from its
start; when the ROM does not listen they change nothing. VERIFY, DIGEST, ATTEST, ROLLBACK_ADVANCE, FUSE_PROGRAM and DEBUG_OPEN are
answered BUSY while a mailbox command runs, and otherwise do their work, its status waiting for MAILBOX_COMPLETE, which frees the mailbox,
stores the status and raises source 79. UNLOCK judges its token. -/
def Obligations.BootMailboxAndRecoveryPath : Prop :=
  (∀ (s : State) (src rec sound : Bool) (node : Nat) (medium : List Byte), s.coldHeld = true → s.pmc.tripHold = false →
    let u := ({ s.begin with coldHeld := false } : State).modCustoms (fun c => { c with
      strapSrc := src, strapRecovery := rec, nodeId := node % 8, mediumEmmc := src, medium := medium, lastStep := 1 })
    let go := fun (t : State) => exec (.coldResetRelease src rec node medium sound) s =
      .next { t with time := { t.time with now := s.time.now }, pending := s.pending }
    let v := (u.modCustoms (fun c => { c with fuses := if c.fuses.kill && !c.fuses.opened then { c.fuses with opened := true } else c.fuses
                                              trained := [none, none], lastStep := 3 })).freshNonce
    (sound = false → go (u.draw.2.modCustoms (fun c => { c with phase := .halted, failCode := BitVec.ofNat 8 u.draw.1 }))) ∧
    (sound = true → rec = true → go (v.modCustoms (fun c => { c with
      phase := .recovery, recovery := true, received := [], lastAnnounce := v.time.now }))) ∧
    (sound = true → rec = false → go (v.bootFrom4 true))) ∧
  (∀ (s : State) (k : Fin 2), s.awake = true → s.customs.phase ≠ .held → s.customs.phase ≠ .halted →
    let u := fun (ok : Bool) => s.begin.modCustoms (fun c => { c with trained := setAt c.trained k (some ok) })
    ((s.customs.trained.getD k none) = none →
      exec (.hbmTrainingDone k true) s = .next (s.after (u true).bootResume) ∧
      exec (.hbmTrainingDone k false) s = .next (s.after
        ((List.range 8).foldl (fun s g => s.retireGroup (8 * k + g)) ((u false).service 1)).bootResume)) ∧
    (∀ ok, (s.customs.trained.getD k none).isSome = true → exec (.hbmTrainingDone k ok) s = .next (s.after s.begin))) ∧
  (∀ (s : State) (v : Word), s.awake = true → exec (.coreRelease v) s = .next (s.after
    ((s.begin.setReg Reg.TOP_CORE_RELEASE (s.reg Reg.TOP_CORE_RELEASE ||| (v &&& 0xFFF#32))).answer St.OK))) ∧
  (∀ (s : State), s.awake = true →
    let m := romMsg 1 s.customs.failCode 0 (natLE 4 0x7460 ++ s.customs.fuses.macBytes)
    (s.customs.phase = .recovery → s.customs.lastAnnounce + 1000000000 ≤ s.time.now → exec .announce s = .next (s.after
      (((s.begin.romSend false m).romSend true m).modCustoms (fun c => { c with lastAnnounce := s.time.now })))) ∧
    (s.customs.phase ≠ .recovery ∨ s.time.now < s.customs.lastAnnounce + 1000000000 → exec .announce s = .next (s.after s.begin))) ∧
  (∀ (s : State) (uart : Bool) (off : Nat) (bs : List Byte), s.awake = true →
    let next := s.customs.received.length
    (s.customs.phase = .recovery → bs.length ≤ 1024 →
      (off = next → exec (.data uart off bs) s = .next (s.after
        ((s.begin.modCustoms (fun c => { c with received := c.received ++ bs })).romSend uart (romMsg 3 St.OK off [])))) ∧
      (off ≠ next → exec (.data uart off bs) s = .next (s.after (s.begin.romSend uart (romMsg 3 St.OK next []))))) ∧
    (s.customs.phase ≠ .recovery → exec (.data uart off bs) s = .next (s.after s.begin) ∧ exec (.done uart) s = .next (s.after s.begin)) ∧
    (s.customs.phase = .recovery →
      let code := s.begin.imageCheck s.customs.received
      let u := s.begin.romSend uart (romMsg 3 code next [])
      (code = St.OK → exec (.done uart) s = .next (s.after (u.bootFrom6 s.customs.received (!s.customs.warm)))) ∧
      (code ≠ St.OK → exec (.done uart) s = .next (s.after (u.modCustoms (fun c => { c with received := [], failCode := code })))))) ∧
  (∀ (s : State), s.awake = true → s.customs.mailbox.isSome = true →
    let t := Host.Outcome.next (s.after (s.begin.answer St.BUSY))
    exec .verify s = t ∧ exec .digest s = t ∧ exec .attest s = t ∧ exec .rollbackAdvance s = t ∧ exec .fuseProgram s = t ∧ exec .debugOpen s = t) ∧
  (∀ (s : State), s.awake = true → s.customs.mailbox = none →
    let u := s.begin
    let ends := fun (k : Nat) (t : State) (st : Status) =>
      Host.Outcome.next (s.after ((t.modCustoms (fun c => { c with mailbox := some ⟨k, st⟩ })).answer St.OK))
    exec .verify s = ends 1 u (u.imageCheck (u.devBytes u.mbAddr u.mbLen)) ∧
    exec .digest s = ends 2 (u.devWrite .hm u.mbOut (sha512 (u.devBytes u.mbAddr u.mbLen))).1 St.OK ∧
    exec .attest s = ends 3 u.mbAttest.1 St.OK ∧
    (u.mbArg ≤ s.customs.imageVersion → u.mbArg ≤ 64 → s.customs.fuses.rollback ≤ u.mbArg → exec .rollbackAdvance s = ends 4
      (u.modCustoms (fun c => { c with fuses := { c.fuses with rollback := u.mbArg } })) St.OK) ∧
    (s.customs.imageVersion < u.mbArg ∨ u.mbArg < s.customs.fuses.rollback → exec .rollbackAdvance s = ends 4 u St.REFUSED) ∧
    (u.mbArg = 4 → s.customs.fuses.sigRequired = false → exec .fuseProgram s = ends 5
      (u.modCustoms (fun c => { c with fuses := { c.fuses with sigRequired := true } })) St.OK) ∧
    (u.mbArg = 4 → s.customs.fuses.sigRequired = true → exec .fuseProgram s = ends 5 u St.REFUSED) ∧
    exec .debugOpen s = ends 6 (u.debugToken (u.devBytes u.mbAddr 144)).1 (u.debugToken (u.devBytes u.mbAddr 144)).2 ∧
    exec .mailboxComplete s = .next (s.after u)) ∧
  (∀ (s : State) (m : Mailbox), s.awake = true → s.customs.mailbox = some m → exec .mailboxComplete s = .next (s.after
    (((s.begin.modCustoms (fun c => { c with mailbox := none })).put Reg.CUSTOMS_MB_STATUS m.status.toNat).raiseMsi 79))) ∧
  (∀ (s : State) (tok : List Byte), s.awake = true → exec (.unlock tok) s = .next (s.after
    ((s.begin.debugToken tok).1.answer (s.begin.debugToken tok).2)))

/-- COLD_RESET under 10 us is ignored, and from 10 us resets the device. WARM_RST_N low for 25 or more samples holds the device in warm reset,
and its release ends it unless a trip holds it. TOP_RESET_WARM resets and boots. RAIL_FAULT of rails 12 or 13 is the cold reset of the
rail; of core rails only, a service request and a warm reset; of Coastguard's only, a self-fault; of none, nothing. SENSOR_SAMPLE with all
sensors cool, none hot before and no emergency, records them. EPOCH_BOUNDARY before its millisecond changes nothing, and after it applies
the settings, measures and decides. CLOCK_CHANGE_DONE before 2 us changes nothing, and after it completes the change and every START that
waited. VOUT_COMMAND sends the supply's command, takes it when acknowledged, tries once more and then leaves rail and clock with a service
request. PMB_ALERT leaves the clocks with a service request. TOP_MSI_WRITE stores the vector or is ignored. PCIE_INBOUND reaches system
groups only, and others are an Unsupported Request. -/
def Obligations.ResetsClocksAndSupplies : Prop :=
  (∀ (s : State) (ns : Nat), (ns < 10000 → exec (.coldReset ns) s = .next { s.begin with pending := s.pending }) ∧
    (10000 ≤ ns → exec (.coldReset ns) s = .next { (s.begin.coldReset) with pending := s.pending })) ∧
  (∀ (s : State) (n : Nat), s.coldHeld = false →
    (n < 25 → exec (.warmRstN n) s = .next (s.after s.begin)) ∧
    (25 ≤ n → exec (.warmRstN n) s = .next (s.after
      (({ s.begin with pmc := { s.pmc with rstLow := true } } : State).warmReset true)))) ∧
  (∀ (s : State), s.coldHeld = false →
    let u : State := { s.begin with pmc := { s.pmc with rstLow := false } }
    (s.pmc.tripHold = true → exec .warmRstNRelease s = .next (s.after u)) ∧
    (s.pmc.tripHold = false → exec .warmRstNRelease s = .next (s.after u.warmRelease))) ∧
  (∀ (s : State), s.awake = true → exec .topResetWarm s = .next (s.after ((s.begin.warmReset false).answer St.OK))) ∧
  (∀ (s : State) (rails : List Nat), s.coldHeld = false →
    (12 ∈ rails ∨ 13 ∈ rails → exec (.railFault rails) s = .next { (s.begin.railReset rails) with pending := s.pending }) ∧
    (rails ≠ [] → (∀ r ∈ rails, r ≤ 11) → exec (.railFault rails) s = .next (s.after
      ((({ s.begin with pmc := { s.pmc with railsOut := rails } } : State).service 9).warmReset false))) ∧
    (rails ≠ [] → (∀ r ∈ rails, r = 14 ∨ r = 15) → exec (.railFault rails) s = .next (s.after s.begin.selfFaulted)) ∧
    exec (.railFault []) s = .next (s.after s.begin)) ∧
  (∀ (s : State) (temps : List Int), s.coldHeld = false → s.pmc.tripHold = false → s.pmc.emergency = false → s.pmc.hotStacks = [] →
    (∀ t ∈ temps, t < 95) →
    exec (.sensorSample temps) s = .next (s.after (s.begin.modPmc (fun p => { p with
      temps := (List.range 32).map (fun k => some (temps.getD k 0)), tripOnce := [] })))) ∧
  (∀ (s : State) (m : EpochSample) (o : McOrders), s.awake = true →
    let due := (s.pmc.epochAt / 1000000 + 1) * 1000000
    (s.time.now < due → exec (.epochBoundary m o) s = .next (s.after s.begin)) ∧
    (due ≤ s.time.now →
      let a := ((s.begin.modPmc (fun p => { p with epochAt := s.time.now / 1000000 * 1000000 })).wrapBy Reg.PMC_EPOCH 1).readStacks m.stackTemps
      let b := ((((a.emergencyCheck).applyClocks).applyShares).applyMoves o.moves).put Reg.PMC_POWER_MW m.powerMw
      let c := (List.range 16).foldl (fun (s : State) r => s.put (Reg.PMC_RAIL_MA r) (m.railMa.getD r 0)) b
      exec (.epochBoundary m o) s = .next (s.after ((c.mcChoices o).envelope m.powerMw)))) ∧
  (∀ (s : State), s.awake = true →
    (s.time.now < s.pmc.epochAt + 2000 → exec .clockChangeDone s = .next (s.after s.begin)) ∧
    (s.pmc.epochAt + 2000 ≤ s.time.now → exec .clockChangeDone s = .next (s.after
      (allQuays.foldl (fun (s : State) q => s.startAfterClock q) (s.begin.modPmc (fun p => { p with changing := [none, none] })))))) ∧
  (∀ (s : State) (r : Fin 6), s.awake = true →
    let v := s.begin.railFor r (s.begin.voutMhz r)
    let u := s.begin.emit (.pmbus (0x40 + r) ([0x21#8] ++ natLE 2 (v * 4096 / 10000)))
    exec (.voutCommand r true) s = .next (s.after
      (u.modPmc (fun p => { p with vout := setAt p.vout r v, voutTries := setAt p.voutTries r 0 }))) ∧
    (s.pmc.voutTries.getD r 0 = 0 → exec (.voutCommand r false) s = .next (s.after
      (u.modPmc (fun p => { p with voutTries := setAt p.voutTries r 1 })))) ∧
    (s.pmc.voutTries.getD r 0 ≠ 0 → exec (.voutCommand r false) s = .next (s.after (u.voutFails r)))) ∧
  (∀ (s : State), s.awake = true → exec .pmbAlert s = .next (s.after
    ((s.begin.modPmc (fun p => { p with coreNext := p.core, apuNext := p.apu })).service 9))) ∧
  (∀ (s : State) (v : Fin 256) (x : Word), s.awake = true →
    (12 ≤ fld x 4 1 → exec (.topMsiWrite v x) s = .next (s.after (s.begin.ignoredWrite (Reg.TOP_MSI v)))) ∧
    (fld x 4 1 < 12 → flag x 0 = false → exec (.topMsiWrite v x) s = .next (s.after (s.begin.put (Reg.TOP_MSI v) (fld x 16 0)))) ∧
    (fld x 4 1 < 12 → flag x 0 = true →
      let u := s.begin.put (Reg.TOP_MSI v) (fld x 16 0)
      let a := Reg.TOP_MSI_PENDING (v.val / 32)
      exec (.topMsiWrite v x) s = .next (s.after (if flag (u.reg a) (v.val % 32) then (u.setBits a (v.val % 32) (v.val % 32) 0).sendMsi v else u)))) ∧
  (∀ (s : State) (a n : Nat) (bs : List Byte), s.awake = true →
    (0 < n → s.begin.inSystemGroup a = true → s.begin.inSystemGroup (a + n - 1) = true →
      let d := s.begin.devRead a n
      exec (.pcieInbound (.read a n)) s = .next (s.after (s.begin.answer d.1 0 d.2.1 d.2.2))) ∧
    (bs ≠ [] → s.begin.inSystemGroup a = true → s.begin.inSystemGroup (a + bs.length - 1) = true →
      let d := s.begin.devWrite .pcie a bs
      exec (.pcieInbound (.write a bs)) s = .next (s.after (d.1.answer d.2))) ∧
    (s.begin.inSystemGroup a = false →
      exec (.pcieInbound (.read a n)) s = .next (s.after ((s.begin.emit (.note "Unsupported Request" a n)).answer St.OOB)) ∧
      exec (.pcieInbound (.write a bs)) s = .next (s.after ((s.begin.emit (.note "Unsupported Request" a bs.length)).answer St.OOB))) ∧
    (∀ h sup i, exec (.pcieInbound (.msi h sup i)) s = .next (s.after { s.begin with imsic := addNew (h, sup, i) s.imsic })))

/-- GCL_COMMIT by Coastguard of a list that is in range holds it for the first cycle start at or after its base time; one out of range, or
from another initiator, is an ignored write. GCL_TAKE_EFFECT, once that time has come, makes it the active list at its first entry, and
GCL_ENTRY_EXPIRY, once the entry's time is over, goes to the next; before their time they change nothing. ETH_MGMT_RX_FRAME with the port
down, or with a bad FCS, changes nothing; an Onnak frame is counted as dropped; with no ring, or a full one, or a frame longer than the
buffers, it is dropped and counted. ETH_MGMT_TX_DOORBELL takes the producer index and refuses descriptors at the head that may not be
sent. ETH_MGMT_TX_SENT of a sound head descriptor whose gate is open sends its frame, writes back OK with the time, and advances; with the
gate closed, or with no descriptor, nothing changes. -/
def Obligations.ManagementEthernetGatesAndRings : Prop :=
  (∀ (s : State) (v : Word), s.awake = true → flag v 0 = true →
    let base := s.reg64 Reg.ETH_MGMT_GCL_BASE_LO
    let cycle := (s.reg Reg.ETH_MGMT_GCL_CYCLE).toNat
    let len := fld (s.reg Reg.ETH_MGMT_GCL_LEN) 6 0
    let ok := 1000 ≤ cycle ∧ cycle ≤ 200000000 ∧ 1 ≤ len ∧ len ≤ 64
    (ok → 
      let g : Gcl := ⟨if s.time.now ≤ base then base else base + ceilDiv (s.time.now - base) cycle * cycle, cycle,
        (List.range len).map (fun k => (fld (s.reg (Reg.ETH_MGMT_GCL k)) 7 0, fld (s.reg (Reg.ETH_MGMT_GCL k)) 31 8 * 8))⟩
      exec (.gclCommit .cg v) s = .next (s.after { s.begin with eth := { s.eth with pending := some g } })) ∧
    (¬ ok → exec (.gclCommit .cg v) s = .next (s.after (s.begin.ignoredWrite Reg.ETH_MGMT_GCL_COMMIT))) ∧
    (∀ ini, ini ≠ Initiator.cg → exec (.gclCommit ini v) s = .next (s.after (s.begin.ignoredWrite Reg.ETH_MGMT_GCL_COMMIT)))) ∧
  (∀ (s : State) (g : Gcl), s.awake = true → s.eth.pending = some g →
    (s.time.now < g.base → exec .gclTakeEffect s = .next (s.after s.begin)) ∧
    (g.base ≤ s.time.now → exec .gclTakeEffect s = .next (s.after
      ({ s.begin with eth := { s.eth with pending := none, active := some g, entry := 0, entryEnds :=
          if g.entries.length = 1 then g.base + g.cycle else g.base + min (g.entries.getD 0 (0, 0)).2 g.cycle } } : State).drainClass7))) ∧
  (∀ (s : State) (g : Gcl), s.awake = true → s.eth.active = some g →
    (s.time.now < s.eth.entryEnds → exec .gclEntryExpiry s = .next (s.after s.begin)) ∧
    (s.eth.entryEnds ≤ s.time.now → exec .gclEntryExpiry s = .next (s.after
      ({ s.begin with eth := s.eth.advance g } : State).drainClass7))) ∧
  (∀ (s : State) (f : List Byte), s.awake = true →
    exec (.ethMgmtRxFrame f false) s = .next (s.after s.begin) ∧
    (s.eth.up = true → (etherBody f).1 = 0x88B5 → exec (.ethMgmtRxFrame f true) s = .next (s.after (s.begin.bump Reg.ETH_MGMT_DROP_COUNT))) ∧
    (s.eth.up = true → (etherBody f).1 ≠ 0x88B5 → (etherBody f).1 ≠ 0x88F7 →
      (s.begin.ethRing Reg.ETH_MGMT_RX_BASE_HI = none →
        exec (.ethMgmtRxFrame f true) s = .next (s.after (s.begin.bump Reg.ETH_MGMT_RX_DROP_COUNT))) ∧
      (fld (s.reg Reg.ETH_MGMT_RX_BUF_SIZE) 13 0 < f.length →
        exec (.ethMgmtRxFrame f true) s = .next (s.after (s.begin.bump Reg.ETH_MGMT_RX_DROP_COUNT))))) ∧
  (∀ (s : State) (v : Word), s.awake = true → exec (.ethMgmtTxDoorbell v) s = .next (s.after
    ((s.begin.put Reg.ETH_MGMT_TX_PRODUCER (fld v 11 0)).txRefuse 4096))) ∧
  (∀ (s : State), s.awake = true →
    (s.begin.txHead = none → exec .ethMgmtTxSent s = .next (s.after s.begin)) ∧
    (∀ a buf len cls, s.begin.txHead = some (a, buf, len, cls) →
      (s.eth.up = true → s.begin.gateOpen cls = true → cls < 7 → 60 ≤ len → len ≤ 9216 → exec .ethMgmtTxSent s = .next (s.after
        (((s.begin.emit (.eth (s.begin.devRead buf len).2.1)).ethStatus a St.OK s.time.now).txAdvance.txRefuse 4096))) ∧
      (s.begin.gateOpen cls = false → exec .ethMgmtTxSent s = .next (s.after s.begin))))

/-- Each of the commands named (Tender's start, pause, resume, abort, triggers, retry and drains; a gate list's commit; Coastguard's request
and kick; core release; the recovery path's ANNOUNCE and DATA; VERIFY and the mailbox's completion; a dump's release; an MSI vector;
supplies and alerts; frame-sync pulses; a ticket result's pop) answers a next state with every quay and the whole memory system as they
were, so that every byte reads as before. CORE_RELEASE changes TOP_CORE_RELEASE alone among the registers; VERIFY, ANNOUNCE, DATA,
DUMP_RELEASE, TICKET_RESULT_POP, and CG_WDT_KICK by Coastguard change no register; TENDER_PAUSE and TENDER_RESUME of a free channel change
TENDER_BAD_STATE_COUNT at most. That a command reaches nothing else is a frame of the model's meanings, and follows from what the rules
say it does. -/
def Obligations.CommandsThatSpareMemoryQuaysAndRegisters : Prop :=
  (∀ (c : Instr) (s : State), c.sparesMemory = true → ∃ t, exec c s = .next t ∧ t.quays = s.quays ∧ t.mem = s.mem ∧ ∀ a, t.byte a = s.byte a) ∧
  (∀ (s : State) (v : Word), ∃ t, exec (.coreRelease v) s = .next t ∧ ∀ a, a ≠ Reg.TOP_CORE_RELEASE → t.reg a = s.reg a) ∧
  (∀ (s : State) (c : Instr), c = .verify ∨ c = .announce ∨ (∃ u o b, c = .data u o b) ∨ (∃ q, c = .dumpRelease q) ∨ c = .ticketResultPop ∨
    c = .cgWdtKick .cg → ∃ t, exec c s = .next t ∧ t.regs = s.regs) ∧
  (∀ (s : State) (n : Fin 32) (c : Instr), s.chanOwner n = none → c = .tenderPause n ∨ c = .tenderResume n →
    ∃ t, exec c s = .next t ∧ ∀ a, a ≠ Reg.TENDER_BAD_STATE_COUNT → t.reg a = s.reg a)
end

