-- ==== Sys2Proof/Laws/State.lean ====
section
/-! SUPPORT. One lemma per field of State and update: what an update changes is said by its definition, and every other field is as it was. The proofs are (rfl), not
rfl, so that simp rewrites with them and does not compare states by evaluation. -/
namespace Sys2Proof.Machine

/-! setReg changes regs alone. -/

@[simp] theorem State.setReg_captures (s : State) (a : Nat) (v : Word) : (s.setReg a v).captures = s.captures := (rfl)
@[simp] theorem State.setReg_heldLo (s : State) (a : Nat) (v : Word) : (s.setReg a v).heldLo = s.heldLo := (rfl)
@[simp] theorem State.setReg_time (s : State) (a : Nat) (v : Word) : (s.setReg a v).time = s.time := (rfl)
@[simp] theorem State.setReg_out (s : State) (a : Nat) (v : Word) : (s.setReg a v).out = s.out := (rfl)
@[simp] theorem State.setReg_reply (s : State) (a : Nat) (v : Word) : (s.setReg a v).reply = s.reply := (rfl)
@[simp] theorem State.setReg_imsic (s : State) (a : Nat) (v : Word) : (s.setReg a v).imsic = s.imsic := (rfl)
@[simp] theorem State.setReg_quays (s : State) (a : Nat) (v : Word) : (s.setReg a v).quays = s.quays := (rfl)
@[simp] theorem State.setReg_faultFifo (s : State) (a : Nat) (v : Word) : (s.setReg a v).faultFifo = s.faultFifo := (rfl)
@[simp] theorem State.setReg_mem (s : State) (a : Nat) (v : Word) : (s.setReg a v).mem = s.mem := (rfl)
@[simp] theorem State.setReg_salv (s : State) (a : Nat) (v : Word) : (s.setReg a v).salv = s.salv := (rfl)
@[simp] theorem State.setReg_shadows (s : State) (a : Nat) (v : Word) : (s.setReg a v).shadows = s.shadows := (rfl)
@[simp] theorem State.setReg_customs (s : State) (a : Nat) (v : Word) : (s.setReg a v).customs = s.customs := (rfl)
@[simp] theorem State.setReg_cam (s : State) (a : Nat) (v : Word) : (s.setReg a v).cam = s.cam := (rfl)
@[simp] theorem State.setReg_camp (s : State) (a : Nat) (v : Word) : (s.setReg a v).camp = s.camp := (rfl)
@[simp] theorem State.setReg_vis (s : State) (a : Nat) (v : Word) : (s.setReg a v).vis = s.vis := (rfl)
@[simp] theorem State.setReg_ledger (s : State) (a : Nat) (v : Word) : (s.setReg a v).ledger = s.ledger := (rfl)
@[simp] theorem State.setReg_snd (s : State) (a : Nat) (v : Word) : (s.setReg a v).snd = s.snd := (rfl)
@[simp] theorem State.setReg_edge (s : State) (a : Nat) (v : Word) : (s.setReg a v).edge = s.edge := (rfl)
@[simp] theorem State.setReg_prog (s : State) (a : Nat) (v : Word) : (s.setReg a v).prog = s.prog := (rfl)
@[simp] theorem State.setReg_tender (s : State) (a : Nat) (v : Word) : (s.setReg a v).tender = s.tender := (rfl)
@[simp] theorem State.setReg_timers (s : State) (a : Nat) (v : Word) : (s.setReg a v).timers = s.timers := (rfl)
@[simp] theorem State.setReg_onnak (s : State) (a : Nat) (v : Word) : (s.setReg a v).onnak = s.onnak := (rfl)
@[simp] theorem State.setReg_eth (s : State) (a : Nat) (v : Word) : (s.setReg a v).eth = s.eth := (rfl)
@[simp] theorem State.setReg_gptp (s : State) (a : Nat) (v : Word) : (s.setReg a v).gptp = s.gptp := (rfl)
@[simp] theorem State.setReg_cg (s : State) (a : Nat) (v : Word) : (s.setReg a v).cg = s.cg := (rfl)
@[simp] theorem State.setReg_pmc (s : State) (a : Nat) (v : Word) : (s.setReg a v).pmc = s.pmc := (rfl)
@[simp] theorem State.setReg_coldHeld (s : State) (a : Nat) (v : Word) : (s.setReg a v).coldHeld = s.coldHeld := (rfl)
@[simp] theorem State.setReg_warmHeld (s : State) (a : Nat) (v : Word) : (s.setReg a v).warmHeld = s.warmHeld := (rfl)
@[simp] theorem State.setReg_free (s : State) (a : Nat) (v : Word) : (s.setReg a v).free = s.free := (rfl)
@[simp] theorem State.setReg_pending (s : State) (a : Nat) (v : Word) : (s.setReg a v).pending = s.pending := (rfl)

/-! setReg64 changes regs alone. -/

@[simp] theorem State.setReg64_captures (s : State) (a v : Nat) : (s.setReg64 a v).captures = s.captures := (rfl)
@[simp] theorem State.setReg64_heldLo (s : State) (a v : Nat) : (s.setReg64 a v).heldLo = s.heldLo := (rfl)
@[simp] theorem State.setReg64_time (s : State) (a v : Nat) : (s.setReg64 a v).time = s.time := (rfl)
@[simp] theorem State.setReg64_out (s : State) (a v : Nat) : (s.setReg64 a v).out = s.out := (rfl)
@[simp] theorem State.setReg64_reply (s : State) (a v : Nat) : (s.setReg64 a v).reply = s.reply := (rfl)
@[simp] theorem State.setReg64_imsic (s : State) (a v : Nat) : (s.setReg64 a v).imsic = s.imsic := (rfl)
@[simp] theorem State.setReg64_quays (s : State) (a v : Nat) : (s.setReg64 a v).quays = s.quays := (rfl)
@[simp] theorem State.setReg64_faultFifo (s : State) (a v : Nat) : (s.setReg64 a v).faultFifo = s.faultFifo := (rfl)
@[simp] theorem State.setReg64_mem (s : State) (a v : Nat) : (s.setReg64 a v).mem = s.mem := (rfl)
@[simp] theorem State.setReg64_salv (s : State) (a v : Nat) : (s.setReg64 a v).salv = s.salv := (rfl)
@[simp] theorem State.setReg64_shadows (s : State) (a v : Nat) : (s.setReg64 a v).shadows = s.shadows := (rfl)
@[simp] theorem State.setReg64_customs (s : State) (a v : Nat) : (s.setReg64 a v).customs = s.customs := (rfl)
@[simp] theorem State.setReg64_cam (s : State) (a v : Nat) : (s.setReg64 a v).cam = s.cam := (rfl)
@[simp] theorem State.setReg64_camp (s : State) (a v : Nat) : (s.setReg64 a v).camp = s.camp := (rfl)
@[simp] theorem State.setReg64_vis (s : State) (a v : Nat) : (s.setReg64 a v).vis = s.vis := (rfl)
@[simp] theorem State.setReg64_ledger (s : State) (a v : Nat) : (s.setReg64 a v).ledger = s.ledger := (rfl)
@[simp] theorem State.setReg64_snd (s : State) (a v : Nat) : (s.setReg64 a v).snd = s.snd := (rfl)
@[simp] theorem State.setReg64_edge (s : State) (a v : Nat) : (s.setReg64 a v).edge = s.edge := (rfl)
@[simp] theorem State.setReg64_prog (s : State) (a v : Nat) : (s.setReg64 a v).prog = s.prog := (rfl)
@[simp] theorem State.setReg64_tender (s : State) (a v : Nat) : (s.setReg64 a v).tender = s.tender := (rfl)
@[simp] theorem State.setReg64_timers (s : State) (a v : Nat) : (s.setReg64 a v).timers = s.timers := (rfl)
@[simp] theorem State.setReg64_onnak (s : State) (a v : Nat) : (s.setReg64 a v).onnak = s.onnak := (rfl)
@[simp] theorem State.setReg64_eth (s : State) (a v : Nat) : (s.setReg64 a v).eth = s.eth := (rfl)
@[simp] theorem State.setReg64_gptp (s : State) (a v : Nat) : (s.setReg64 a v).gptp = s.gptp := (rfl)
@[simp] theorem State.setReg64_cg (s : State) (a v : Nat) : (s.setReg64 a v).cg = s.cg := (rfl)
@[simp] theorem State.setReg64_pmc (s : State) (a v : Nat) : (s.setReg64 a v).pmc = s.pmc := (rfl)
@[simp] theorem State.setReg64_coldHeld (s : State) (a v : Nat) : (s.setReg64 a v).coldHeld = s.coldHeld := (rfl)
@[simp] theorem State.setReg64_warmHeld (s : State) (a v : Nat) : (s.setReg64 a v).warmHeld = s.warmHeld := (rfl)
@[simp] theorem State.setReg64_free (s : State) (a v : Nat) : (s.setReg64 a v).free = s.free := (rfl)
@[simp] theorem State.setReg64_pending (s : State) (a v : Nat) : (s.setReg64 a v).pending = s.pending := (rfl)

/-! put changes regs alone. -/

@[simp] theorem State.put_captures (s : State) (a v : Nat) : (s.put a v).captures = s.captures := (rfl)
@[simp] theorem State.put_heldLo (s : State) (a v : Nat) : (s.put a v).heldLo = s.heldLo := (rfl)
@[simp] theorem State.put_time (s : State) (a v : Nat) : (s.put a v).time = s.time := (rfl)
@[simp] theorem State.put_out (s : State) (a v : Nat) : (s.put a v).out = s.out := (rfl)
@[simp] theorem State.put_reply (s : State) (a v : Nat) : (s.put a v).reply = s.reply := (rfl)
@[simp] theorem State.put_imsic (s : State) (a v : Nat) : (s.put a v).imsic = s.imsic := (rfl)
@[simp] theorem State.put_quays (s : State) (a v : Nat) : (s.put a v).quays = s.quays := (rfl)
@[simp] theorem State.put_faultFifo (s : State) (a v : Nat) : (s.put a v).faultFifo = s.faultFifo := (rfl)
@[simp] theorem State.put_mem (s : State) (a v : Nat) : (s.put a v).mem = s.mem := (rfl)
@[simp] theorem State.put_salv (s : State) (a v : Nat) : (s.put a v).salv = s.salv := (rfl)
@[simp] theorem State.put_shadows (s : State) (a v : Nat) : (s.put a v).shadows = s.shadows := (rfl)
@[simp] theorem State.put_customs (s : State) (a v : Nat) : (s.put a v).customs = s.customs := (rfl)
@[simp] theorem State.put_cam (s : State) (a v : Nat) : (s.put a v).cam = s.cam := (rfl)
@[simp] theorem State.put_camp (s : State) (a v : Nat) : (s.put a v).camp = s.camp := (rfl)
@[simp] theorem State.put_vis (s : State) (a v : Nat) : (s.put a v).vis = s.vis := (rfl)
@[simp] theorem State.put_ledger (s : State) (a v : Nat) : (s.put a v).ledger = s.ledger := (rfl)
@[simp] theorem State.put_snd (s : State) (a v : Nat) : (s.put a v).snd = s.snd := (rfl)
@[simp] theorem State.put_edge (s : State) (a v : Nat) : (s.put a v).edge = s.edge := (rfl)
@[simp] theorem State.put_prog (s : State) (a v : Nat) : (s.put a v).prog = s.prog := (rfl)
@[simp] theorem State.put_tender (s : State) (a v : Nat) : (s.put a v).tender = s.tender := (rfl)
@[simp] theorem State.put_timers (s : State) (a v : Nat) : (s.put a v).timers = s.timers := (rfl)
@[simp] theorem State.put_onnak (s : State) (a v : Nat) : (s.put a v).onnak = s.onnak := (rfl)
@[simp] theorem State.put_eth (s : State) (a v : Nat) : (s.put a v).eth = s.eth := (rfl)
@[simp] theorem State.put_gptp (s : State) (a v : Nat) : (s.put a v).gptp = s.gptp := (rfl)
@[simp] theorem State.put_cg (s : State) (a v : Nat) : (s.put a v).cg = s.cg := (rfl)
@[simp] theorem State.put_pmc (s : State) (a v : Nat) : (s.put a v).pmc = s.pmc := (rfl)
@[simp] theorem State.put_coldHeld (s : State) (a v : Nat) : (s.put a v).coldHeld = s.coldHeld := (rfl)
@[simp] theorem State.put_warmHeld (s : State) (a v : Nat) : (s.put a v).warmHeld = s.warmHeld := (rfl)
@[simp] theorem State.put_free (s : State) (a v : Nat) : (s.put a v).free = s.free := (rfl)
@[simp] theorem State.put_pending (s : State) (a v : Nat) : (s.put a v).pending = s.pending := (rfl)

/-! bumpBy changes regs alone. -/

@[simp] theorem State.bumpBy_captures (s : State) (a n : Nat) : (s.bumpBy a n).captures = s.captures := (rfl)
@[simp] theorem State.bumpBy_heldLo (s : State) (a n : Nat) : (s.bumpBy a n).heldLo = s.heldLo := (rfl)
@[simp] theorem State.bumpBy_time (s : State) (a n : Nat) : (s.bumpBy a n).time = s.time := (rfl)
@[simp] theorem State.bumpBy_out (s : State) (a n : Nat) : (s.bumpBy a n).out = s.out := (rfl)
@[simp] theorem State.bumpBy_reply (s : State) (a n : Nat) : (s.bumpBy a n).reply = s.reply := (rfl)
@[simp] theorem State.bumpBy_imsic (s : State) (a n : Nat) : (s.bumpBy a n).imsic = s.imsic := (rfl)
@[simp] theorem State.bumpBy_quays (s : State) (a n : Nat) : (s.bumpBy a n).quays = s.quays := (rfl)
@[simp] theorem State.bumpBy_faultFifo (s : State) (a n : Nat) : (s.bumpBy a n).faultFifo = s.faultFifo := (rfl)
@[simp] theorem State.bumpBy_mem (s : State) (a n : Nat) : (s.bumpBy a n).mem = s.mem := (rfl)
@[simp] theorem State.bumpBy_salv (s : State) (a n : Nat) : (s.bumpBy a n).salv = s.salv := (rfl)
@[simp] theorem State.bumpBy_shadows (s : State) (a n : Nat) : (s.bumpBy a n).shadows = s.shadows := (rfl)
@[simp] theorem State.bumpBy_customs (s : State) (a n : Nat) : (s.bumpBy a n).customs = s.customs := (rfl)
@[simp] theorem State.bumpBy_cam (s : State) (a n : Nat) : (s.bumpBy a n).cam = s.cam := (rfl)
@[simp] theorem State.bumpBy_camp (s : State) (a n : Nat) : (s.bumpBy a n).camp = s.camp := (rfl)
@[simp] theorem State.bumpBy_vis (s : State) (a n : Nat) : (s.bumpBy a n).vis = s.vis := (rfl)
@[simp] theorem State.bumpBy_ledger (s : State) (a n : Nat) : (s.bumpBy a n).ledger = s.ledger := (rfl)
@[simp] theorem State.bumpBy_snd (s : State) (a n : Nat) : (s.bumpBy a n).snd = s.snd := (rfl)
@[simp] theorem State.bumpBy_edge (s : State) (a n : Nat) : (s.bumpBy a n).edge = s.edge := (rfl)
@[simp] theorem State.bumpBy_prog (s : State) (a n : Nat) : (s.bumpBy a n).prog = s.prog := (rfl)
@[simp] theorem State.bumpBy_tender (s : State) (a n : Nat) : (s.bumpBy a n).tender = s.tender := (rfl)
@[simp] theorem State.bumpBy_timers (s : State) (a n : Nat) : (s.bumpBy a n).timers = s.timers := (rfl)
@[simp] theorem State.bumpBy_onnak (s : State) (a n : Nat) : (s.bumpBy a n).onnak = s.onnak := (rfl)
@[simp] theorem State.bumpBy_eth (s : State) (a n : Nat) : (s.bumpBy a n).eth = s.eth := (rfl)
@[simp] theorem State.bumpBy_gptp (s : State) (a n : Nat) : (s.bumpBy a n).gptp = s.gptp := (rfl)
@[simp] theorem State.bumpBy_cg (s : State) (a n : Nat) : (s.bumpBy a n).cg = s.cg := (rfl)
@[simp] theorem State.bumpBy_pmc (s : State) (a n : Nat) : (s.bumpBy a n).pmc = s.pmc := (rfl)
@[simp] theorem State.bumpBy_coldHeld (s : State) (a n : Nat) : (s.bumpBy a n).coldHeld = s.coldHeld := (rfl)
@[simp] theorem State.bumpBy_warmHeld (s : State) (a n : Nat) : (s.bumpBy a n).warmHeld = s.warmHeld := (rfl)
@[simp] theorem State.bumpBy_free (s : State) (a n : Nat) : (s.bumpBy a n).free = s.free := (rfl)
@[simp] theorem State.bumpBy_pending (s : State) (a n : Nat) : (s.bumpBy a n).pending = s.pending := (rfl)

/-! bump changes regs alone. -/

@[simp] theorem State.bump_captures (s : State) (a : Nat) : (s.bump a).captures = s.captures := (rfl)
@[simp] theorem State.bump_heldLo (s : State) (a : Nat) : (s.bump a).heldLo = s.heldLo := (rfl)
@[simp] theorem State.bump_time (s : State) (a : Nat) : (s.bump a).time = s.time := (rfl)
@[simp] theorem State.bump_out (s : State) (a : Nat) : (s.bump a).out = s.out := (rfl)
@[simp] theorem State.bump_reply (s : State) (a : Nat) : (s.bump a).reply = s.reply := (rfl)
@[simp] theorem State.bump_imsic (s : State) (a : Nat) : (s.bump a).imsic = s.imsic := (rfl)
@[simp] theorem State.bump_quays (s : State) (a : Nat) : (s.bump a).quays = s.quays := (rfl)
@[simp] theorem State.bump_faultFifo (s : State) (a : Nat) : (s.bump a).faultFifo = s.faultFifo := (rfl)
@[simp] theorem State.bump_mem (s : State) (a : Nat) : (s.bump a).mem = s.mem := (rfl)
@[simp] theorem State.bump_salv (s : State) (a : Nat) : (s.bump a).salv = s.salv := (rfl)
@[simp] theorem State.bump_shadows (s : State) (a : Nat) : (s.bump a).shadows = s.shadows := (rfl)
@[simp] theorem State.bump_customs (s : State) (a : Nat) : (s.bump a).customs = s.customs := (rfl)
@[simp] theorem State.bump_cam (s : State) (a : Nat) : (s.bump a).cam = s.cam := (rfl)
@[simp] theorem State.bump_camp (s : State) (a : Nat) : (s.bump a).camp = s.camp := (rfl)
@[simp] theorem State.bump_vis (s : State) (a : Nat) : (s.bump a).vis = s.vis := (rfl)
@[simp] theorem State.bump_ledger (s : State) (a : Nat) : (s.bump a).ledger = s.ledger := (rfl)
@[simp] theorem State.bump_snd (s : State) (a : Nat) : (s.bump a).snd = s.snd := (rfl)
@[simp] theorem State.bump_edge (s : State) (a : Nat) : (s.bump a).edge = s.edge := (rfl)
@[simp] theorem State.bump_prog (s : State) (a : Nat) : (s.bump a).prog = s.prog := (rfl)
@[simp] theorem State.bump_tender (s : State) (a : Nat) : (s.bump a).tender = s.tender := (rfl)
@[simp] theorem State.bump_timers (s : State) (a : Nat) : (s.bump a).timers = s.timers := (rfl)
@[simp] theorem State.bump_onnak (s : State) (a : Nat) : (s.bump a).onnak = s.onnak := (rfl)
@[simp] theorem State.bump_eth (s : State) (a : Nat) : (s.bump a).eth = s.eth := (rfl)
@[simp] theorem State.bump_gptp (s : State) (a : Nat) : (s.bump a).gptp = s.gptp := (rfl)
@[simp] theorem State.bump_cg (s : State) (a : Nat) : (s.bump a).cg = s.cg := (rfl)
@[simp] theorem State.bump_pmc (s : State) (a : Nat) : (s.bump a).pmc = s.pmc := (rfl)
@[simp] theorem State.bump_coldHeld (s : State) (a : Nat) : (s.bump a).coldHeld = s.coldHeld := (rfl)
@[simp] theorem State.bump_warmHeld (s : State) (a : Nat) : (s.bump a).warmHeld = s.warmHeld := (rfl)
@[simp] theorem State.bump_free (s : State) (a : Nat) : (s.bump a).free = s.free := (rfl)
@[simp] theorem State.bump_pending (s : State) (a : Nat) : (s.bump a).pending = s.pending := (rfl)

/-! wrapBy changes regs alone. -/

@[simp] theorem State.wrapBy_captures (s : State) (a n : Nat) : (s.wrapBy a n).captures = s.captures := (rfl)
@[simp] theorem State.wrapBy_heldLo (s : State) (a n : Nat) : (s.wrapBy a n).heldLo = s.heldLo := (rfl)
@[simp] theorem State.wrapBy_time (s : State) (a n : Nat) : (s.wrapBy a n).time = s.time := (rfl)
@[simp] theorem State.wrapBy_out (s : State) (a n : Nat) : (s.wrapBy a n).out = s.out := (rfl)
@[simp] theorem State.wrapBy_reply (s : State) (a n : Nat) : (s.wrapBy a n).reply = s.reply := (rfl)
@[simp] theorem State.wrapBy_imsic (s : State) (a n : Nat) : (s.wrapBy a n).imsic = s.imsic := (rfl)
@[simp] theorem State.wrapBy_quays (s : State) (a n : Nat) : (s.wrapBy a n).quays = s.quays := (rfl)
@[simp] theorem State.wrapBy_faultFifo (s : State) (a n : Nat) : (s.wrapBy a n).faultFifo = s.faultFifo := (rfl)
@[simp] theorem State.wrapBy_mem (s : State) (a n : Nat) : (s.wrapBy a n).mem = s.mem := (rfl)
@[simp] theorem State.wrapBy_salv (s : State) (a n : Nat) : (s.wrapBy a n).salv = s.salv := (rfl)
@[simp] theorem State.wrapBy_shadows (s : State) (a n : Nat) : (s.wrapBy a n).shadows = s.shadows := (rfl)
@[simp] theorem State.wrapBy_customs (s : State) (a n : Nat) : (s.wrapBy a n).customs = s.customs := (rfl)
@[simp] theorem State.wrapBy_cam (s : State) (a n : Nat) : (s.wrapBy a n).cam = s.cam := (rfl)
@[simp] theorem State.wrapBy_camp (s : State) (a n : Nat) : (s.wrapBy a n).camp = s.camp := (rfl)
@[simp] theorem State.wrapBy_vis (s : State) (a n : Nat) : (s.wrapBy a n).vis = s.vis := (rfl)
@[simp] theorem State.wrapBy_ledger (s : State) (a n : Nat) : (s.wrapBy a n).ledger = s.ledger := (rfl)
@[simp] theorem State.wrapBy_snd (s : State) (a n : Nat) : (s.wrapBy a n).snd = s.snd := (rfl)
@[simp] theorem State.wrapBy_edge (s : State) (a n : Nat) : (s.wrapBy a n).edge = s.edge := (rfl)
@[simp] theorem State.wrapBy_prog (s : State) (a n : Nat) : (s.wrapBy a n).prog = s.prog := (rfl)
@[simp] theorem State.wrapBy_tender (s : State) (a n : Nat) : (s.wrapBy a n).tender = s.tender := (rfl)
@[simp] theorem State.wrapBy_timers (s : State) (a n : Nat) : (s.wrapBy a n).timers = s.timers := (rfl)
@[simp] theorem State.wrapBy_onnak (s : State) (a n : Nat) : (s.wrapBy a n).onnak = s.onnak := (rfl)
@[simp] theorem State.wrapBy_eth (s : State) (a n : Nat) : (s.wrapBy a n).eth = s.eth := (rfl)
@[simp] theorem State.wrapBy_gptp (s : State) (a n : Nat) : (s.wrapBy a n).gptp = s.gptp := (rfl)
@[simp] theorem State.wrapBy_cg (s : State) (a n : Nat) : (s.wrapBy a n).cg = s.cg := (rfl)
@[simp] theorem State.wrapBy_pmc (s : State) (a n : Nat) : (s.wrapBy a n).pmc = s.pmc := (rfl)
@[simp] theorem State.wrapBy_coldHeld (s : State) (a n : Nat) : (s.wrapBy a n).coldHeld = s.coldHeld := (rfl)
@[simp] theorem State.wrapBy_warmHeld (s : State) (a n : Nat) : (s.wrapBy a n).warmHeld = s.warmHeld := (rfl)
@[simp] theorem State.wrapBy_free (s : State) (a n : Nat) : (s.wrapBy a n).free = s.free := (rfl)
@[simp] theorem State.wrapBy_pending (s : State) (a n : Nat) : (s.wrapBy a n).pending = s.pending := (rfl)

/-! setBits changes regs alone. -/

@[simp] theorem State.setBits_captures (s : State) (a hi lo v : Nat) : (s.setBits a hi lo v).captures = s.captures := (rfl)
@[simp] theorem State.setBits_heldLo (s : State) (a hi lo v : Nat) : (s.setBits a hi lo v).heldLo = s.heldLo := (rfl)
@[simp] theorem State.setBits_time (s : State) (a hi lo v : Nat) : (s.setBits a hi lo v).time = s.time := (rfl)
@[simp] theorem State.setBits_out (s : State) (a hi lo v : Nat) : (s.setBits a hi lo v).out = s.out := (rfl)
@[simp] theorem State.setBits_reply (s : State) (a hi lo v : Nat) : (s.setBits a hi lo v).reply = s.reply := (rfl)
@[simp] theorem State.setBits_imsic (s : State) (a hi lo v : Nat) : (s.setBits a hi lo v).imsic = s.imsic := (rfl)
@[simp] theorem State.setBits_quays (s : State) (a hi lo v : Nat) : (s.setBits a hi lo v).quays = s.quays := (rfl)
@[simp] theorem State.setBits_faultFifo (s : State) (a hi lo v : Nat) : (s.setBits a hi lo v).faultFifo = s.faultFifo := (rfl)
@[simp] theorem State.setBits_mem (s : State) (a hi lo v : Nat) : (s.setBits a hi lo v).mem = s.mem := (rfl)
@[simp] theorem State.setBits_salv (s : State) (a hi lo v : Nat) : (s.setBits a hi lo v).salv = s.salv := (rfl)
@[simp] theorem State.setBits_shadows (s : State) (a hi lo v : Nat) : (s.setBits a hi lo v).shadows = s.shadows := (rfl)
@[simp] theorem State.setBits_customs (s : State) (a hi lo v : Nat) : (s.setBits a hi lo v).customs = s.customs := (rfl)
@[simp] theorem State.setBits_cam (s : State) (a hi lo v : Nat) : (s.setBits a hi lo v).cam = s.cam := (rfl)
@[simp] theorem State.setBits_camp (s : State) (a hi lo v : Nat) : (s.setBits a hi lo v).camp = s.camp := (rfl)
@[simp] theorem State.setBits_vis (s : State) (a hi lo v : Nat) : (s.setBits a hi lo v).vis = s.vis := (rfl)
@[simp] theorem State.setBits_ledger (s : State) (a hi lo v : Nat) : (s.setBits a hi lo v).ledger = s.ledger := (rfl)
@[simp] theorem State.setBits_snd (s : State) (a hi lo v : Nat) : (s.setBits a hi lo v).snd = s.snd := (rfl)
@[simp] theorem State.setBits_edge (s : State) (a hi lo v : Nat) : (s.setBits a hi lo v).edge = s.edge := (rfl)
@[simp] theorem State.setBits_prog (s : State) (a hi lo v : Nat) : (s.setBits a hi lo v).prog = s.prog := (rfl)
@[simp] theorem State.setBits_tender (s : State) (a hi lo v : Nat) : (s.setBits a hi lo v).tender = s.tender := (rfl)
@[simp] theorem State.setBits_timers (s : State) (a hi lo v : Nat) : (s.setBits a hi lo v).timers = s.timers := (rfl)
@[simp] theorem State.setBits_onnak (s : State) (a hi lo v : Nat) : (s.setBits a hi lo v).onnak = s.onnak := (rfl)
@[simp] theorem State.setBits_eth (s : State) (a hi lo v : Nat) : (s.setBits a hi lo v).eth = s.eth := (rfl)
@[simp] theorem State.setBits_gptp (s : State) (a hi lo v : Nat) : (s.setBits a hi lo v).gptp = s.gptp := (rfl)
@[simp] theorem State.setBits_cg (s : State) (a hi lo v : Nat) : (s.setBits a hi lo v).cg = s.cg := (rfl)
@[simp] theorem State.setBits_pmc (s : State) (a hi lo v : Nat) : (s.setBits a hi lo v).pmc = s.pmc := (rfl)
@[simp] theorem State.setBits_coldHeld (s : State) (a hi lo v : Nat) : (s.setBits a hi lo v).coldHeld = s.coldHeld := (rfl)
@[simp] theorem State.setBits_warmHeld (s : State) (a hi lo v : Nat) : (s.setBits a hi lo v).warmHeld = s.warmHeld := (rfl)
@[simp] theorem State.setBits_free (s : State) (a hi lo v : Nat) : (s.setBits a hi lo v).free = s.free := (rfl)
@[simp] theorem State.setBits_pending (s : State) (a hi lo v : Nat) : (s.setBits a hi lo v).pending = s.pending := (rfl)

/-! emit changes out alone. -/

@[simp] theorem State.emit_regs (s : State) (e : Emission) : (s.emit e).regs = s.regs := (rfl)
@[simp] theorem State.emit_captures (s : State) (e : Emission) : (s.emit e).captures = s.captures := (rfl)
@[simp] theorem State.emit_heldLo (s : State) (e : Emission) : (s.emit e).heldLo = s.heldLo := (rfl)
@[simp] theorem State.emit_time (s : State) (e : Emission) : (s.emit e).time = s.time := (rfl)
@[simp] theorem State.emit_reply (s : State) (e : Emission) : (s.emit e).reply = s.reply := (rfl)
@[simp] theorem State.emit_imsic (s : State) (e : Emission) : (s.emit e).imsic = s.imsic := (rfl)
@[simp] theorem State.emit_quays (s : State) (e : Emission) : (s.emit e).quays = s.quays := (rfl)
@[simp] theorem State.emit_faultFifo (s : State) (e : Emission) : (s.emit e).faultFifo = s.faultFifo := (rfl)
@[simp] theorem State.emit_mem (s : State) (e : Emission) : (s.emit e).mem = s.mem := (rfl)
@[simp] theorem State.emit_salv (s : State) (e : Emission) : (s.emit e).salv = s.salv := (rfl)
@[simp] theorem State.emit_shadows (s : State) (e : Emission) : (s.emit e).shadows = s.shadows := (rfl)
@[simp] theorem State.emit_customs (s : State) (e : Emission) : (s.emit e).customs = s.customs := (rfl)
@[simp] theorem State.emit_cam (s : State) (e : Emission) : (s.emit e).cam = s.cam := (rfl)
@[simp] theorem State.emit_camp (s : State) (e : Emission) : (s.emit e).camp = s.camp := (rfl)
@[simp] theorem State.emit_vis (s : State) (e : Emission) : (s.emit e).vis = s.vis := (rfl)
@[simp] theorem State.emit_ledger (s : State) (e : Emission) : (s.emit e).ledger = s.ledger := (rfl)
@[simp] theorem State.emit_snd (s : State) (e : Emission) : (s.emit e).snd = s.snd := (rfl)
@[simp] theorem State.emit_edge (s : State) (e : Emission) : (s.emit e).edge = s.edge := (rfl)
@[simp] theorem State.emit_prog (s : State) (e : Emission) : (s.emit e).prog = s.prog := (rfl)
@[simp] theorem State.emit_tender (s : State) (e : Emission) : (s.emit e).tender = s.tender := (rfl)
@[simp] theorem State.emit_timers (s : State) (e : Emission) : (s.emit e).timers = s.timers := (rfl)
@[simp] theorem State.emit_onnak (s : State) (e : Emission) : (s.emit e).onnak = s.onnak := (rfl)
@[simp] theorem State.emit_eth (s : State) (e : Emission) : (s.emit e).eth = s.eth := (rfl)
@[simp] theorem State.emit_gptp (s : State) (e : Emission) : (s.emit e).gptp = s.gptp := (rfl)
@[simp] theorem State.emit_cg (s : State) (e : Emission) : (s.emit e).cg = s.cg := (rfl)
@[simp] theorem State.emit_pmc (s : State) (e : Emission) : (s.emit e).pmc = s.pmc := (rfl)
@[simp] theorem State.emit_coldHeld (s : State) (e : Emission) : (s.emit e).coldHeld = s.coldHeld := (rfl)
@[simp] theorem State.emit_warmHeld (s : State) (e : Emission) : (s.emit e).warmHeld = s.warmHeld := (rfl)
@[simp] theorem State.emit_free (s : State) (e : Emission) : (s.emit e).free = s.free := (rfl)
@[simp] theorem State.emit_pending (s : State) (e : Emission) : (s.emit e).pending = s.pending := (rfl)
@[simp] theorem State.emit_reg (s : State) (e : Emission) (r : Nat) : (s.emit e).reg r = s.reg r := (rfl)
@[simp] theorem State.emit_reg64 (s : State) (e : Emission) (r : Nat) : (s.emit e).reg64 r = s.reg64 r := (rfl)

/-! answer changes reply alone. -/

@[simp] theorem State.answer_regs (s : State) (st : Status) (d : Nat) (bs : List Byte) (p : Bool) : (s.answer st d bs p).regs = s.regs := (rfl)
@[simp] theorem State.answer_captures (s : State) (st : Status) (d : Nat) (bs : List Byte) (p : Bool) : (s.answer st d bs p).captures = s.captures := (rfl)
@[simp] theorem State.answer_heldLo (s : State) (st : Status) (d : Nat) (bs : List Byte) (p : Bool) : (s.answer st d bs p).heldLo = s.heldLo := (rfl)
@[simp] theorem State.answer_time (s : State) (st : Status) (d : Nat) (bs : List Byte) (p : Bool) : (s.answer st d bs p).time = s.time := (rfl)
@[simp] theorem State.answer_out (s : State) (st : Status) (d : Nat) (bs : List Byte) (p : Bool) : (s.answer st d bs p).out = s.out := (rfl)
@[simp] theorem State.answer_imsic (s : State) (st : Status) (d : Nat) (bs : List Byte) (p : Bool) : (s.answer st d bs p).imsic = s.imsic := (rfl)
@[simp] theorem State.answer_quays (s : State) (st : Status) (d : Nat) (bs : List Byte) (p : Bool) : (s.answer st d bs p).quays = s.quays := (rfl)
@[simp] theorem State.answer_faultFifo (s : State) (st : Status) (d : Nat) (bs : List Byte) (p : Bool) : (s.answer st d bs p).faultFifo = s.faultFifo := (rfl)
@[simp] theorem State.answer_mem (s : State) (st : Status) (d : Nat) (bs : List Byte) (p : Bool) : (s.answer st d bs p).mem = s.mem := (rfl)
@[simp] theorem State.answer_salv (s : State) (st : Status) (d : Nat) (bs : List Byte) (p : Bool) : (s.answer st d bs p).salv = s.salv := (rfl)
@[simp] theorem State.answer_shadows (s : State) (st : Status) (d : Nat) (bs : List Byte) (p : Bool) : (s.answer st d bs p).shadows = s.shadows := (rfl)
@[simp] theorem State.answer_customs (s : State) (st : Status) (d : Nat) (bs : List Byte) (p : Bool) : (s.answer st d bs p).customs = s.customs := (rfl)
@[simp] theorem State.answer_cam (s : State) (st : Status) (d : Nat) (bs : List Byte) (p : Bool) : (s.answer st d bs p).cam = s.cam := (rfl)
@[simp] theorem State.answer_camp (s : State) (st : Status) (d : Nat) (bs : List Byte) (p : Bool) : (s.answer st d bs p).camp = s.camp := (rfl)
@[simp] theorem State.answer_vis (s : State) (st : Status) (d : Nat) (bs : List Byte) (p : Bool) : (s.answer st d bs p).vis = s.vis := (rfl)
@[simp] theorem State.answer_ledger (s : State) (st : Status) (d : Nat) (bs : List Byte) (p : Bool) : (s.answer st d bs p).ledger = s.ledger := (rfl)
@[simp] theorem State.answer_snd (s : State) (st : Status) (d : Nat) (bs : List Byte) (p : Bool) : (s.answer st d bs p).snd = s.snd := (rfl)
@[simp] theorem State.answer_edge (s : State) (st : Status) (d : Nat) (bs : List Byte) (p : Bool) : (s.answer st d bs p).edge = s.edge := (rfl)
@[simp] theorem State.answer_prog (s : State) (st : Status) (d : Nat) (bs : List Byte) (p : Bool) : (s.answer st d bs p).prog = s.prog := (rfl)
@[simp] theorem State.answer_tender (s : State) (st : Status) (d : Nat) (bs : List Byte) (p : Bool) : (s.answer st d bs p).tender = s.tender := (rfl)
@[simp] theorem State.answer_timers (s : State) (st : Status) (d : Nat) (bs : List Byte) (p : Bool) : (s.answer st d bs p).timers = s.timers := (rfl)
@[simp] theorem State.answer_onnak (s : State) (st : Status) (d : Nat) (bs : List Byte) (p : Bool) : (s.answer st d bs p).onnak = s.onnak := (rfl)
@[simp] theorem State.answer_eth (s : State) (st : Status) (d : Nat) (bs : List Byte) (p : Bool) : (s.answer st d bs p).eth = s.eth := (rfl)
@[simp] theorem State.answer_gptp (s : State) (st : Status) (d : Nat) (bs : List Byte) (p : Bool) : (s.answer st d bs p).gptp = s.gptp := (rfl)
@[simp] theorem State.answer_cg (s : State) (st : Status) (d : Nat) (bs : List Byte) (p : Bool) : (s.answer st d bs p).cg = s.cg := (rfl)
@[simp] theorem State.answer_pmc (s : State) (st : Status) (d : Nat) (bs : List Byte) (p : Bool) : (s.answer st d bs p).pmc = s.pmc := (rfl)
@[simp] theorem State.answer_coldHeld (s : State) (st : Status) (d : Nat) (bs : List Byte) (p : Bool) : (s.answer st d bs p).coldHeld = s.coldHeld := (rfl)
@[simp] theorem State.answer_warmHeld (s : State) (st : Status) (d : Nat) (bs : List Byte) (p : Bool) : (s.answer st d bs p).warmHeld = s.warmHeld := (rfl)
@[simp] theorem State.answer_free (s : State) (st : Status) (d : Nat) (bs : List Byte) (p : Bool) : (s.answer st d bs p).free = s.free := (rfl)
@[simp] theorem State.answer_pending (s : State) (st : Status) (d : Nat) (bs : List Byte) (p : Bool) : (s.answer st d bs p).pending = s.pending := (rfl)
@[simp] theorem State.answer_reg (s : State) (st : Status) (d : Nat) (bs : List Byte) (p : Bool) (r : Nat) : (s.answer st d bs p).reg r = s.reg r := (rfl)
@[simp] theorem State.answer_reg64 (s : State) (st : Status) (d : Nat) (bs : List Byte) (p : Bool) (r : Nat) : (s.answer st d bs p).reg64 r = s.reg64 r := (rfl)

/-! begin changes out and reply alone. -/

@[simp] theorem State.begin_regs (s : State) : (s.begin).regs = s.regs := (rfl)
@[simp] theorem State.begin_captures (s : State) : (s.begin).captures = s.captures := (rfl)
@[simp] theorem State.begin_heldLo (s : State) : (s.begin).heldLo = s.heldLo := (rfl)
@[simp] theorem State.begin_time (s : State) : (s.begin).time = s.time := (rfl)
@[simp] theorem State.begin_imsic (s : State) : (s.begin).imsic = s.imsic := (rfl)
@[simp] theorem State.begin_quays (s : State) : (s.begin).quays = s.quays := (rfl)
@[simp] theorem State.begin_faultFifo (s : State) : (s.begin).faultFifo = s.faultFifo := (rfl)
@[simp] theorem State.begin_mem (s : State) : (s.begin).mem = s.mem := (rfl)
@[simp] theorem State.begin_salv (s : State) : (s.begin).salv = s.salv := (rfl)
@[simp] theorem State.begin_shadows (s : State) : (s.begin).shadows = s.shadows := (rfl)
@[simp] theorem State.begin_customs (s : State) : (s.begin).customs = s.customs := (rfl)
@[simp] theorem State.begin_cam (s : State) : (s.begin).cam = s.cam := (rfl)
@[simp] theorem State.begin_camp (s : State) : (s.begin).camp = s.camp := (rfl)
@[simp] theorem State.begin_vis (s : State) : (s.begin).vis = s.vis := (rfl)
@[simp] theorem State.begin_ledger (s : State) : (s.begin).ledger = s.ledger := (rfl)
@[simp] theorem State.begin_snd (s : State) : (s.begin).snd = s.snd := (rfl)
@[simp] theorem State.begin_edge (s : State) : (s.begin).edge = s.edge := (rfl)
@[simp] theorem State.begin_prog (s : State) : (s.begin).prog = s.prog := (rfl)
@[simp] theorem State.begin_tender (s : State) : (s.begin).tender = s.tender := (rfl)
@[simp] theorem State.begin_timers (s : State) : (s.begin).timers = s.timers := (rfl)
@[simp] theorem State.begin_onnak (s : State) : (s.begin).onnak = s.onnak := (rfl)
@[simp] theorem State.begin_eth (s : State) : (s.begin).eth = s.eth := (rfl)
@[simp] theorem State.begin_gptp (s : State) : (s.begin).gptp = s.gptp := (rfl)
@[simp] theorem State.begin_cg (s : State) : (s.begin).cg = s.cg := (rfl)
@[simp] theorem State.begin_pmc (s : State) : (s.begin).pmc = s.pmc := (rfl)
@[simp] theorem State.begin_coldHeld (s : State) : (s.begin).coldHeld = s.coldHeld := (rfl)
@[simp] theorem State.begin_warmHeld (s : State) : (s.begin).warmHeld = s.warmHeld := (rfl)
@[simp] theorem State.begin_free (s : State) : (s.begin).free = s.free := (rfl)
@[simp] theorem State.begin_pending (s : State) : (s.begin).pending = s.pending := (rfl)
@[simp] theorem State.begin_reg (s : State) (r : Nat) : (s.begin).reg r = s.reg r := (rfl)
@[simp] theorem State.begin_reg64 (s : State) (r : Nat) : (s.begin).reg64 r = s.reg64 r := (rfl)

/-! setQuay changes quays alone. -/

@[simp] theorem State.setQuay_regs (s : State) (q : Fin 4) (x : Quay) : (s.setQuay q x).regs = s.regs := (rfl)
@[simp] theorem State.setQuay_captures (s : State) (q : Fin 4) (x : Quay) : (s.setQuay q x).captures = s.captures := (rfl)
@[simp] theorem State.setQuay_heldLo (s : State) (q : Fin 4) (x : Quay) : (s.setQuay q x).heldLo = s.heldLo := (rfl)
@[simp] theorem State.setQuay_time (s : State) (q : Fin 4) (x : Quay) : (s.setQuay q x).time = s.time := (rfl)
@[simp] theorem State.setQuay_out (s : State) (q : Fin 4) (x : Quay) : (s.setQuay q x).out = s.out := (rfl)
@[simp] theorem State.setQuay_reply (s : State) (q : Fin 4) (x : Quay) : (s.setQuay q x).reply = s.reply := (rfl)
@[simp] theorem State.setQuay_imsic (s : State) (q : Fin 4) (x : Quay) : (s.setQuay q x).imsic = s.imsic := (rfl)
@[simp] theorem State.setQuay_faultFifo (s : State) (q : Fin 4) (x : Quay) : (s.setQuay q x).faultFifo = s.faultFifo := (rfl)
@[simp] theorem State.setQuay_mem (s : State) (q : Fin 4) (x : Quay) : (s.setQuay q x).mem = s.mem := (rfl)
@[simp] theorem State.setQuay_salv (s : State) (q : Fin 4) (x : Quay) : (s.setQuay q x).salv = s.salv := (rfl)
@[simp] theorem State.setQuay_shadows (s : State) (q : Fin 4) (x : Quay) : (s.setQuay q x).shadows = s.shadows := (rfl)
@[simp] theorem State.setQuay_customs (s : State) (q : Fin 4) (x : Quay) : (s.setQuay q x).customs = s.customs := (rfl)
@[simp] theorem State.setQuay_cam (s : State) (q : Fin 4) (x : Quay) : (s.setQuay q x).cam = s.cam := (rfl)
@[simp] theorem State.setQuay_camp (s : State) (q : Fin 4) (x : Quay) : (s.setQuay q x).camp = s.camp := (rfl)
@[simp] theorem State.setQuay_vis (s : State) (q : Fin 4) (x : Quay) : (s.setQuay q x).vis = s.vis := (rfl)
@[simp] theorem State.setQuay_ledger (s : State) (q : Fin 4) (x : Quay) : (s.setQuay q x).ledger = s.ledger := (rfl)
@[simp] theorem State.setQuay_snd (s : State) (q : Fin 4) (x : Quay) : (s.setQuay q x).snd = s.snd := (rfl)
@[simp] theorem State.setQuay_edge (s : State) (q : Fin 4) (x : Quay) : (s.setQuay q x).edge = s.edge := (rfl)
@[simp] theorem State.setQuay_prog (s : State) (q : Fin 4) (x : Quay) : (s.setQuay q x).prog = s.prog := (rfl)
@[simp] theorem State.setQuay_tender (s : State) (q : Fin 4) (x : Quay) : (s.setQuay q x).tender = s.tender := (rfl)
@[simp] theorem State.setQuay_timers (s : State) (q : Fin 4) (x : Quay) : (s.setQuay q x).timers = s.timers := (rfl)
@[simp] theorem State.setQuay_onnak (s : State) (q : Fin 4) (x : Quay) : (s.setQuay q x).onnak = s.onnak := (rfl)
@[simp] theorem State.setQuay_eth (s : State) (q : Fin 4) (x : Quay) : (s.setQuay q x).eth = s.eth := (rfl)
@[simp] theorem State.setQuay_gptp (s : State) (q : Fin 4) (x : Quay) : (s.setQuay q x).gptp = s.gptp := (rfl)
@[simp] theorem State.setQuay_cg (s : State) (q : Fin 4) (x : Quay) : (s.setQuay q x).cg = s.cg := (rfl)
@[simp] theorem State.setQuay_pmc (s : State) (q : Fin 4) (x : Quay) : (s.setQuay q x).pmc = s.pmc := (rfl)
@[simp] theorem State.setQuay_coldHeld (s : State) (q : Fin 4) (x : Quay) : (s.setQuay q x).coldHeld = s.coldHeld := (rfl)
@[simp] theorem State.setQuay_warmHeld (s : State) (q : Fin 4) (x : Quay) : (s.setQuay q x).warmHeld = s.warmHeld := (rfl)
@[simp] theorem State.setQuay_free (s : State) (q : Fin 4) (x : Quay) : (s.setQuay q x).free = s.free := (rfl)
@[simp] theorem State.setQuay_pending (s : State) (q : Fin 4) (x : Quay) : (s.setQuay q x).pending = s.pending := (rfl)
@[simp] theorem State.setQuay_reg (s : State) (q : Fin 4) (x : Quay) (r : Nat) : (s.setQuay q x).reg r = s.reg r := (rfl)
@[simp] theorem State.setQuay_reg64 (s : State) (q : Fin 4) (x : Quay) (r : Nat) : (s.setQuay q x).reg64 r = s.reg64 r := (rfl)

/-! modQuay changes quays alone. -/

@[simp] theorem State.modQuay_regs (s : State) (q : Fin 4) (f : Quay → Quay) : (s.modQuay q f).regs = s.regs := (rfl)
@[simp] theorem State.modQuay_captures (s : State) (q : Fin 4) (f : Quay → Quay) : (s.modQuay q f).captures = s.captures := (rfl)
@[simp] theorem State.modQuay_heldLo (s : State) (q : Fin 4) (f : Quay → Quay) : (s.modQuay q f).heldLo = s.heldLo := (rfl)
@[simp] theorem State.modQuay_time (s : State) (q : Fin 4) (f : Quay → Quay) : (s.modQuay q f).time = s.time := (rfl)
@[simp] theorem State.modQuay_out (s : State) (q : Fin 4) (f : Quay → Quay) : (s.modQuay q f).out = s.out := (rfl)
@[simp] theorem State.modQuay_reply (s : State) (q : Fin 4) (f : Quay → Quay) : (s.modQuay q f).reply = s.reply := (rfl)
@[simp] theorem State.modQuay_imsic (s : State) (q : Fin 4) (f : Quay → Quay) : (s.modQuay q f).imsic = s.imsic := (rfl)
@[simp] theorem State.modQuay_faultFifo (s : State) (q : Fin 4) (f : Quay → Quay) : (s.modQuay q f).faultFifo = s.faultFifo := (rfl)
@[simp] theorem State.modQuay_mem (s : State) (q : Fin 4) (f : Quay → Quay) : (s.modQuay q f).mem = s.mem := (rfl)
@[simp] theorem State.modQuay_salv (s : State) (q : Fin 4) (f : Quay → Quay) : (s.modQuay q f).salv = s.salv := (rfl)
@[simp] theorem State.modQuay_shadows (s : State) (q : Fin 4) (f : Quay → Quay) : (s.modQuay q f).shadows = s.shadows := (rfl)
@[simp] theorem State.modQuay_customs (s : State) (q : Fin 4) (f : Quay → Quay) : (s.modQuay q f).customs = s.customs := (rfl)
@[simp] theorem State.modQuay_cam (s : State) (q : Fin 4) (f : Quay → Quay) : (s.modQuay q f).cam = s.cam := (rfl)
@[simp] theorem State.modQuay_camp (s : State) (q : Fin 4) (f : Quay → Quay) : (s.modQuay q f).camp = s.camp := (rfl)
@[simp] theorem State.modQuay_vis (s : State) (q : Fin 4) (f : Quay → Quay) : (s.modQuay q f).vis = s.vis := (rfl)
@[simp] theorem State.modQuay_ledger (s : State) (q : Fin 4) (f : Quay → Quay) : (s.modQuay q f).ledger = s.ledger := (rfl)
@[simp] theorem State.modQuay_snd (s : State) (q : Fin 4) (f : Quay → Quay) : (s.modQuay q f).snd = s.snd := (rfl)
@[simp] theorem State.modQuay_edge (s : State) (q : Fin 4) (f : Quay → Quay) : (s.modQuay q f).edge = s.edge := (rfl)
@[simp] theorem State.modQuay_prog (s : State) (q : Fin 4) (f : Quay → Quay) : (s.modQuay q f).prog = s.prog := (rfl)
@[simp] theorem State.modQuay_tender (s : State) (q : Fin 4) (f : Quay → Quay) : (s.modQuay q f).tender = s.tender := (rfl)
@[simp] theorem State.modQuay_timers (s : State) (q : Fin 4) (f : Quay → Quay) : (s.modQuay q f).timers = s.timers := (rfl)
@[simp] theorem State.modQuay_onnak (s : State) (q : Fin 4) (f : Quay → Quay) : (s.modQuay q f).onnak = s.onnak := (rfl)
@[simp] theorem State.modQuay_eth (s : State) (q : Fin 4) (f : Quay → Quay) : (s.modQuay q f).eth = s.eth := (rfl)
@[simp] theorem State.modQuay_gptp (s : State) (q : Fin 4) (f : Quay → Quay) : (s.modQuay q f).gptp = s.gptp := (rfl)
@[simp] theorem State.modQuay_cg (s : State) (q : Fin 4) (f : Quay → Quay) : (s.modQuay q f).cg = s.cg := (rfl)
@[simp] theorem State.modQuay_pmc (s : State) (q : Fin 4) (f : Quay → Quay) : (s.modQuay q f).pmc = s.pmc := (rfl)
@[simp] theorem State.modQuay_coldHeld (s : State) (q : Fin 4) (f : Quay → Quay) : (s.modQuay q f).coldHeld = s.coldHeld := (rfl)
@[simp] theorem State.modQuay_warmHeld (s : State) (q : Fin 4) (f : Quay → Quay) : (s.modQuay q f).warmHeld = s.warmHeld := (rfl)
@[simp] theorem State.modQuay_free (s : State) (q : Fin 4) (f : Quay → Quay) : (s.modQuay q f).free = s.free := (rfl)
@[simp] theorem State.modQuay_pending (s : State) (q : Fin 4) (f : Quay → Quay) : (s.modQuay q f).pending = s.pending := (rfl)
@[simp] theorem State.modQuay_reg (s : State) (q : Fin 4) (f : Quay → Quay) (r : Nat) : (s.modQuay q f).reg r = s.reg r := (rfl)
@[simp] theorem State.modQuay_reg64 (s : State) (q : Fin 4) (f : Quay → Quay) (r : Nat) : (s.modQuay q f).reg64 r = s.reg64 r := (rfl)

/-! modSalv changes salv alone. -/

@[simp] theorem State.modSalv_regs (s : State) (q : Fin 4) (f : Salv → Salv) : (s.modSalv q f).regs = s.regs := (rfl)
@[simp] theorem State.modSalv_captures (s : State) (q : Fin 4) (f : Salv → Salv) : (s.modSalv q f).captures = s.captures := (rfl)
@[simp] theorem State.modSalv_heldLo (s : State) (q : Fin 4) (f : Salv → Salv) : (s.modSalv q f).heldLo = s.heldLo := (rfl)
@[simp] theorem State.modSalv_time (s : State) (q : Fin 4) (f : Salv → Salv) : (s.modSalv q f).time = s.time := (rfl)
@[simp] theorem State.modSalv_out (s : State) (q : Fin 4) (f : Salv → Salv) : (s.modSalv q f).out = s.out := (rfl)
@[simp] theorem State.modSalv_reply (s : State) (q : Fin 4) (f : Salv → Salv) : (s.modSalv q f).reply = s.reply := (rfl)
@[simp] theorem State.modSalv_imsic (s : State) (q : Fin 4) (f : Salv → Salv) : (s.modSalv q f).imsic = s.imsic := (rfl)
@[simp] theorem State.modSalv_quays (s : State) (q : Fin 4) (f : Salv → Salv) : (s.modSalv q f).quays = s.quays := (rfl)
@[simp] theorem State.modSalv_faultFifo (s : State) (q : Fin 4) (f : Salv → Salv) : (s.modSalv q f).faultFifo = s.faultFifo := (rfl)
@[simp] theorem State.modSalv_mem (s : State) (q : Fin 4) (f : Salv → Salv) : (s.modSalv q f).mem = s.mem := (rfl)
@[simp] theorem State.modSalv_shadows (s : State) (q : Fin 4) (f : Salv → Salv) : (s.modSalv q f).shadows = s.shadows := (rfl)
@[simp] theorem State.modSalv_customs (s : State) (q : Fin 4) (f : Salv → Salv) : (s.modSalv q f).customs = s.customs := (rfl)
@[simp] theorem State.modSalv_cam (s : State) (q : Fin 4) (f : Salv → Salv) : (s.modSalv q f).cam = s.cam := (rfl)
@[simp] theorem State.modSalv_camp (s : State) (q : Fin 4) (f : Salv → Salv) : (s.modSalv q f).camp = s.camp := (rfl)
@[simp] theorem State.modSalv_vis (s : State) (q : Fin 4) (f : Salv → Salv) : (s.modSalv q f).vis = s.vis := (rfl)
@[simp] theorem State.modSalv_ledger (s : State) (q : Fin 4) (f : Salv → Salv) : (s.modSalv q f).ledger = s.ledger := (rfl)
@[simp] theorem State.modSalv_snd (s : State) (q : Fin 4) (f : Salv → Salv) : (s.modSalv q f).snd = s.snd := (rfl)
@[simp] theorem State.modSalv_edge (s : State) (q : Fin 4) (f : Salv → Salv) : (s.modSalv q f).edge = s.edge := (rfl)
@[simp] theorem State.modSalv_prog (s : State) (q : Fin 4) (f : Salv → Salv) : (s.modSalv q f).prog = s.prog := (rfl)
@[simp] theorem State.modSalv_tender (s : State) (q : Fin 4) (f : Salv → Salv) : (s.modSalv q f).tender = s.tender := (rfl)
@[simp] theorem State.modSalv_timers (s : State) (q : Fin 4) (f : Salv → Salv) : (s.modSalv q f).timers = s.timers := (rfl)
@[simp] theorem State.modSalv_onnak (s : State) (q : Fin 4) (f : Salv → Salv) : (s.modSalv q f).onnak = s.onnak := (rfl)
@[simp] theorem State.modSalv_eth (s : State) (q : Fin 4) (f : Salv → Salv) : (s.modSalv q f).eth = s.eth := (rfl)
@[simp] theorem State.modSalv_gptp (s : State) (q : Fin 4) (f : Salv → Salv) : (s.modSalv q f).gptp = s.gptp := (rfl)
@[simp] theorem State.modSalv_cg (s : State) (q : Fin 4) (f : Salv → Salv) : (s.modSalv q f).cg = s.cg := (rfl)
@[simp] theorem State.modSalv_pmc (s : State) (q : Fin 4) (f : Salv → Salv) : (s.modSalv q f).pmc = s.pmc := (rfl)
@[simp] theorem State.modSalv_coldHeld (s : State) (q : Fin 4) (f : Salv → Salv) : (s.modSalv q f).coldHeld = s.coldHeld := (rfl)
@[simp] theorem State.modSalv_warmHeld (s : State) (q : Fin 4) (f : Salv → Salv) : (s.modSalv q f).warmHeld = s.warmHeld := (rfl)
@[simp] theorem State.modSalv_free (s : State) (q : Fin 4) (f : Salv → Salv) : (s.modSalv q f).free = s.free := (rfl)
@[simp] theorem State.modSalv_pending (s : State) (q : Fin 4) (f : Salv → Salv) : (s.modSalv q f).pending = s.pending := (rfl)
@[simp] theorem State.modSalv_reg (s : State) (q : Fin 4) (f : Salv → Salv) (r : Nat) : (s.modSalv q f).reg r = s.reg r := (rfl)
@[simp] theorem State.modSalv_reg64 (s : State) (q : Fin 4) (f : Salv → Salv) (r : Nat) : (s.modSalv q f).reg64 r = s.reg64 r := (rfl)

/-! modMem changes mem alone. -/

@[simp] theorem State.modMem_regs (s : State) (f : MemState → MemState) : (s.modMem f).regs = s.regs := (rfl)
@[simp] theorem State.modMem_captures (s : State) (f : MemState → MemState) : (s.modMem f).captures = s.captures := (rfl)
@[simp] theorem State.modMem_heldLo (s : State) (f : MemState → MemState) : (s.modMem f).heldLo = s.heldLo := (rfl)
@[simp] theorem State.modMem_time (s : State) (f : MemState → MemState) : (s.modMem f).time = s.time := (rfl)
@[simp] theorem State.modMem_out (s : State) (f : MemState → MemState) : (s.modMem f).out = s.out := (rfl)
@[simp] theorem State.modMem_reply (s : State) (f : MemState → MemState) : (s.modMem f).reply = s.reply := (rfl)
@[simp] theorem State.modMem_imsic (s : State) (f : MemState → MemState) : (s.modMem f).imsic = s.imsic := (rfl)
@[simp] theorem State.modMem_quays (s : State) (f : MemState → MemState) : (s.modMem f).quays = s.quays := (rfl)
@[simp] theorem State.modMem_faultFifo (s : State) (f : MemState → MemState) : (s.modMem f).faultFifo = s.faultFifo := (rfl)
@[simp] theorem State.modMem_salv (s : State) (f : MemState → MemState) : (s.modMem f).salv = s.salv := (rfl)
@[simp] theorem State.modMem_shadows (s : State) (f : MemState → MemState) : (s.modMem f).shadows = s.shadows := (rfl)
@[simp] theorem State.modMem_customs (s : State) (f : MemState → MemState) : (s.modMem f).customs = s.customs := (rfl)
@[simp] theorem State.modMem_cam (s : State) (f : MemState → MemState) : (s.modMem f).cam = s.cam := (rfl)
@[simp] theorem State.modMem_camp (s : State) (f : MemState → MemState) : (s.modMem f).camp = s.camp := (rfl)
@[simp] theorem State.modMem_vis (s : State) (f : MemState → MemState) : (s.modMem f).vis = s.vis := (rfl)
@[simp] theorem State.modMem_ledger (s : State) (f : MemState → MemState) : (s.modMem f).ledger = s.ledger := (rfl)
@[simp] theorem State.modMem_snd (s : State) (f : MemState → MemState) : (s.modMem f).snd = s.snd := (rfl)
@[simp] theorem State.modMem_edge (s : State) (f : MemState → MemState) : (s.modMem f).edge = s.edge := (rfl)
@[simp] theorem State.modMem_prog (s : State) (f : MemState → MemState) : (s.modMem f).prog = s.prog := (rfl)
@[simp] theorem State.modMem_tender (s : State) (f : MemState → MemState) : (s.modMem f).tender = s.tender := (rfl)
@[simp] theorem State.modMem_timers (s : State) (f : MemState → MemState) : (s.modMem f).timers = s.timers := (rfl)
@[simp] theorem State.modMem_onnak (s : State) (f : MemState → MemState) : (s.modMem f).onnak = s.onnak := (rfl)
@[simp] theorem State.modMem_eth (s : State) (f : MemState → MemState) : (s.modMem f).eth = s.eth := (rfl)
@[simp] theorem State.modMem_gptp (s : State) (f : MemState → MemState) : (s.modMem f).gptp = s.gptp := (rfl)
@[simp] theorem State.modMem_cg (s : State) (f : MemState → MemState) : (s.modMem f).cg = s.cg := (rfl)
@[simp] theorem State.modMem_pmc (s : State) (f : MemState → MemState) : (s.modMem f).pmc = s.pmc := (rfl)
@[simp] theorem State.modMem_coldHeld (s : State) (f : MemState → MemState) : (s.modMem f).coldHeld = s.coldHeld := (rfl)
@[simp] theorem State.modMem_warmHeld (s : State) (f : MemState → MemState) : (s.modMem f).warmHeld = s.warmHeld := (rfl)
@[simp] theorem State.modMem_free (s : State) (f : MemState → MemState) : (s.modMem f).free = s.free := (rfl)
@[simp] theorem State.modMem_pending (s : State) (f : MemState → MemState) : (s.modMem f).pending = s.pending := (rfl)
@[simp] theorem State.modMem_reg (s : State) (f : MemState → MemState) (r : Nat) : (s.modMem f).reg r = s.reg r := (rfl)
@[simp] theorem State.modMem_reg64 (s : State) (f : MemState → MemState) (r : Nat) : (s.modMem f).reg64 r = s.reg64 r := (rfl)

/-! modCustoms changes customs alone. -/

@[simp] theorem State.modCustoms_regs (s : State) (f : CustomsState → CustomsState) : (s.modCustoms f).regs = s.regs := (rfl)
@[simp] theorem State.modCustoms_captures (s : State) (f : CustomsState → CustomsState) : (s.modCustoms f).captures = s.captures := (rfl)
@[simp] theorem State.modCustoms_heldLo (s : State) (f : CustomsState → CustomsState) : (s.modCustoms f).heldLo = s.heldLo := (rfl)
@[simp] theorem State.modCustoms_time (s : State) (f : CustomsState → CustomsState) : (s.modCustoms f).time = s.time := (rfl)
@[simp] theorem State.modCustoms_out (s : State) (f : CustomsState → CustomsState) : (s.modCustoms f).out = s.out := (rfl)
@[simp] theorem State.modCustoms_reply (s : State) (f : CustomsState → CustomsState) : (s.modCustoms f).reply = s.reply := (rfl)
@[simp] theorem State.modCustoms_imsic (s : State) (f : CustomsState → CustomsState) : (s.modCustoms f).imsic = s.imsic := (rfl)
@[simp] theorem State.modCustoms_quays (s : State) (f : CustomsState → CustomsState) : (s.modCustoms f).quays = s.quays := (rfl)
@[simp] theorem State.modCustoms_faultFifo (s : State) (f : CustomsState → CustomsState) : (s.modCustoms f).faultFifo = s.faultFifo := (rfl)
@[simp] theorem State.modCustoms_mem (s : State) (f : CustomsState → CustomsState) : (s.modCustoms f).mem = s.mem := (rfl)
@[simp] theorem State.modCustoms_salv (s : State) (f : CustomsState → CustomsState) : (s.modCustoms f).salv = s.salv := (rfl)
@[simp] theorem State.modCustoms_shadows (s : State) (f : CustomsState → CustomsState) : (s.modCustoms f).shadows = s.shadows := (rfl)
@[simp] theorem State.modCustoms_cam (s : State) (f : CustomsState → CustomsState) : (s.modCustoms f).cam = s.cam := (rfl)
@[simp] theorem State.modCustoms_camp (s : State) (f : CustomsState → CustomsState) : (s.modCustoms f).camp = s.camp := (rfl)
@[simp] theorem State.modCustoms_vis (s : State) (f : CustomsState → CustomsState) : (s.modCustoms f).vis = s.vis := (rfl)
@[simp] theorem State.modCustoms_ledger (s : State) (f : CustomsState → CustomsState) : (s.modCustoms f).ledger = s.ledger := (rfl)
@[simp] theorem State.modCustoms_snd (s : State) (f : CustomsState → CustomsState) : (s.modCustoms f).snd = s.snd := (rfl)
@[simp] theorem State.modCustoms_edge (s : State) (f : CustomsState → CustomsState) : (s.modCustoms f).edge = s.edge := (rfl)
@[simp] theorem State.modCustoms_prog (s : State) (f : CustomsState → CustomsState) : (s.modCustoms f).prog = s.prog := (rfl)
@[simp] theorem State.modCustoms_tender (s : State) (f : CustomsState → CustomsState) : (s.modCustoms f).tender = s.tender := (rfl)
@[simp] theorem State.modCustoms_timers (s : State) (f : CustomsState → CustomsState) : (s.modCustoms f).timers = s.timers := (rfl)
@[simp] theorem State.modCustoms_onnak (s : State) (f : CustomsState → CustomsState) : (s.modCustoms f).onnak = s.onnak := (rfl)
@[simp] theorem State.modCustoms_eth (s : State) (f : CustomsState → CustomsState) : (s.modCustoms f).eth = s.eth := (rfl)
@[simp] theorem State.modCustoms_gptp (s : State) (f : CustomsState → CustomsState) : (s.modCustoms f).gptp = s.gptp := (rfl)
@[simp] theorem State.modCustoms_cg (s : State) (f : CustomsState → CustomsState) : (s.modCustoms f).cg = s.cg := (rfl)
@[simp] theorem State.modCustoms_pmc (s : State) (f : CustomsState → CustomsState) : (s.modCustoms f).pmc = s.pmc := (rfl)
@[simp] theorem State.modCustoms_coldHeld (s : State) (f : CustomsState → CustomsState) : (s.modCustoms f).coldHeld = s.coldHeld := (rfl)
@[simp] theorem State.modCustoms_warmHeld (s : State) (f : CustomsState → CustomsState) : (s.modCustoms f).warmHeld = s.warmHeld := (rfl)
@[simp] theorem State.modCustoms_free (s : State) (f : CustomsState → CustomsState) : (s.modCustoms f).free = s.free := (rfl)
@[simp] theorem State.modCustoms_pending (s : State) (f : CustomsState → CustomsState) : (s.modCustoms f).pending = s.pending := (rfl)
@[simp] theorem State.modCustoms_reg (s : State) (f : CustomsState → CustomsState) (r : Nat) : (s.modCustoms f).reg r = s.reg r := (rfl)
@[simp] theorem State.modCustoms_reg64 (s : State) (f : CustomsState → CustomsState) (r : Nat) : (s.modCustoms f).reg64 r = s.reg64 r := (rfl)

/-! modPmc changes pmc alone. -/

@[simp] theorem State.modPmc_regs (s : State) (f : PmcState → PmcState) : (s.modPmc f).regs = s.regs := (rfl)
@[simp] theorem State.modPmc_captures (s : State) (f : PmcState → PmcState) : (s.modPmc f).captures = s.captures := (rfl)
@[simp] theorem State.modPmc_heldLo (s : State) (f : PmcState → PmcState) : (s.modPmc f).heldLo = s.heldLo := (rfl)
@[simp] theorem State.modPmc_time (s : State) (f : PmcState → PmcState) : (s.modPmc f).time = s.time := (rfl)
@[simp] theorem State.modPmc_out (s : State) (f : PmcState → PmcState) : (s.modPmc f).out = s.out := (rfl)
@[simp] theorem State.modPmc_reply (s : State) (f : PmcState → PmcState) : (s.modPmc f).reply = s.reply := (rfl)
@[simp] theorem State.modPmc_imsic (s : State) (f : PmcState → PmcState) : (s.modPmc f).imsic = s.imsic := (rfl)
@[simp] theorem State.modPmc_quays (s : State) (f : PmcState → PmcState) : (s.modPmc f).quays = s.quays := (rfl)
@[simp] theorem State.modPmc_faultFifo (s : State) (f : PmcState → PmcState) : (s.modPmc f).faultFifo = s.faultFifo := (rfl)
@[simp] theorem State.modPmc_mem (s : State) (f : PmcState → PmcState) : (s.modPmc f).mem = s.mem := (rfl)
@[simp] theorem State.modPmc_salv (s : State) (f : PmcState → PmcState) : (s.modPmc f).salv = s.salv := (rfl)
@[simp] theorem State.modPmc_shadows (s : State) (f : PmcState → PmcState) : (s.modPmc f).shadows = s.shadows := (rfl)
@[simp] theorem State.modPmc_customs (s : State) (f : PmcState → PmcState) : (s.modPmc f).customs = s.customs := (rfl)
@[simp] theorem State.modPmc_cam (s : State) (f : PmcState → PmcState) : (s.modPmc f).cam = s.cam := (rfl)
@[simp] theorem State.modPmc_camp (s : State) (f : PmcState → PmcState) : (s.modPmc f).camp = s.camp := (rfl)
@[simp] theorem State.modPmc_vis (s : State) (f : PmcState → PmcState) : (s.modPmc f).vis = s.vis := (rfl)
@[simp] theorem State.modPmc_ledger (s : State) (f : PmcState → PmcState) : (s.modPmc f).ledger = s.ledger := (rfl)
@[simp] theorem State.modPmc_snd (s : State) (f : PmcState → PmcState) : (s.modPmc f).snd = s.snd := (rfl)
@[simp] theorem State.modPmc_edge (s : State) (f : PmcState → PmcState) : (s.modPmc f).edge = s.edge := (rfl)
@[simp] theorem State.modPmc_prog (s : State) (f : PmcState → PmcState) : (s.modPmc f).prog = s.prog := (rfl)
@[simp] theorem State.modPmc_tender (s : State) (f : PmcState → PmcState) : (s.modPmc f).tender = s.tender := (rfl)
@[simp] theorem State.modPmc_timers (s : State) (f : PmcState → PmcState) : (s.modPmc f).timers = s.timers := (rfl)
@[simp] theorem State.modPmc_onnak (s : State) (f : PmcState → PmcState) : (s.modPmc f).onnak = s.onnak := (rfl)
@[simp] theorem State.modPmc_eth (s : State) (f : PmcState → PmcState) : (s.modPmc f).eth = s.eth := (rfl)
@[simp] theorem State.modPmc_gptp (s : State) (f : PmcState → PmcState) : (s.modPmc f).gptp = s.gptp := (rfl)
@[simp] theorem State.modPmc_cg (s : State) (f : PmcState → PmcState) : (s.modPmc f).cg = s.cg := (rfl)
@[simp] theorem State.modPmc_coldHeld (s : State) (f : PmcState → PmcState) : (s.modPmc f).coldHeld = s.coldHeld := (rfl)
@[simp] theorem State.modPmc_warmHeld (s : State) (f : PmcState → PmcState) : (s.modPmc f).warmHeld = s.warmHeld := (rfl)
@[simp] theorem State.modPmc_free (s : State) (f : PmcState → PmcState) : (s.modPmc f).free = s.free := (rfl)
@[simp] theorem State.modPmc_pending (s : State) (f : PmcState → PmcState) : (s.modPmc f).pending = s.pending := (rfl)
@[simp] theorem State.modPmc_reg (s : State) (f : PmcState → PmcState) (r : Nat) : (s.modPmc f).reg r = s.reg r := (rfl)
@[simp] theorem State.modPmc_reg64 (s : State) (f : PmcState → PmcState) (r : Nat) : (s.modPmc f).reg64 r = s.reg64 r := (rfl)

/-! modCtx changes cam alone. -/

@[simp] theorem State.modCtx_regs (s : State) (c : Nat) (f : Ctx → Ctx) : (s.modCtx c f).regs = s.regs := (rfl)
@[simp] theorem State.modCtx_captures (s : State) (c : Nat) (f : Ctx → Ctx) : (s.modCtx c f).captures = s.captures := (rfl)
@[simp] theorem State.modCtx_heldLo (s : State) (c : Nat) (f : Ctx → Ctx) : (s.modCtx c f).heldLo = s.heldLo := (rfl)
@[simp] theorem State.modCtx_time (s : State) (c : Nat) (f : Ctx → Ctx) : (s.modCtx c f).time = s.time := (rfl)
@[simp] theorem State.modCtx_out (s : State) (c : Nat) (f : Ctx → Ctx) : (s.modCtx c f).out = s.out := (rfl)
@[simp] theorem State.modCtx_reply (s : State) (c : Nat) (f : Ctx → Ctx) : (s.modCtx c f).reply = s.reply := (rfl)
@[simp] theorem State.modCtx_imsic (s : State) (c : Nat) (f : Ctx → Ctx) : (s.modCtx c f).imsic = s.imsic := (rfl)
@[simp] theorem State.modCtx_quays (s : State) (c : Nat) (f : Ctx → Ctx) : (s.modCtx c f).quays = s.quays := (rfl)
@[simp] theorem State.modCtx_faultFifo (s : State) (c : Nat) (f : Ctx → Ctx) : (s.modCtx c f).faultFifo = s.faultFifo := (rfl)
@[simp] theorem State.modCtx_mem (s : State) (c : Nat) (f : Ctx → Ctx) : (s.modCtx c f).mem = s.mem := (rfl)
@[simp] theorem State.modCtx_salv (s : State) (c : Nat) (f : Ctx → Ctx) : (s.modCtx c f).salv = s.salv := (rfl)
@[simp] theorem State.modCtx_shadows (s : State) (c : Nat) (f : Ctx → Ctx) : (s.modCtx c f).shadows = s.shadows := (rfl)
@[simp] theorem State.modCtx_customs (s : State) (c : Nat) (f : Ctx → Ctx) : (s.modCtx c f).customs = s.customs := (rfl)
@[simp] theorem State.modCtx_camp (s : State) (c : Nat) (f : Ctx → Ctx) : (s.modCtx c f).camp = s.camp := (rfl)
@[simp] theorem State.modCtx_vis (s : State) (c : Nat) (f : Ctx → Ctx) : (s.modCtx c f).vis = s.vis := (rfl)
@[simp] theorem State.modCtx_ledger (s : State) (c : Nat) (f : Ctx → Ctx) : (s.modCtx c f).ledger = s.ledger := (rfl)
@[simp] theorem State.modCtx_snd (s : State) (c : Nat) (f : Ctx → Ctx) : (s.modCtx c f).snd = s.snd := (rfl)
@[simp] theorem State.modCtx_edge (s : State) (c : Nat) (f : Ctx → Ctx) : (s.modCtx c f).edge = s.edge := (rfl)
@[simp] theorem State.modCtx_prog (s : State) (c : Nat) (f : Ctx → Ctx) : (s.modCtx c f).prog = s.prog := (rfl)
@[simp] theorem State.modCtx_tender (s : State) (c : Nat) (f : Ctx → Ctx) : (s.modCtx c f).tender = s.tender := (rfl)
@[simp] theorem State.modCtx_timers (s : State) (c : Nat) (f : Ctx → Ctx) : (s.modCtx c f).timers = s.timers := (rfl)
@[simp] theorem State.modCtx_onnak (s : State) (c : Nat) (f : Ctx → Ctx) : (s.modCtx c f).onnak = s.onnak := (rfl)
@[simp] theorem State.modCtx_eth (s : State) (c : Nat) (f : Ctx → Ctx) : (s.modCtx c f).eth = s.eth := (rfl)
@[simp] theorem State.modCtx_gptp (s : State) (c : Nat) (f : Ctx → Ctx) : (s.modCtx c f).gptp = s.gptp := (rfl)
@[simp] theorem State.modCtx_cg (s : State) (c : Nat) (f : Ctx → Ctx) : (s.modCtx c f).cg = s.cg := (rfl)
@[simp] theorem State.modCtx_pmc (s : State) (c : Nat) (f : Ctx → Ctx) : (s.modCtx c f).pmc = s.pmc := (rfl)
@[simp] theorem State.modCtx_coldHeld (s : State) (c : Nat) (f : Ctx → Ctx) : (s.modCtx c f).coldHeld = s.coldHeld := (rfl)
@[simp] theorem State.modCtx_warmHeld (s : State) (c : Nat) (f : Ctx → Ctx) : (s.modCtx c f).warmHeld = s.warmHeld := (rfl)
@[simp] theorem State.modCtx_free (s : State) (c : Nat) (f : Ctx → Ctx) : (s.modCtx c f).free = s.free := (rfl)
@[simp] theorem State.modCtx_pending (s : State) (c : Nat) (f : Ctx → Ctx) : (s.modCtx c f).pending = s.pending := (rfl)
@[simp] theorem State.modCtx_reg (s : State) (c : Nat) (f : Ctx → Ctx) (r : Nat) : (s.modCtx c f).reg r = s.reg r := (rfl)
@[simp] theorem State.modCtx_reg64 (s : State) (c : Nat) (f : Ctx → Ctx) (r : Nat) : (s.modCtx c f).reg64 r = s.reg64 r := (rfl)

/-! modCur changes cam alone. -/

@[simp] theorem State.modCur_regs (s : State) (c : Nat) (f : StreamFrame → StreamFrame) : (s.modCur c f).regs = s.regs := (rfl)
@[simp] theorem State.modCur_captures (s : State) (c : Nat) (f : StreamFrame → StreamFrame) : (s.modCur c f).captures = s.captures := (rfl)
@[simp] theorem State.modCur_heldLo (s : State) (c : Nat) (f : StreamFrame → StreamFrame) : (s.modCur c f).heldLo = s.heldLo := (rfl)
@[simp] theorem State.modCur_time (s : State) (c : Nat) (f : StreamFrame → StreamFrame) : (s.modCur c f).time = s.time := (rfl)
@[simp] theorem State.modCur_out (s : State) (c : Nat) (f : StreamFrame → StreamFrame) : (s.modCur c f).out = s.out := (rfl)
@[simp] theorem State.modCur_reply (s : State) (c : Nat) (f : StreamFrame → StreamFrame) : (s.modCur c f).reply = s.reply := (rfl)
@[simp] theorem State.modCur_imsic (s : State) (c : Nat) (f : StreamFrame → StreamFrame) : (s.modCur c f).imsic = s.imsic := (rfl)
@[simp] theorem State.modCur_quays (s : State) (c : Nat) (f : StreamFrame → StreamFrame) : (s.modCur c f).quays = s.quays := (rfl)
@[simp] theorem State.modCur_faultFifo (s : State) (c : Nat) (f : StreamFrame → StreamFrame) : (s.modCur c f).faultFifo = s.faultFifo := (rfl)
@[simp] theorem State.modCur_mem (s : State) (c : Nat) (f : StreamFrame → StreamFrame) : (s.modCur c f).mem = s.mem := (rfl)
@[simp] theorem State.modCur_salv (s : State) (c : Nat) (f : StreamFrame → StreamFrame) : (s.modCur c f).salv = s.salv := (rfl)
@[simp] theorem State.modCur_shadows (s : State) (c : Nat) (f : StreamFrame → StreamFrame) : (s.modCur c f).shadows = s.shadows := (rfl)
@[simp] theorem State.modCur_customs (s : State) (c : Nat) (f : StreamFrame → StreamFrame) : (s.modCur c f).customs = s.customs := (rfl)
@[simp] theorem State.modCur_camp (s : State) (c : Nat) (f : StreamFrame → StreamFrame) : (s.modCur c f).camp = s.camp := (rfl)
@[simp] theorem State.modCur_vis (s : State) (c : Nat) (f : StreamFrame → StreamFrame) : (s.modCur c f).vis = s.vis := (rfl)
@[simp] theorem State.modCur_ledger (s : State) (c : Nat) (f : StreamFrame → StreamFrame) : (s.modCur c f).ledger = s.ledger := (rfl)
@[simp] theorem State.modCur_snd (s : State) (c : Nat) (f : StreamFrame → StreamFrame) : (s.modCur c f).snd = s.snd := (rfl)
@[simp] theorem State.modCur_edge (s : State) (c : Nat) (f : StreamFrame → StreamFrame) : (s.modCur c f).edge = s.edge := (rfl)
@[simp] theorem State.modCur_prog (s : State) (c : Nat) (f : StreamFrame → StreamFrame) : (s.modCur c f).prog = s.prog := (rfl)
@[simp] theorem State.modCur_tender (s : State) (c : Nat) (f : StreamFrame → StreamFrame) : (s.modCur c f).tender = s.tender := (rfl)
@[simp] theorem State.modCur_timers (s : State) (c : Nat) (f : StreamFrame → StreamFrame) : (s.modCur c f).timers = s.timers := (rfl)
@[simp] theorem State.modCur_onnak (s : State) (c : Nat) (f : StreamFrame → StreamFrame) : (s.modCur c f).onnak = s.onnak := (rfl)
@[simp] theorem State.modCur_eth (s : State) (c : Nat) (f : StreamFrame → StreamFrame) : (s.modCur c f).eth = s.eth := (rfl)
@[simp] theorem State.modCur_gptp (s : State) (c : Nat) (f : StreamFrame → StreamFrame) : (s.modCur c f).gptp = s.gptp := (rfl)
@[simp] theorem State.modCur_cg (s : State) (c : Nat) (f : StreamFrame → StreamFrame) : (s.modCur c f).cg = s.cg := (rfl)
@[simp] theorem State.modCur_pmc (s : State) (c : Nat) (f : StreamFrame → StreamFrame) : (s.modCur c f).pmc = s.pmc := (rfl)
@[simp] theorem State.modCur_coldHeld (s : State) (c : Nat) (f : StreamFrame → StreamFrame) : (s.modCur c f).coldHeld = s.coldHeld := (rfl)
@[simp] theorem State.modCur_warmHeld (s : State) (c : Nat) (f : StreamFrame → StreamFrame) : (s.modCur c f).warmHeld = s.warmHeld := (rfl)
@[simp] theorem State.modCur_free (s : State) (c : Nat) (f : StreamFrame → StreamFrame) : (s.modCur c f).free = s.free := (rfl)
@[simp] theorem State.modCur_pending (s : State) (c : Nat) (f : StreamFrame → StreamFrame) : (s.modCur c f).pending = s.pending := (rfl)
@[simp] theorem State.modCur_reg (s : State) (c : Nat) (f : StreamFrame → StreamFrame) (r : Nat) : (s.modCur c f).reg r = s.reg r := (rfl)
@[simp] theorem State.modCur_reg64 (s : State) (c : Nat) (f : StreamFrame → StreamFrame) (r : Nat) : (s.modCur c f).reg64 r = s.reg64 r := (rfl)

/-! modSlot changes camp alone. -/

@[simp] theorem State.modSlot_regs (s : State) (k : Nat) (f : CampSlot → CampSlot) : (s.modSlot k f).regs = s.regs := (rfl)
@[simp] theorem State.modSlot_captures (s : State) (k : Nat) (f : CampSlot → CampSlot) : (s.modSlot k f).captures = s.captures := (rfl)
@[simp] theorem State.modSlot_heldLo (s : State) (k : Nat) (f : CampSlot → CampSlot) : (s.modSlot k f).heldLo = s.heldLo := (rfl)
@[simp] theorem State.modSlot_time (s : State) (k : Nat) (f : CampSlot → CampSlot) : (s.modSlot k f).time = s.time := (rfl)
@[simp] theorem State.modSlot_out (s : State) (k : Nat) (f : CampSlot → CampSlot) : (s.modSlot k f).out = s.out := (rfl)
@[simp] theorem State.modSlot_reply (s : State) (k : Nat) (f : CampSlot → CampSlot) : (s.modSlot k f).reply = s.reply := (rfl)
@[simp] theorem State.modSlot_imsic (s : State) (k : Nat) (f : CampSlot → CampSlot) : (s.modSlot k f).imsic = s.imsic := (rfl)
@[simp] theorem State.modSlot_quays (s : State) (k : Nat) (f : CampSlot → CampSlot) : (s.modSlot k f).quays = s.quays := (rfl)
@[simp] theorem State.modSlot_faultFifo (s : State) (k : Nat) (f : CampSlot → CampSlot) : (s.modSlot k f).faultFifo = s.faultFifo := (rfl)
@[simp] theorem State.modSlot_mem (s : State) (k : Nat) (f : CampSlot → CampSlot) : (s.modSlot k f).mem = s.mem := (rfl)
@[simp] theorem State.modSlot_salv (s : State) (k : Nat) (f : CampSlot → CampSlot) : (s.modSlot k f).salv = s.salv := (rfl)
@[simp] theorem State.modSlot_shadows (s : State) (k : Nat) (f : CampSlot → CampSlot) : (s.modSlot k f).shadows = s.shadows := (rfl)
@[simp] theorem State.modSlot_customs (s : State) (k : Nat) (f : CampSlot → CampSlot) : (s.modSlot k f).customs = s.customs := (rfl)
@[simp] theorem State.modSlot_cam (s : State) (k : Nat) (f : CampSlot → CampSlot) : (s.modSlot k f).cam = s.cam := (rfl)
@[simp] theorem State.modSlot_vis (s : State) (k : Nat) (f : CampSlot → CampSlot) : (s.modSlot k f).vis = s.vis := (rfl)
@[simp] theorem State.modSlot_ledger (s : State) (k : Nat) (f : CampSlot → CampSlot) : (s.modSlot k f).ledger = s.ledger := (rfl)
@[simp] theorem State.modSlot_snd (s : State) (k : Nat) (f : CampSlot → CampSlot) : (s.modSlot k f).snd = s.snd := (rfl)
@[simp] theorem State.modSlot_edge (s : State) (k : Nat) (f : CampSlot → CampSlot) : (s.modSlot k f).edge = s.edge := (rfl)
@[simp] theorem State.modSlot_prog (s : State) (k : Nat) (f : CampSlot → CampSlot) : (s.modSlot k f).prog = s.prog := (rfl)
@[simp] theorem State.modSlot_tender (s : State) (k : Nat) (f : CampSlot → CampSlot) : (s.modSlot k f).tender = s.tender := (rfl)
@[simp] theorem State.modSlot_timers (s : State) (k : Nat) (f : CampSlot → CampSlot) : (s.modSlot k f).timers = s.timers := (rfl)
@[simp] theorem State.modSlot_onnak (s : State) (k : Nat) (f : CampSlot → CampSlot) : (s.modSlot k f).onnak = s.onnak := (rfl)
@[simp] theorem State.modSlot_eth (s : State) (k : Nat) (f : CampSlot → CampSlot) : (s.modSlot k f).eth = s.eth := (rfl)
@[simp] theorem State.modSlot_gptp (s : State) (k : Nat) (f : CampSlot → CampSlot) : (s.modSlot k f).gptp = s.gptp := (rfl)
@[simp] theorem State.modSlot_cg (s : State) (k : Nat) (f : CampSlot → CampSlot) : (s.modSlot k f).cg = s.cg := (rfl)
@[simp] theorem State.modSlot_pmc (s : State) (k : Nat) (f : CampSlot → CampSlot) : (s.modSlot k f).pmc = s.pmc := (rfl)
@[simp] theorem State.modSlot_coldHeld (s : State) (k : Nat) (f : CampSlot → CampSlot) : (s.modSlot k f).coldHeld = s.coldHeld := (rfl)
@[simp] theorem State.modSlot_warmHeld (s : State) (k : Nat) (f : CampSlot → CampSlot) : (s.modSlot k f).warmHeld = s.warmHeld := (rfl)
@[simp] theorem State.modSlot_free (s : State) (k : Nat) (f : CampSlot → CampSlot) : (s.modSlot k f).free = s.free := (rfl)
@[simp] theorem State.modSlot_pending (s : State) (k : Nat) (f : CampSlot → CampSlot) : (s.modSlot k f).pending = s.pending := (rfl)
@[simp] theorem State.modSlot_reg (s : State) (k : Nat) (f : CampSlot → CampSlot) (r : Nat) : (s.modSlot k f).reg r = s.reg r := (rfl)
@[simp] theorem State.modSlot_reg64 (s : State) (k : Nat) (f : CampSlot → CampSlot) (r : Nat) : (s.modSlot k f).reg64 r = s.reg64 r := (rfl)

/-! modEdge changes edge alone. -/

@[simp] theorem State.modEdge_regs (s : State) (k : Nat) (f : EdgeSrcSt → EdgeSrcSt) : (s.modEdge k f).regs = s.regs := (rfl)
@[simp] theorem State.modEdge_captures (s : State) (k : Nat) (f : EdgeSrcSt → EdgeSrcSt) : (s.modEdge k f).captures = s.captures := (rfl)
@[simp] theorem State.modEdge_heldLo (s : State) (k : Nat) (f : EdgeSrcSt → EdgeSrcSt) : (s.modEdge k f).heldLo = s.heldLo := (rfl)
@[simp] theorem State.modEdge_time (s : State) (k : Nat) (f : EdgeSrcSt → EdgeSrcSt) : (s.modEdge k f).time = s.time := (rfl)
@[simp] theorem State.modEdge_out (s : State) (k : Nat) (f : EdgeSrcSt → EdgeSrcSt) : (s.modEdge k f).out = s.out := (rfl)
@[simp] theorem State.modEdge_reply (s : State) (k : Nat) (f : EdgeSrcSt → EdgeSrcSt) : (s.modEdge k f).reply = s.reply := (rfl)
@[simp] theorem State.modEdge_imsic (s : State) (k : Nat) (f : EdgeSrcSt → EdgeSrcSt) : (s.modEdge k f).imsic = s.imsic := (rfl)
@[simp] theorem State.modEdge_quays (s : State) (k : Nat) (f : EdgeSrcSt → EdgeSrcSt) : (s.modEdge k f).quays = s.quays := (rfl)
@[simp] theorem State.modEdge_faultFifo (s : State) (k : Nat) (f : EdgeSrcSt → EdgeSrcSt) : (s.modEdge k f).faultFifo = s.faultFifo := (rfl)
@[simp] theorem State.modEdge_mem (s : State) (k : Nat) (f : EdgeSrcSt → EdgeSrcSt) : (s.modEdge k f).mem = s.mem := (rfl)
@[simp] theorem State.modEdge_salv (s : State) (k : Nat) (f : EdgeSrcSt → EdgeSrcSt) : (s.modEdge k f).salv = s.salv := (rfl)
@[simp] theorem State.modEdge_shadows (s : State) (k : Nat) (f : EdgeSrcSt → EdgeSrcSt) : (s.modEdge k f).shadows = s.shadows := (rfl)
@[simp] theorem State.modEdge_customs (s : State) (k : Nat) (f : EdgeSrcSt → EdgeSrcSt) : (s.modEdge k f).customs = s.customs := (rfl)
@[simp] theorem State.modEdge_cam (s : State) (k : Nat) (f : EdgeSrcSt → EdgeSrcSt) : (s.modEdge k f).cam = s.cam := (rfl)
@[simp] theorem State.modEdge_camp (s : State) (k : Nat) (f : EdgeSrcSt → EdgeSrcSt) : (s.modEdge k f).camp = s.camp := (rfl)
@[simp] theorem State.modEdge_vis (s : State) (k : Nat) (f : EdgeSrcSt → EdgeSrcSt) : (s.modEdge k f).vis = s.vis := (rfl)
@[simp] theorem State.modEdge_ledger (s : State) (k : Nat) (f : EdgeSrcSt → EdgeSrcSt) : (s.modEdge k f).ledger = s.ledger := (rfl)
@[simp] theorem State.modEdge_snd (s : State) (k : Nat) (f : EdgeSrcSt → EdgeSrcSt) : (s.modEdge k f).snd = s.snd := (rfl)
@[simp] theorem State.modEdge_prog (s : State) (k : Nat) (f : EdgeSrcSt → EdgeSrcSt) : (s.modEdge k f).prog = s.prog := (rfl)
@[simp] theorem State.modEdge_tender (s : State) (k : Nat) (f : EdgeSrcSt → EdgeSrcSt) : (s.modEdge k f).tender = s.tender := (rfl)
@[simp] theorem State.modEdge_timers (s : State) (k : Nat) (f : EdgeSrcSt → EdgeSrcSt) : (s.modEdge k f).timers = s.timers := (rfl)
@[simp] theorem State.modEdge_onnak (s : State) (k : Nat) (f : EdgeSrcSt → EdgeSrcSt) : (s.modEdge k f).onnak = s.onnak := (rfl)
@[simp] theorem State.modEdge_eth (s : State) (k : Nat) (f : EdgeSrcSt → EdgeSrcSt) : (s.modEdge k f).eth = s.eth := (rfl)
@[simp] theorem State.modEdge_gptp (s : State) (k : Nat) (f : EdgeSrcSt → EdgeSrcSt) : (s.modEdge k f).gptp = s.gptp := (rfl)
@[simp] theorem State.modEdge_cg (s : State) (k : Nat) (f : EdgeSrcSt → EdgeSrcSt) : (s.modEdge k f).cg = s.cg := (rfl)
@[simp] theorem State.modEdge_pmc (s : State) (k : Nat) (f : EdgeSrcSt → EdgeSrcSt) : (s.modEdge k f).pmc = s.pmc := (rfl)
@[simp] theorem State.modEdge_coldHeld (s : State) (k : Nat) (f : EdgeSrcSt → EdgeSrcSt) : (s.modEdge k f).coldHeld = s.coldHeld := (rfl)
@[simp] theorem State.modEdge_warmHeld (s : State) (k : Nat) (f : EdgeSrcSt → EdgeSrcSt) : (s.modEdge k f).warmHeld = s.warmHeld := (rfl)
@[simp] theorem State.modEdge_free (s : State) (k : Nat) (f : EdgeSrcSt → EdgeSrcSt) : (s.modEdge k f).free = s.free := (rfl)
@[simp] theorem State.modEdge_pending (s : State) (k : Nat) (f : EdgeSrcSt → EdgeSrcSt) : (s.modEdge k f).pending = s.pending := (rfl)
@[simp] theorem State.modEdge_reg (s : State) (k : Nat) (f : EdgeSrcSt → EdgeSrcSt) (r : Nat) : (s.modEdge k f).reg r = s.reg r := (rfl)
@[simp] theorem State.modEdge_reg64 (s : State) (k : Nat) (f : EdgeSrcSt → EdgeSrcSt) (r : Nat) : (s.modEdge k f).reg64 r = s.reg64 r := (rfl)

/-! modChan changes tender alone. -/

@[simp] theorem State.modChan_regs (s : State) (n : Nat) (f : TChan → TChan) : (s.modChan n f).regs = s.regs := (rfl)
@[simp] theorem State.modChan_captures (s : State) (n : Nat) (f : TChan → TChan) : (s.modChan n f).captures = s.captures := (rfl)
@[simp] theorem State.modChan_heldLo (s : State) (n : Nat) (f : TChan → TChan) : (s.modChan n f).heldLo = s.heldLo := (rfl)
@[simp] theorem State.modChan_time (s : State) (n : Nat) (f : TChan → TChan) : (s.modChan n f).time = s.time := (rfl)
@[simp] theorem State.modChan_out (s : State) (n : Nat) (f : TChan → TChan) : (s.modChan n f).out = s.out := (rfl)
@[simp] theorem State.modChan_reply (s : State) (n : Nat) (f : TChan → TChan) : (s.modChan n f).reply = s.reply := (rfl)
@[simp] theorem State.modChan_imsic (s : State) (n : Nat) (f : TChan → TChan) : (s.modChan n f).imsic = s.imsic := (rfl)
@[simp] theorem State.modChan_quays (s : State) (n : Nat) (f : TChan → TChan) : (s.modChan n f).quays = s.quays := (rfl)
@[simp] theorem State.modChan_faultFifo (s : State) (n : Nat) (f : TChan → TChan) : (s.modChan n f).faultFifo = s.faultFifo := (rfl)
@[simp] theorem State.modChan_mem (s : State) (n : Nat) (f : TChan → TChan) : (s.modChan n f).mem = s.mem := (rfl)
@[simp] theorem State.modChan_salv (s : State) (n : Nat) (f : TChan → TChan) : (s.modChan n f).salv = s.salv := (rfl)
@[simp] theorem State.modChan_shadows (s : State) (n : Nat) (f : TChan → TChan) : (s.modChan n f).shadows = s.shadows := (rfl)
@[simp] theorem State.modChan_customs (s : State) (n : Nat) (f : TChan → TChan) : (s.modChan n f).customs = s.customs := (rfl)
@[simp] theorem State.modChan_cam (s : State) (n : Nat) (f : TChan → TChan) : (s.modChan n f).cam = s.cam := (rfl)
@[simp] theorem State.modChan_camp (s : State) (n : Nat) (f : TChan → TChan) : (s.modChan n f).camp = s.camp := (rfl)
@[simp] theorem State.modChan_vis (s : State) (n : Nat) (f : TChan → TChan) : (s.modChan n f).vis = s.vis := (rfl)
@[simp] theorem State.modChan_ledger (s : State) (n : Nat) (f : TChan → TChan) : (s.modChan n f).ledger = s.ledger := (rfl)
@[simp] theorem State.modChan_snd (s : State) (n : Nat) (f : TChan → TChan) : (s.modChan n f).snd = s.snd := (rfl)
@[simp] theorem State.modChan_edge (s : State) (n : Nat) (f : TChan → TChan) : (s.modChan n f).edge = s.edge := (rfl)
@[simp] theorem State.modChan_prog (s : State) (n : Nat) (f : TChan → TChan) : (s.modChan n f).prog = s.prog := (rfl)
@[simp] theorem State.modChan_timers (s : State) (n : Nat) (f : TChan → TChan) : (s.modChan n f).timers = s.timers := (rfl)
@[simp] theorem State.modChan_onnak (s : State) (n : Nat) (f : TChan → TChan) : (s.modChan n f).onnak = s.onnak := (rfl)
@[simp] theorem State.modChan_eth (s : State) (n : Nat) (f : TChan → TChan) : (s.modChan n f).eth = s.eth := (rfl)
@[simp] theorem State.modChan_gptp (s : State) (n : Nat) (f : TChan → TChan) : (s.modChan n f).gptp = s.gptp := (rfl)
@[simp] theorem State.modChan_cg (s : State) (n : Nat) (f : TChan → TChan) : (s.modChan n f).cg = s.cg := (rfl)
@[simp] theorem State.modChan_pmc (s : State) (n : Nat) (f : TChan → TChan) : (s.modChan n f).pmc = s.pmc := (rfl)
@[simp] theorem State.modChan_coldHeld (s : State) (n : Nat) (f : TChan → TChan) : (s.modChan n f).coldHeld = s.coldHeld := (rfl)
@[simp] theorem State.modChan_warmHeld (s : State) (n : Nat) (f : TChan → TChan) : (s.modChan n f).warmHeld = s.warmHeld := (rfl)
@[simp] theorem State.modChan_free (s : State) (n : Nat) (f : TChan → TChan) : (s.modChan n f).free = s.free := (rfl)
@[simp] theorem State.modChan_pending (s : State) (n : Nat) (f : TChan → TChan) : (s.modChan n f).pending = s.pending := (rfl)
@[simp] theorem State.modChan_reg (s : State) (n : Nat) (f : TChan → TChan) (r : Nat) : (s.modChan n f).reg r = s.reg r := (rfl)
@[simp] theorem State.modChan_reg64 (s : State) (n : Nat) (f : TChan → TChan) (r : Nat) : (s.modChan n f).reg64 r = s.reg64 r := (rfl)

/-! modPeer changes onnak alone. -/

@[simp] theorem State.modPeer_regs (s : State) (n : Nat) (f : Peer → Peer) : (s.modPeer n f).regs = s.regs := (rfl)
@[simp] theorem State.modPeer_captures (s : State) (n : Nat) (f : Peer → Peer) : (s.modPeer n f).captures = s.captures := (rfl)
@[simp] theorem State.modPeer_heldLo (s : State) (n : Nat) (f : Peer → Peer) : (s.modPeer n f).heldLo = s.heldLo := (rfl)
@[simp] theorem State.modPeer_time (s : State) (n : Nat) (f : Peer → Peer) : (s.modPeer n f).time = s.time := (rfl)
@[simp] theorem State.modPeer_out (s : State) (n : Nat) (f : Peer → Peer) : (s.modPeer n f).out = s.out := (rfl)
@[simp] theorem State.modPeer_reply (s : State) (n : Nat) (f : Peer → Peer) : (s.modPeer n f).reply = s.reply := (rfl)
@[simp] theorem State.modPeer_imsic (s : State) (n : Nat) (f : Peer → Peer) : (s.modPeer n f).imsic = s.imsic := (rfl)
@[simp] theorem State.modPeer_quays (s : State) (n : Nat) (f : Peer → Peer) : (s.modPeer n f).quays = s.quays := (rfl)
@[simp] theorem State.modPeer_faultFifo (s : State) (n : Nat) (f : Peer → Peer) : (s.modPeer n f).faultFifo = s.faultFifo := (rfl)
@[simp] theorem State.modPeer_mem (s : State) (n : Nat) (f : Peer → Peer) : (s.modPeer n f).mem = s.mem := (rfl)
@[simp] theorem State.modPeer_salv (s : State) (n : Nat) (f : Peer → Peer) : (s.modPeer n f).salv = s.salv := (rfl)
@[simp] theorem State.modPeer_shadows (s : State) (n : Nat) (f : Peer → Peer) : (s.modPeer n f).shadows = s.shadows := (rfl)
@[simp] theorem State.modPeer_customs (s : State) (n : Nat) (f : Peer → Peer) : (s.modPeer n f).customs = s.customs := (rfl)
@[simp] theorem State.modPeer_cam (s : State) (n : Nat) (f : Peer → Peer) : (s.modPeer n f).cam = s.cam := (rfl)
@[simp] theorem State.modPeer_camp (s : State) (n : Nat) (f : Peer → Peer) : (s.modPeer n f).camp = s.camp := (rfl)
@[simp] theorem State.modPeer_vis (s : State) (n : Nat) (f : Peer → Peer) : (s.modPeer n f).vis = s.vis := (rfl)
@[simp] theorem State.modPeer_ledger (s : State) (n : Nat) (f : Peer → Peer) : (s.modPeer n f).ledger = s.ledger := (rfl)
@[simp] theorem State.modPeer_snd (s : State) (n : Nat) (f : Peer → Peer) : (s.modPeer n f).snd = s.snd := (rfl)
@[simp] theorem State.modPeer_edge (s : State) (n : Nat) (f : Peer → Peer) : (s.modPeer n f).edge = s.edge := (rfl)
@[simp] theorem State.modPeer_prog (s : State) (n : Nat) (f : Peer → Peer) : (s.modPeer n f).prog = s.prog := (rfl)
@[simp] theorem State.modPeer_tender (s : State) (n : Nat) (f : Peer → Peer) : (s.modPeer n f).tender = s.tender := (rfl)
@[simp] theorem State.modPeer_timers (s : State) (n : Nat) (f : Peer → Peer) : (s.modPeer n f).timers = s.timers := (rfl)
@[simp] theorem State.modPeer_eth (s : State) (n : Nat) (f : Peer → Peer) : (s.modPeer n f).eth = s.eth := (rfl)
@[simp] theorem State.modPeer_gptp (s : State) (n : Nat) (f : Peer → Peer) : (s.modPeer n f).gptp = s.gptp := (rfl)
@[simp] theorem State.modPeer_cg (s : State) (n : Nat) (f : Peer → Peer) : (s.modPeer n f).cg = s.cg := (rfl)
@[simp] theorem State.modPeer_pmc (s : State) (n : Nat) (f : Peer → Peer) : (s.modPeer n f).pmc = s.pmc := (rfl)
@[simp] theorem State.modPeer_coldHeld (s : State) (n : Nat) (f : Peer → Peer) : (s.modPeer n f).coldHeld = s.coldHeld := (rfl)
@[simp] theorem State.modPeer_warmHeld (s : State) (n : Nat) (f : Peer → Peer) : (s.modPeer n f).warmHeld = s.warmHeld := (rfl)
@[simp] theorem State.modPeer_free (s : State) (n : Nat) (f : Peer → Peer) : (s.modPeer n f).free = s.free := (rfl)
@[simp] theorem State.modPeer_pending (s : State) (n : Nat) (f : Peer → Peer) : (s.modPeer n f).pending = s.pending := (rfl)
@[simp] theorem State.modPeer_reg (s : State) (n : Nat) (f : Peer → Peer) (r : Nat) : (s.modPeer n f).reg r = s.reg r := (rfl)
@[simp] theorem State.modPeer_reg64 (s : State) (n : Nat) (f : Peer → Peer) (r : Nat) : (s.modPeer n f).reg64 r = s.reg64 r := (rfl)

/-! cgSignal changes cg alone. -/

@[simp] theorem State.cgSignal_regs (s : State) (c : Nat) (n : FrameNo) : (s.cgSignal c n).regs = s.regs := (rfl)
@[simp] theorem State.cgSignal_captures (s : State) (c : Nat) (n : FrameNo) : (s.cgSignal c n).captures = s.captures := (rfl)
@[simp] theorem State.cgSignal_heldLo (s : State) (c : Nat) (n : FrameNo) : (s.cgSignal c n).heldLo = s.heldLo := (rfl)
@[simp] theorem State.cgSignal_time (s : State) (c : Nat) (n : FrameNo) : (s.cgSignal c n).time = s.time := (rfl)
@[simp] theorem State.cgSignal_out (s : State) (c : Nat) (n : FrameNo) : (s.cgSignal c n).out = s.out := (rfl)
@[simp] theorem State.cgSignal_reply (s : State) (c : Nat) (n : FrameNo) : (s.cgSignal c n).reply = s.reply := (rfl)
@[simp] theorem State.cgSignal_imsic (s : State) (c : Nat) (n : FrameNo) : (s.cgSignal c n).imsic = s.imsic := (rfl)
@[simp] theorem State.cgSignal_quays (s : State) (c : Nat) (n : FrameNo) : (s.cgSignal c n).quays = s.quays := (rfl)
@[simp] theorem State.cgSignal_faultFifo (s : State) (c : Nat) (n : FrameNo) : (s.cgSignal c n).faultFifo = s.faultFifo := (rfl)
@[simp] theorem State.cgSignal_mem (s : State) (c : Nat) (n : FrameNo) : (s.cgSignal c n).mem = s.mem := (rfl)
@[simp] theorem State.cgSignal_salv (s : State) (c : Nat) (n : FrameNo) : (s.cgSignal c n).salv = s.salv := (rfl)
@[simp] theorem State.cgSignal_shadows (s : State) (c : Nat) (n : FrameNo) : (s.cgSignal c n).shadows = s.shadows := (rfl)
@[simp] theorem State.cgSignal_customs (s : State) (c : Nat) (n : FrameNo) : (s.cgSignal c n).customs = s.customs := (rfl)
@[simp] theorem State.cgSignal_cam (s : State) (c : Nat) (n : FrameNo) : (s.cgSignal c n).cam = s.cam := (rfl)
@[simp] theorem State.cgSignal_camp (s : State) (c : Nat) (n : FrameNo) : (s.cgSignal c n).camp = s.camp := (rfl)
@[simp] theorem State.cgSignal_vis (s : State) (c : Nat) (n : FrameNo) : (s.cgSignal c n).vis = s.vis := (rfl)
@[simp] theorem State.cgSignal_ledger (s : State) (c : Nat) (n : FrameNo) : (s.cgSignal c n).ledger = s.ledger := (rfl)
@[simp] theorem State.cgSignal_snd (s : State) (c : Nat) (n : FrameNo) : (s.cgSignal c n).snd = s.snd := (rfl)
@[simp] theorem State.cgSignal_edge (s : State) (c : Nat) (n : FrameNo) : (s.cgSignal c n).edge = s.edge := (rfl)
@[simp] theorem State.cgSignal_prog (s : State) (c : Nat) (n : FrameNo) : (s.cgSignal c n).prog = s.prog := (rfl)
@[simp] theorem State.cgSignal_tender (s : State) (c : Nat) (n : FrameNo) : (s.cgSignal c n).tender = s.tender := (rfl)
@[simp] theorem State.cgSignal_timers (s : State) (c : Nat) (n : FrameNo) : (s.cgSignal c n).timers = s.timers := (rfl)
@[simp] theorem State.cgSignal_onnak (s : State) (c : Nat) (n : FrameNo) : (s.cgSignal c n).onnak = s.onnak := (rfl)
@[simp] theorem State.cgSignal_eth (s : State) (c : Nat) (n : FrameNo) : (s.cgSignal c n).eth = s.eth := (rfl)
@[simp] theorem State.cgSignal_gptp (s : State) (c : Nat) (n : FrameNo) : (s.cgSignal c n).gptp = s.gptp := (rfl)
@[simp] theorem State.cgSignal_pmc (s : State) (c : Nat) (n : FrameNo) : (s.cgSignal c n).pmc = s.pmc := (rfl)
@[simp] theorem State.cgSignal_coldHeld (s : State) (c : Nat) (n : FrameNo) : (s.cgSignal c n).coldHeld = s.coldHeld := (rfl)
@[simp] theorem State.cgSignal_warmHeld (s : State) (c : Nat) (n : FrameNo) : (s.cgSignal c n).warmHeld = s.warmHeld := (rfl)
@[simp] theorem State.cgSignal_free (s : State) (c : Nat) (n : FrameNo) : (s.cgSignal c n).free = s.free := (rfl)
@[simp] theorem State.cgSignal_pending (s : State) (c : Nat) (n : FrameNo) : (s.cgSignal c n).pending = s.pending := (rfl)
@[simp] theorem State.cgSignal_reg (s : State) (c : Nat) (n : FrameNo) (r : Nat) : (s.cgSignal c n).reg r = s.reg r := (rfl)
@[simp] theorem State.cgSignal_reg64 (s : State) (c : Nat) (n : FrameNo) (r : Nat) : (s.cgSignal c n).reg64 r = s.reg64 r := (rfl)

/-! setI3c changes cam alone. -/

@[simp] theorem State.setI3c_regs (s : State) (i : Nat) (b : Option I3cBusy) : (s.setI3c i b).regs = s.regs := (rfl)
@[simp] theorem State.setI3c_captures (s : State) (i : Nat) (b : Option I3cBusy) : (s.setI3c i b).captures = s.captures := (rfl)
@[simp] theorem State.setI3c_heldLo (s : State) (i : Nat) (b : Option I3cBusy) : (s.setI3c i b).heldLo = s.heldLo := (rfl)
@[simp] theorem State.setI3c_time (s : State) (i : Nat) (b : Option I3cBusy) : (s.setI3c i b).time = s.time := (rfl)
@[simp] theorem State.setI3c_out (s : State) (i : Nat) (b : Option I3cBusy) : (s.setI3c i b).out = s.out := (rfl)
@[simp] theorem State.setI3c_reply (s : State) (i : Nat) (b : Option I3cBusy) : (s.setI3c i b).reply = s.reply := (rfl)
@[simp] theorem State.setI3c_imsic (s : State) (i : Nat) (b : Option I3cBusy) : (s.setI3c i b).imsic = s.imsic := (rfl)
@[simp] theorem State.setI3c_quays (s : State) (i : Nat) (b : Option I3cBusy) : (s.setI3c i b).quays = s.quays := (rfl)
@[simp] theorem State.setI3c_faultFifo (s : State) (i : Nat) (b : Option I3cBusy) : (s.setI3c i b).faultFifo = s.faultFifo := (rfl)
@[simp] theorem State.setI3c_mem (s : State) (i : Nat) (b : Option I3cBusy) : (s.setI3c i b).mem = s.mem := (rfl)
@[simp] theorem State.setI3c_salv (s : State) (i : Nat) (b : Option I3cBusy) : (s.setI3c i b).salv = s.salv := (rfl)
@[simp] theorem State.setI3c_shadows (s : State) (i : Nat) (b : Option I3cBusy) : (s.setI3c i b).shadows = s.shadows := (rfl)
@[simp] theorem State.setI3c_customs (s : State) (i : Nat) (b : Option I3cBusy) : (s.setI3c i b).customs = s.customs := (rfl)
@[simp] theorem State.setI3c_camp (s : State) (i : Nat) (b : Option I3cBusy) : (s.setI3c i b).camp = s.camp := (rfl)
@[simp] theorem State.setI3c_vis (s : State) (i : Nat) (b : Option I3cBusy) : (s.setI3c i b).vis = s.vis := (rfl)
@[simp] theorem State.setI3c_ledger (s : State) (i : Nat) (b : Option I3cBusy) : (s.setI3c i b).ledger = s.ledger := (rfl)
@[simp] theorem State.setI3c_snd (s : State) (i : Nat) (b : Option I3cBusy) : (s.setI3c i b).snd = s.snd := (rfl)
@[simp] theorem State.setI3c_edge (s : State) (i : Nat) (b : Option I3cBusy) : (s.setI3c i b).edge = s.edge := (rfl)
@[simp] theorem State.setI3c_prog (s : State) (i : Nat) (b : Option I3cBusy) : (s.setI3c i b).prog = s.prog := (rfl)
@[simp] theorem State.setI3c_tender (s : State) (i : Nat) (b : Option I3cBusy) : (s.setI3c i b).tender = s.tender := (rfl)
@[simp] theorem State.setI3c_timers (s : State) (i : Nat) (b : Option I3cBusy) : (s.setI3c i b).timers = s.timers := (rfl)
@[simp] theorem State.setI3c_onnak (s : State) (i : Nat) (b : Option I3cBusy) : (s.setI3c i b).onnak = s.onnak := (rfl)
@[simp] theorem State.setI3c_eth (s : State) (i : Nat) (b : Option I3cBusy) : (s.setI3c i b).eth = s.eth := (rfl)
@[simp] theorem State.setI3c_gptp (s : State) (i : Nat) (b : Option I3cBusy) : (s.setI3c i b).gptp = s.gptp := (rfl)
@[simp] theorem State.setI3c_cg (s : State) (i : Nat) (b : Option I3cBusy) : (s.setI3c i b).cg = s.cg := (rfl)
@[simp] theorem State.setI3c_pmc (s : State) (i : Nat) (b : Option I3cBusy) : (s.setI3c i b).pmc = s.pmc := (rfl)
@[simp] theorem State.setI3c_coldHeld (s : State) (i : Nat) (b : Option I3cBusy) : (s.setI3c i b).coldHeld = s.coldHeld := (rfl)
@[simp] theorem State.setI3c_warmHeld (s : State) (i : Nat) (b : Option I3cBusy) : (s.setI3c i b).warmHeld = s.warmHeld := (rfl)
@[simp] theorem State.setI3c_free (s : State) (i : Nat) (b : Option I3cBusy) : (s.setI3c i b).free = s.free := (rfl)
@[simp] theorem State.setI3c_pending (s : State) (i : Nat) (b : Option I3cBusy) : (s.setI3c i b).pending = s.pending := (rfl)
@[simp] theorem State.setI3c_reg (s : State) (i : Nat) (b : Option I3cBusy) (r : Nat) : (s.setI3c i b).reg r = s.reg r := (rfl)
@[simp] theorem State.setI3c_reg64 (s : State) (i : Nat) (b : Option I3cBusy) (r : Nat) : (s.setI3c i b).reg64 r = s.reg64 r := (rfl)

/-! setSpi changes cam alone. -/

@[simp] theorem State.setSpi_regs (s : State) (p : Nat) (x : SpiPort) : (s.setSpi p x).regs = s.regs := (rfl)
@[simp] theorem State.setSpi_captures (s : State) (p : Nat) (x : SpiPort) : (s.setSpi p x).captures = s.captures := (rfl)
@[simp] theorem State.setSpi_heldLo (s : State) (p : Nat) (x : SpiPort) : (s.setSpi p x).heldLo = s.heldLo := (rfl)
@[simp] theorem State.setSpi_time (s : State) (p : Nat) (x : SpiPort) : (s.setSpi p x).time = s.time := (rfl)
@[simp] theorem State.setSpi_out (s : State) (p : Nat) (x : SpiPort) : (s.setSpi p x).out = s.out := (rfl)
@[simp] theorem State.setSpi_reply (s : State) (p : Nat) (x : SpiPort) : (s.setSpi p x).reply = s.reply := (rfl)
@[simp] theorem State.setSpi_imsic (s : State) (p : Nat) (x : SpiPort) : (s.setSpi p x).imsic = s.imsic := (rfl)
@[simp] theorem State.setSpi_quays (s : State) (p : Nat) (x : SpiPort) : (s.setSpi p x).quays = s.quays := (rfl)
@[simp] theorem State.setSpi_faultFifo (s : State) (p : Nat) (x : SpiPort) : (s.setSpi p x).faultFifo = s.faultFifo := (rfl)
@[simp] theorem State.setSpi_mem (s : State) (p : Nat) (x : SpiPort) : (s.setSpi p x).mem = s.mem := (rfl)
@[simp] theorem State.setSpi_salv (s : State) (p : Nat) (x : SpiPort) : (s.setSpi p x).salv = s.salv := (rfl)
@[simp] theorem State.setSpi_shadows (s : State) (p : Nat) (x : SpiPort) : (s.setSpi p x).shadows = s.shadows := (rfl)
@[simp] theorem State.setSpi_customs (s : State) (p : Nat) (x : SpiPort) : (s.setSpi p x).customs = s.customs := (rfl)
@[simp] theorem State.setSpi_camp (s : State) (p : Nat) (x : SpiPort) : (s.setSpi p x).camp = s.camp := (rfl)
@[simp] theorem State.setSpi_vis (s : State) (p : Nat) (x : SpiPort) : (s.setSpi p x).vis = s.vis := (rfl)
@[simp] theorem State.setSpi_ledger (s : State) (p : Nat) (x : SpiPort) : (s.setSpi p x).ledger = s.ledger := (rfl)
@[simp] theorem State.setSpi_snd (s : State) (p : Nat) (x : SpiPort) : (s.setSpi p x).snd = s.snd := (rfl)
@[simp] theorem State.setSpi_edge (s : State) (p : Nat) (x : SpiPort) : (s.setSpi p x).edge = s.edge := (rfl)
@[simp] theorem State.setSpi_prog (s : State) (p : Nat) (x : SpiPort) : (s.setSpi p x).prog = s.prog := (rfl)
@[simp] theorem State.setSpi_tender (s : State) (p : Nat) (x : SpiPort) : (s.setSpi p x).tender = s.tender := (rfl)
@[simp] theorem State.setSpi_timers (s : State) (p : Nat) (x : SpiPort) : (s.setSpi p x).timers = s.timers := (rfl)
@[simp] theorem State.setSpi_onnak (s : State) (p : Nat) (x : SpiPort) : (s.setSpi p x).onnak = s.onnak := (rfl)
@[simp] theorem State.setSpi_eth (s : State) (p : Nat) (x : SpiPort) : (s.setSpi p x).eth = s.eth := (rfl)
@[simp] theorem State.setSpi_gptp (s : State) (p : Nat) (x : SpiPort) : (s.setSpi p x).gptp = s.gptp := (rfl)
@[simp] theorem State.setSpi_cg (s : State) (p : Nat) (x : SpiPort) : (s.setSpi p x).cg = s.cg := (rfl)
@[simp] theorem State.setSpi_pmc (s : State) (p : Nat) (x : SpiPort) : (s.setSpi p x).pmc = s.pmc := (rfl)
@[simp] theorem State.setSpi_coldHeld (s : State) (p : Nat) (x : SpiPort) : (s.setSpi p x).coldHeld = s.coldHeld := (rfl)
@[simp] theorem State.setSpi_warmHeld (s : State) (p : Nat) (x : SpiPort) : (s.setSpi p x).warmHeld = s.warmHeld := (rfl)
@[simp] theorem State.setSpi_free (s : State) (p : Nat) (x : SpiPort) : (s.setSpi p x).free = s.free := (rfl)
@[simp] theorem State.setSpi_pending (s : State) (p : Nat) (x : SpiPort) : (s.setSpi p x).pending = s.pending := (rfl)
@[simp] theorem State.setSpi_reg (s : State) (p : Nat) (x : SpiPort) (r : Nat) : (s.setSpi p x).reg r = s.reg r := (rfl)
@[simp] theorem State.setSpi_reg64 (s : State) (p : Nat) (x : SpiPort) (r : Nat) : (s.setSpi p x).reg64 r = s.reg64 r := (rfl)

/-! store changes mem alone. -/

@[simp] theorem State.store_regs (s : State) (a : Nat) (bs : List Byte) (p : Bool) : (s.store a bs p).regs = s.regs := (rfl)
@[simp] theorem State.store_captures (s : State) (a : Nat) (bs : List Byte) (p : Bool) : (s.store a bs p).captures = s.captures := (rfl)
@[simp] theorem State.store_heldLo (s : State) (a : Nat) (bs : List Byte) (p : Bool) : (s.store a bs p).heldLo = s.heldLo := (rfl)
@[simp] theorem State.store_time (s : State) (a : Nat) (bs : List Byte) (p : Bool) : (s.store a bs p).time = s.time := (rfl)
@[simp] theorem State.store_out (s : State) (a : Nat) (bs : List Byte) (p : Bool) : (s.store a bs p).out = s.out := (rfl)
@[simp] theorem State.store_reply (s : State) (a : Nat) (bs : List Byte) (p : Bool) : (s.store a bs p).reply = s.reply := (rfl)
@[simp] theorem State.store_imsic (s : State) (a : Nat) (bs : List Byte) (p : Bool) : (s.store a bs p).imsic = s.imsic := (rfl)
@[simp] theorem State.store_quays (s : State) (a : Nat) (bs : List Byte) (p : Bool) : (s.store a bs p).quays = s.quays := (rfl)
@[simp] theorem State.store_faultFifo (s : State) (a : Nat) (bs : List Byte) (p : Bool) : (s.store a bs p).faultFifo = s.faultFifo := (rfl)
@[simp] theorem State.store_salv (s : State) (a : Nat) (bs : List Byte) (p : Bool) : (s.store a bs p).salv = s.salv := (rfl)
@[simp] theorem State.store_shadows (s : State) (a : Nat) (bs : List Byte) (p : Bool) : (s.store a bs p).shadows = s.shadows := (rfl)
@[simp] theorem State.store_customs (s : State) (a : Nat) (bs : List Byte) (p : Bool) : (s.store a bs p).customs = s.customs := (rfl)
@[simp] theorem State.store_cam (s : State) (a : Nat) (bs : List Byte) (p : Bool) : (s.store a bs p).cam = s.cam := (rfl)
@[simp] theorem State.store_camp (s : State) (a : Nat) (bs : List Byte) (p : Bool) : (s.store a bs p).camp = s.camp := (rfl)
@[simp] theorem State.store_vis (s : State) (a : Nat) (bs : List Byte) (p : Bool) : (s.store a bs p).vis = s.vis := (rfl)
@[simp] theorem State.store_ledger (s : State) (a : Nat) (bs : List Byte) (p : Bool) : (s.store a bs p).ledger = s.ledger := (rfl)
@[simp] theorem State.store_snd (s : State) (a : Nat) (bs : List Byte) (p : Bool) : (s.store a bs p).snd = s.snd := (rfl)
@[simp] theorem State.store_edge (s : State) (a : Nat) (bs : List Byte) (p : Bool) : (s.store a bs p).edge = s.edge := (rfl)
@[simp] theorem State.store_prog (s : State) (a : Nat) (bs : List Byte) (p : Bool) : (s.store a bs p).prog = s.prog := (rfl)
@[simp] theorem State.store_tender (s : State) (a : Nat) (bs : List Byte) (p : Bool) : (s.store a bs p).tender = s.tender := (rfl)
@[simp] theorem State.store_timers (s : State) (a : Nat) (bs : List Byte) (p : Bool) : (s.store a bs p).timers = s.timers := (rfl)
@[simp] theorem State.store_onnak (s : State) (a : Nat) (bs : List Byte) (p : Bool) : (s.store a bs p).onnak = s.onnak := (rfl)
@[simp] theorem State.store_eth (s : State) (a : Nat) (bs : List Byte) (p : Bool) : (s.store a bs p).eth = s.eth := (rfl)
@[simp] theorem State.store_gptp (s : State) (a : Nat) (bs : List Byte) (p : Bool) : (s.store a bs p).gptp = s.gptp := (rfl)
@[simp] theorem State.store_cg (s : State) (a : Nat) (bs : List Byte) (p : Bool) : (s.store a bs p).cg = s.cg := (rfl)
@[simp] theorem State.store_pmc (s : State) (a : Nat) (bs : List Byte) (p : Bool) : (s.store a bs p).pmc = s.pmc := (rfl)
@[simp] theorem State.store_coldHeld (s : State) (a : Nat) (bs : List Byte) (p : Bool) : (s.store a bs p).coldHeld = s.coldHeld := (rfl)
@[simp] theorem State.store_warmHeld (s : State) (a : Nat) (bs : List Byte) (p : Bool) : (s.store a bs p).warmHeld = s.warmHeld := (rfl)
@[simp] theorem State.store_free (s : State) (a : Nat) (bs : List Byte) (p : Bool) : (s.store a bs p).free = s.free := (rfl)
@[simp] theorem State.store_pending (s : State) (a : Nat) (bs : List Byte) (p : Bool) : (s.store a bs p).pending = s.pending := (rfl)
@[simp] theorem State.store_reg (s : State) (a : Nat) (bs : List Byte) (p : Bool) (r : Nat) : (s.store a bs p).reg r = s.reg r := (rfl)
@[simp] theorem State.store_reg64 (s : State) (a : Nat) (bs : List Byte) (p : Bool) (r : Nat) : (s.store a bs p).reg64 r = s.reg64 r := (rfl)

/-! setTag changes mem alone. -/

@[simp] theorem State.setTag_regs (s : State) (b : Nat) (t : Word) : (s.setTag b t).regs = s.regs := (rfl)
@[simp] theorem State.setTag_captures (s : State) (b : Nat) (t : Word) : (s.setTag b t).captures = s.captures := (rfl)
@[simp] theorem State.setTag_heldLo (s : State) (b : Nat) (t : Word) : (s.setTag b t).heldLo = s.heldLo := (rfl)
@[simp] theorem State.setTag_time (s : State) (b : Nat) (t : Word) : (s.setTag b t).time = s.time := (rfl)
@[simp] theorem State.setTag_out (s : State) (b : Nat) (t : Word) : (s.setTag b t).out = s.out := (rfl)
@[simp] theorem State.setTag_reply (s : State) (b : Nat) (t : Word) : (s.setTag b t).reply = s.reply := (rfl)
@[simp] theorem State.setTag_imsic (s : State) (b : Nat) (t : Word) : (s.setTag b t).imsic = s.imsic := (rfl)
@[simp] theorem State.setTag_quays (s : State) (b : Nat) (t : Word) : (s.setTag b t).quays = s.quays := (rfl)
@[simp] theorem State.setTag_faultFifo (s : State) (b : Nat) (t : Word) : (s.setTag b t).faultFifo = s.faultFifo := (rfl)
@[simp] theorem State.setTag_salv (s : State) (b : Nat) (t : Word) : (s.setTag b t).salv = s.salv := (rfl)
@[simp] theorem State.setTag_shadows (s : State) (b : Nat) (t : Word) : (s.setTag b t).shadows = s.shadows := (rfl)
@[simp] theorem State.setTag_customs (s : State) (b : Nat) (t : Word) : (s.setTag b t).customs = s.customs := (rfl)
@[simp] theorem State.setTag_cam (s : State) (b : Nat) (t : Word) : (s.setTag b t).cam = s.cam := (rfl)
@[simp] theorem State.setTag_camp (s : State) (b : Nat) (t : Word) : (s.setTag b t).camp = s.camp := (rfl)
@[simp] theorem State.setTag_vis (s : State) (b : Nat) (t : Word) : (s.setTag b t).vis = s.vis := (rfl)
@[simp] theorem State.setTag_ledger (s : State) (b : Nat) (t : Word) : (s.setTag b t).ledger = s.ledger := (rfl)
@[simp] theorem State.setTag_snd (s : State) (b : Nat) (t : Word) : (s.setTag b t).snd = s.snd := (rfl)
@[simp] theorem State.setTag_edge (s : State) (b : Nat) (t : Word) : (s.setTag b t).edge = s.edge := (rfl)
@[simp] theorem State.setTag_prog (s : State) (b : Nat) (t : Word) : (s.setTag b t).prog = s.prog := (rfl)
@[simp] theorem State.setTag_tender (s : State) (b : Nat) (t : Word) : (s.setTag b t).tender = s.tender := (rfl)
@[simp] theorem State.setTag_timers (s : State) (b : Nat) (t : Word) : (s.setTag b t).timers = s.timers := (rfl)
@[simp] theorem State.setTag_onnak (s : State) (b : Nat) (t : Word) : (s.setTag b t).onnak = s.onnak := (rfl)
@[simp] theorem State.setTag_eth (s : State) (b : Nat) (t : Word) : (s.setTag b t).eth = s.eth := (rfl)
@[simp] theorem State.setTag_gptp (s : State) (b : Nat) (t : Word) : (s.setTag b t).gptp = s.gptp := (rfl)
@[simp] theorem State.setTag_cg (s : State) (b : Nat) (t : Word) : (s.setTag b t).cg = s.cg := (rfl)
@[simp] theorem State.setTag_pmc (s : State) (b : Nat) (t : Word) : (s.setTag b t).pmc = s.pmc := (rfl)
@[simp] theorem State.setTag_coldHeld (s : State) (b : Nat) (t : Word) : (s.setTag b t).coldHeld = s.coldHeld := (rfl)
@[simp] theorem State.setTag_warmHeld (s : State) (b : Nat) (t : Word) : (s.setTag b t).warmHeld = s.warmHeld := (rfl)
@[simp] theorem State.setTag_free (s : State) (b : Nat) (t : Word) : (s.setTag b t).free = s.free := (rfl)
@[simp] theorem State.setTag_pending (s : State) (b : Nat) (t : Word) : (s.setTag b t).pending = s.pending := (rfl)
@[simp] theorem State.setTag_reg (s : State) (b : Nat) (t : Word) (r : Nat) : (s.setTag b t).reg r = s.reg r := (rfl)
@[simp] theorem State.setTag_reg64 (s : State) (b : Nat) (t : Word) (r : Nat) : (s.setTag b t).reg64 r = s.reg64 r := (rfl)

/-! What a command answers: harbour time, the cold reset and the queue are those before it. -/

@[simp] theorem State.after_regs (s t : State) : (s.after t).regs = t.regs := (rfl)
@[simp] theorem State.after_captures (s t : State) : (s.after t).captures = t.captures := (rfl)
@[simp] theorem State.after_heldLo (s t : State) : (s.after t).heldLo = t.heldLo := (rfl)
@[simp] theorem State.after_time_now (s t : State) : (s.after t).time.now = s.time.now := rfl
@[simp] theorem State.after_out (s t : State) : (s.after t).out = t.out := (rfl)
@[simp] theorem State.after_reply (s t : State) : (s.after t).reply = t.reply := (rfl)
@[simp] theorem State.after_imsic (s t : State) : (s.after t).imsic = t.imsic := (rfl)
@[simp] theorem State.after_quays (s t : State) : (s.after t).quays = t.quays := (rfl)
@[simp] theorem State.after_faultFifo (s t : State) : (s.after t).faultFifo = t.faultFifo := (rfl)
@[simp] theorem State.after_mem (s t : State) : (s.after t).mem = t.mem := (rfl)
@[simp] theorem State.after_salv (s t : State) : (s.after t).salv = t.salv := (rfl)
@[simp] theorem State.after_shadows (s t : State) : (s.after t).shadows = t.shadows := (rfl)
@[simp] theorem State.after_customs (s t : State) : (s.after t).customs = t.customs := (rfl)
@[simp] theorem State.after_cam (s t : State) : (s.after t).cam = t.cam := (rfl)
@[simp] theorem State.after_camp (s t : State) : (s.after t).camp = t.camp := (rfl)
@[simp] theorem State.after_vis (s t : State) : (s.after t).vis = t.vis := (rfl)
@[simp] theorem State.after_ledger (s t : State) : (s.after t).ledger = t.ledger := (rfl)
@[simp] theorem State.after_snd (s t : State) : (s.after t).snd = t.snd := (rfl)
@[simp] theorem State.after_edge (s t : State) : (s.after t).edge = t.edge := (rfl)
@[simp] theorem State.after_prog (s t : State) : (s.after t).prog = t.prog := (rfl)
@[simp] theorem State.after_tender (s t : State) : (s.after t).tender = t.tender := (rfl)
@[simp] theorem State.after_timers (s t : State) : (s.after t).timers = t.timers := (rfl)
@[simp] theorem State.after_onnak (s t : State) : (s.after t).onnak = t.onnak := (rfl)
@[simp] theorem State.after_eth (s t : State) : (s.after t).eth = t.eth := (rfl)
@[simp] theorem State.after_gptp (s t : State) : (s.after t).gptp = t.gptp := (rfl)
@[simp] theorem State.after_cg (s t : State) : (s.after t).cg = t.cg := (rfl)
@[simp] theorem State.after_pmc (s t : State) : (s.after t).pmc = t.pmc := (rfl)
@[simp] theorem State.after_coldHeld (s t : State) : (s.after t).coldHeld = s.coldHeld := (rfl)
@[simp] theorem State.after_warmHeld (s t : State) : (s.after t).warmHeld = t.warmHeld := (rfl)
@[simp] theorem State.after_free (s t : State) : (s.after t).free = t.free := (rfl)
@[simp] theorem State.after_pending (s t : State) : (s.after t).pending = s.pending := (rfl)
@[simp] theorem State.after_reg (s t : State) (r : Nat) : (s.after t).reg r = t.reg r := rfl

end Sys2Proof.Machine
end

