-- ==== Sys2Proof/Laws/Tab.lean ====
section
/-! SUPPORT. Sparse tables: every operation keeps the canonical form, a read after a write to the same key gives the value written, and a
write leaves every other key alone. -/
namespace Sys2Proof.Machine

/-- The keys rise strictly, as a relation between any two entries. -/
theorem Tab.rising_iff {α : Type} (t : Tab α) : Tab.rising t = true ↔ t.Pairwise (fun a b => a.1 < b.1) := by
  induction t with
  | nil => simp [Tab.rising]
  | cons e t ih =>
    cases t with
    | nil => simp [Tab.rising]
    | cons f t =>
      simp only [Tab.rising, Bool.and_eq_true, decide_eq_true_eq, ih, List.pairwise_cons]
      constructor
      · rintro ⟨h, hf, ht⟩
        refine ⟨?_, hf, ht⟩
        intro x hx
        rcases List.mem_cons.mp hx with rfl | hx
        · exact h
        · exact h.trans (hf x hx)
      · rintro ⟨h, hf, ht⟩
        exact ⟨h f (by simp), hf, ht⟩

/-- The canonical form as two facts: keys rise, and no entry is what an unlisted key reads as. -/
theorem Tab.wf_iff {α : Type} [DecidableEq α] (d : Nat → α) (t : Tab α) :
    Tab.wf d t = true ↔ t.Pairwise (fun a b => a.1 < b.1) ∧ ∀ e ∈ t, e.2 ≠ d e.1 := by
  simp [Tab.wf, Tab.rising_iff]

/-- A table with entries taken away keeps the canonical form. -/
theorem Tab.wf_filter {α : Type} [DecidableEq α] (d : Nat → α) (t : Tab α) (p : Nat × α → Bool) (h : Tab.wf d t = true) :
    Tab.wf d (t.filter p) = true := by
  rw [Tab.wf_iff] at *
  exact ⟨h.1.filter p, fun e he => h.2 e (List.mem_of_mem_filter he)⟩

/-- Removing the keys that a predicate selects keeps the canonical form. -/
theorem Tab.wf_drop {α : Type} [DecidableEq α] (d : Nat → α) (t : Tab α) (p : Nat → Bool) (h : Tab.wf d t = true) :
    Tab.wf d (Tab.drop t p) = true := Tab.wf_filter d t _ h

/-- Removing a key keeps the canonical form. -/
theorem Tab.wf_erase {α : Type} [DecidableEq α] (d : Nat → α) (t : Tab α) (k : Nat) (h : Tab.wf d t = true) :
    Tab.wf d (Tab.erase t k) = true := Tab.wf_filter d t _ h

/-- The entries of a table with one more. -/
theorem Tab.mem_insert {α : Type} (k : Nat) (v : α) (t : Tab α) (e : Nat × α) : e ∈ Tab.insert k v t ↔ e = (k, v) ∨ e ∈ t := by
  induction t with
  | nil => simp [Tab.insert]
  | cons f t ih =>
    simp only [Tab.insert]
    split
    · simp
    · simp only [List.mem_cons, ih]
      tauto

/-- A new key goes where its order puts it. -/
theorem Tab.rising_insert {α : Type} (k : Nat) (v : α) (t : Tab α) (h : t.Pairwise (fun a b => a.1 < b.1)) (hk : ∀ e ∈ t, e.1 ≠ k) :
    (Tab.insert k v t).Pairwise (fun a b => a.1 < b.1) := by
  induction t with
  | nil => simp [Tab.insert]
  | cons f t ih =>
    obtain ⟨hf, ht⟩ := List.pairwise_cons.mp h
    simp only [Tab.insert]
    split
    next hlt =>
      refine List.pairwise_cons.mpr ⟨?_, h⟩
      intro x hx
      rcases List.mem_cons.mp hx with rfl | hx
      · exact hlt
      · exact hlt.trans (hf x hx)
    next hlt =>
      refine List.pairwise_cons.mpr ⟨?_, ih ht (fun e he => hk e (List.mem_cons_of_mem _ he))⟩
      intro x hx
      rcases (Tab.mem_insert k v t x).mp hx with rfl | hx
      · have := hk f (by simp)
        simp only at *
        omega
      · exact hf x hx

/-- A write keeps the canonical form. -/
theorem Tab.wf_set {α : Type} [DecidableEq α] (d : Nat → α) (t : Tab α) (k : Nat) (v : α) (h : Tab.wf d t = true) :
    Tab.wf d (Tab.set d t k v) = true := by
  unfold Tab.set
  split
  · exact Tab.wf_erase d t k h
  next hv =>
    have h' := (Tab.wf_iff d _).mp (Tab.wf_erase d t k h)
    rw [Tab.wf_iff]
    refine ⟨Tab.rising_insert k v _ h'.1 (fun e he => ?_), fun e he => ?_⟩
    · simpa using (List.mem_filter.mp he).2
    · rcases (Tab.mem_insert k v _ e).mp he with rfl | he
      · exact hv
      · exact h'.2 e he

/-- Writing a run of values keeps the canonical form. -/
theorem Tab.wf_setAll {α : Type} [DecidableEq α] (d : Nat → α) (t : Tab α) (k : Nat) (vs : List α) (h : Tab.wf d t = true) :
    Tab.wf d (Tab.setAll d t k vs) = true := by
  rw [Tab.wf_iff] at *
  obtain ⟨hr, hd⟩ := h
  have hm : ∀ e ∈ ((vs.zipIdx k).map (fun e => (e.2, e.1))).filter (fun e => decide (e.2 ≠ d e.1)),
      k ≤ e.1 ∧ e.1 < k + vs.length := by
    intro e he
    obtain ⟨⟨a, i⟩, hp, rfl⟩ := List.mem_map.mp (List.mem_of_mem_filter he)
    have := List.mem_zipIdx hp
    simp only
    omega
  have hs : ((vs.zipIdx k).map (fun e => (e.2, e.1))).Pairwise (fun a b : Nat × α => a.1 < b.1) := by
    rw [List.pairwise_map, ← List.pairwise_map (f := Prod.snd) (R := fun a b : Nat => a < b), List.zipIdx_map_snd]
    exact List.pairwise_lt_range'
  unfold Tab.setAll
  refine ⟨List.pairwise_append.mpr ⟨List.pairwise_append.mpr ⟨hr.filter _, hs.filter _, ?_⟩, hr.filter _, ?_⟩, ?_⟩
  · intro a ha b hb
    have h1 : a.1 < k := by simpa using (List.mem_filter.mp ha).2
    have h2 := hm b hb
    omega
  · intro a ha b hb
    have h2 : k + vs.length ≤ b.1 := by simpa using (List.mem_filter.mp hb).2
    rcases List.mem_append.mp ha with ha | ha
    · have h1 : a.1 < k := by simpa using (List.mem_filter.mp ha).2
      omega
    · have h1 := hm a ha
      omega
  · intro e he
    rcases List.mem_append.mp he with he | he
    · rcases List.mem_append.mp he with he | he
      · exact hd e (List.mem_of_mem_filter he)
      · simpa using (List.mem_filter.mp he).2
    · exact hd e (List.mem_of_mem_filter he)

/-- Writing one value at a run of keys keeps the canonical form. -/
theorem Tab.wf_fill {α : Type} [DecidableEq α] (d : Nat → α) (t : Tab α) (k n : Nat) (v : α) (h : Tab.wf d t = true) :
    Tab.wf d (Tab.fill d t k n v) = true := Tab.wf_setAll d t k _ h

/-- Updating listed keys keeps the canonical form. -/
theorem Tab.wf_updateAll {α : Type} [DecidableEq α] (d : Nat → α) (f : α → α) (ks : List Nat) :
    ∀ t : Tab α, Tab.wf d t = true → Tab.wf d (Tab.updateAll d f t ks) = true := by
  induction ks with
  | nil => intro t h; exact h
  | cons k ks ih => intro t h; exact ih _ (Tab.wf_set d t k _ h)

/-! Reading. -/

/-- What a table with one more entry reads as. -/
theorem Tab.get_insert {α : Type} (d : Nat → α) (k : Nat) (v : α) (t : Tab α) (j : Nat) (hk : ∀ e ∈ t, e.1 ≠ k) :
    Tab.get d (Tab.insert k v t) j = if j = k then v else Tab.get d t j := by
  induction t with
  | nil => simp [Tab.insert, Tab.get, eq_comm]
  | cons f t ih =>
    obtain ⟨i, w⟩ := f
    have hi : i ≠ k := hk (i, w) (by simp)
    simp only [Tab.insert]
    split
    · simp only [Tab.get, eq_comm (a := k)]
    · simp only [Tab.get, ih (fun e he => hk e (List.mem_cons_of_mem _ he))]
      by_cases h : i = j
      · subst h; simp [hi]
      · simp [h]

/-- What a table without key `k` reads as. -/
theorem Tab.get_erase {α : Type} (d : Nat → α) (t : Tab α) (k j : Nat) :
    Tab.get d (Tab.erase t k) j = if j = k then d k else Tab.get d t j := by
  induction t with
  | nil => by_cases h : j = k <;> simp [Tab.erase, Tab.get, h]
  | cons f t ih =>
    obtain ⟨i, w⟩ := f
    by_cases hi : i = k
    · subst hi
      have : Tab.erase ((i, w) :: t) i = Tab.erase t i := by simp [Tab.erase]
      rw [this, ih]
      by_cases h : j = i
      · simp [h]
      · simp [h, Tab.get, Ne.symm h]
    · have : Tab.erase ((i, w) :: t) k = (i, w) :: Tab.erase t k := by simp [Tab.erase, hi]
      rw [this]
      simp only [Tab.get, ih]
      by_cases h : i = j
      · subst h; simp [hi]
      · simp [h]

/-- What a key reads as after a write: the value written at its key, and as before at every other. -/
theorem Tab.get_set {α : Type} [DecidableEq α] (d : Nat → α) (t : Tab α) (k : Nat) (v : α) (j : Nat) :
    Tab.get d (Tab.set d t k v) j = if j = k then v else Tab.get d t j := by
  unfold Tab.set
  split
  next hv => rw [Tab.get_erase, hv]
  next hv =>
    rw [Tab.get_insert d k v _ j (fun e he => by simpa using (List.mem_filter.mp he).2), Tab.get_erase]
    by_cases h : j = k <;> simp [h]

/-- A read after a write to the same key. -/
@[simp] theorem Tab.get_set_same {α : Type} [DecidableEq α] (d : Nat → α) (t : Tab α) (k : Nat) (v : α) :
    Tab.get d (Tab.set d t k v) k = v := by simp [Tab.get_set]

/-- A write leaves every other key alone. -/
theorem Tab.get_set_ne {α : Type} [DecidableEq α] (d : Nat → α) (t : Tab α) (k : Nat) (v : α) (j : Nat) (h : j ≠ k) :
    Tab.get d (Tab.set d t k v) j = Tab.get d t j := by simp [Tab.get_set, h]

/-- What a table reads as once the entries that a predicate on keys turns away are gone. -/
theorem Tab.get_filter_key {α : Type} (d : Nat → α) (t : Tab α) (p : Nat → Bool) (j : Nat) :
    Tab.get d (t.filter (fun e => p e.1)) j = if p j then Tab.get d t j else d j := by
  induction t with
  | nil => simp [Tab.get]
  | cons f t ih =>
    obtain ⟨i, w⟩ := f
    by_cases hi : p i = true
    · rw [List.filter_cons_of_pos (by simpa using hi)]
      simp only [Tab.get, ih]
      by_cases h : i = j
      · subst h; simp [hi]
      · simp [h]
    · rw [List.filter_cons_of_neg (by simpa using hi), ih]
      by_cases h : i = j
      · subst h; simp [hi]
      · simp [Tab.get, h]

/-- A key that the first of two tables does not list reads as in the second. -/
theorem Tab.get_append {α : Type} (d : Nat → α) (t u : Tab α) (j : Nat) (h : ∀ e ∈ t, e.1 ≠ j) : Tab.get d (t ++ u) j = Tab.get d u j := by
  induction t with
  | nil => rfl
  | cons f t ih =>
    simp only [List.cons_append, Tab.get]
    rw [if_neg (h f (by simp)), ih (fun e he => h e (List.mem_cons_of_mem _ he))]

/-- A key that the second of two tables does not list reads as in the first. -/
theorem Tab.get_append_left {α : Type} (d : Nat → α) (t u : Tab α) (j : Nat) (h : ∀ e ∈ u, e.1 ≠ j) : Tab.get d (t ++ u) j = Tab.get d t j := by
  induction t with
  | nil =>
    induction u with
    | nil => rfl
    | cons f u ih =>
      simp only [List.nil_append, Tab.get] at *
      rw [if_neg (h f (by simp))]
      exact ih (fun e he => h e (List.mem_cons_of_mem _ he))
  | cons f t ih => simp only [List.cons_append, Tab.get, ih]

/-- A run of written values reads as written, and every other key as before. -/
theorem Tab.get_setAll {α : Type} [DecidableEq α] (d : Nat → α) (vs : List α) : ∀ (t : Tab α) (k j : Nat),
    Tab.get d (Tab.setAll d t k vs) j = if k ≤ j ∧ j < k + vs.length then vs.getD (j - k) (d j) else Tab.get d t j := by
  intro t k j
  have hrun : ∀ (vs : List α) (k : Nat), Tab.get d (((vs.zipIdx k).map (fun e => (e.2, e.1))).filter (fun e => decide (e.2 ≠ d e.1))) j =
      if k ≤ j ∧ j < k + vs.length then vs.getD (j - k) (d j) else d j := by
    intro vs
    induction vs with
    | nil => intro k; simp [Tab.get]
    | cons v vs ih =>
      intro k
      simp only [List.zipIdx_cons, List.map_cons, List.length_cons]
      by_cases hv : v = d k
      · rw [List.filter_cons_of_neg (by simp [hv]), ih]
        by_cases h : j = k
        · subst h; simp [hv]
        · by_cases h2 : k + 1 ≤ j ∧ j < k + 1 + vs.length
          · rw [if_pos h2, if_pos (by omega), show j - k = j - (k + 1) + 1 by omega]; simp
          · rw [if_neg h2, if_neg (by omega)]
      · rw [List.filter_cons_of_pos (by simp [hv])]
        simp only [Tab.get, ih]
        by_cases h : k = j
        · subst h; simp
        · rw [if_neg h]
          by_cases h2 : k + 1 ≤ j ∧ j < k + 1 + vs.length
          · rw [if_pos h2, if_pos (by omega), show j - k = j - (k + 1) + 1 by omega]; simp
          · rw [if_neg h2, if_neg (by omega)]
  have hm : ∀ e ∈ ((vs.zipIdx k).map (fun e => (e.2, e.1))).filter (fun e => decide (e.2 ≠ d e.1)), k ≤ e.1 ∧ e.1 < k + vs.length := by
    intro e he
    obtain ⟨⟨a, i⟩, hp, rfl⟩ := List.mem_map.mp (List.mem_of_mem_filter he)
    have := List.mem_zipIdx hp
    simp only
    omega
  have hlo : ∀ e ∈ t.filter (fun e => decide (e.1 < k)), e.1 < k := fun e he => by simpa using (List.mem_filter.mp he).2
  have hhi : ∀ e ∈ t.filter (fun e => decide (k + vs.length ≤ e.1)), k + vs.length ≤ e.1 :=
    fun e he => by simpa using (List.mem_filter.mp he).2
  unfold Tab.setAll
  by_cases h1 : j < k
  · rw [Tab.get_append_left, Tab.get_append_left, Tab.get_filter_key d t (fun i => decide (i < k)) j, if_pos (by simpa using h1),
      if_neg (by omega)]
    · intro e he; have := hm e he; omega
    · intro e he; have := hhi e he; omega
  · by_cases h2 : j < k + vs.length
    · rw [Tab.get_append_left, Tab.get_append, hrun, if_pos (by omega), if_pos (by omega)]
      · intro e he; have := hlo e he; omega
      · intro e he; have := hhi e he; omega
    · rw [Tab.get_append, Tab.get_filter_key d t (fun i => decide (k + vs.length ≤ i)) j, if_pos (by simpa using h2), if_neg (by omega)]
      intro e he
      rcases List.mem_append.mp he with he | he
      · have := hlo e he; omega
      · have := hm e he; omega

end Sys2Proof.Machine
end

