-- ==== Sys2Proof/Laws/Mem.lean ====
section
/-! SUPPORT. Memory: every operation keeps its canonical form, and the basic laws of reads after writes. -/
namespace Sys2Proof.Machine

/-- The canonical form, table by table. -/
theorem Memory.wf_iff (m : MemState) : Memory.wf m = true ↔ Tab.wf byte0 m.bytes = true ∧ Tab.wf mark0 m.poison = true ∧
    Tab.wf mark0 m.fresh = true ∧ Tab.wf byte0 m.tile = true ∧ Tab.wf mark0 m.tilePoison = true ∧ Tab.wf tag0 m.tags = true := by
  simp [Memory.wf, and_assoc]

/-- Reset memory lists nothing. -/
theorem Memory.wf_reset : Memory.wf State.reset.mem = true := by decide

/-- A fold of steps that keep a property keeps it. -/
theorem List.foldl_keeps {α β : Type} (P : β → Prop) (f : β → α → β) (h : ∀ b a, P b → P (f b a)) :
    ∀ (l : List α) (b : β), P b → P (l.foldl f b)
  | [], _, hb => hb
  | a :: l, b, hb => List.foldl_keeps P f h l (f b a) (h b a hb)

theorem MemState.mark_wf (m : MemState) (l : Nat) (h : Memory.wf m = true) : Memory.wf (m.mark l) = true := by
  rw [Memory.wf_iff] at *
  exact ⟨h.1, Tab.wf_set mark0 m.poison l true h.2.1, h.2.2⟩

theorem MemState.unmark_wf (m : MemState) (l : Nat) (h : Memory.wf m = true) : Memory.wf (m.unmark l) = true := by
  rw [Memory.wf_iff] at *
  exact ⟨h.1, Tab.wf_set mark0 m.poison l false h.2.1, h.2.2⟩

/-- A store keeps the canonical form, with the poison mark or without (R376, R405). -/
theorem MemState.store_wf (m : MemState) (a : Nat) (bs : List Byte) (p : Bool) (h : Memory.wf m = true) :
    Memory.wf (m.store a bs p) = true := by
  have hm : ∀ l m, Memory.wf m = true → Memory.wf (List.foldl (fun (m : MemState) l =>
      if p then m.mark l else if a ≤ 64 * l ∧ 64 * l + 64 ≤ a + bs.length then m.unmark l else m) m l) = true := by
    refine fun l m hw => List.foldl_keeps (fun m => Memory.wf m = true) _ ?_ l m hw
    intro m l hw
    split
    · exact MemState.mark_wf m l hw
    · split
      · exact MemState.unmark_wf m l hw
      · exact hw
  have h' := hm (linesOf a bs.length) m h
  unfold MemState.store
  rw [Memory.wf_iff] at *
  exact ⟨Tab.wf_setAll byte0 _ a bs h'.1, h'.2⟩

theorem MemState.storeMasked_wf (m : MemState) (line : Nat) (bs : List Byte) (en : Nat) (p : Bool) (h : Memory.wf m = true) :
    Memory.wf (m.storeMasked line bs en p) = true := by
  let f : Tab Byte → Nat × Byte → Tab Byte := fun t e => if en.testBit e.1 then Tab.set byte0 t (line + e.1) e.2 else t
  have hf : ∀ t e, Tab.wf byte0 t = true → Tab.wf byte0 (f t e) = true := by
    intro t e ht
    show Tab.wf byte0 (if en.testBit e.1 then Tab.set byte0 t (line + e.1) e.2 else t) = true
    split
    · exact Tab.wf_set byte0 t _ _ ht
    · exact ht
  have hb : Memory.wf { m with bytes := (enum (bs.take 64)).foldl f m.bytes } = true := by
    rw [Memory.wf_iff] at *
    exact ⟨List.foldl_keeps (fun t => Tab.wf byte0 t = true) f hf _ _ h.1, h.2⟩
  unfold MemState.storeMasked
  dsimp only
  split
  · exact MemState.mark_wf _ _ hb
  · split
    · exact MemState.unmark_wf _ _ hb
    · exact hb

theorem MemState.touch_wf (m : MemState) (a n : Nat) (h : Memory.wf m = true) : Memory.wf (m.touch a n) = true := by
  rw [Memory.wf_iff] at *
  exact ⟨h.1, h.2.1, List.foldl_keeps (fun t => Tab.wf mark0 t = true) _ (fun t l ht => Tab.wf_set mark0 t l true ht) _ _ h.2.2.1, h.2.2.2⟩

theorem MemState.unfresh_wf (m : MemState) (a n : Nat) (h : Memory.wf m = true) : Memory.wf (m.unfresh a n) = true := by
  rw [Memory.wf_iff] at *
  exact ⟨h.1, h.2.1, Tab.wf_filter _ _ _ h.2.2.1, h.2.2.2⟩

theorem MemState.wipe_wf (m : MemState) (a n : Nat) (h : Memory.wf m = true) : Memory.wf (m.wipe a n) = true := by
  rw [Memory.wf_iff] at *
  exact ⟨Tab.wf_filter _ _ _ h.1, Tab.wf_filter _ _ _ h.2.1, Tab.wf_filter _ _ _ h.2.2.1, h.2.2.2⟩

/-- A device warm reset keeps the canonical form (R507, R570). -/
theorem MemState.afterWarm_wf (m : MemState) (h : Memory.wf m = true) : Memory.wf m.afterWarm = true := by
  rw [Memory.wf_iff] at *
  exact ⟨Tab.wf_filter _ _ _ h.1, Tab.wf_filter _ _ _ h.2.1, rfl, rfl, rfl, rfl⟩

theorem State.store_wf (s : State) (a : Nat) (bs : List Byte) (p : Bool) (h : Memory.wf s.mem = true) :
    Memory.wf (s.store a bs p).mem = true := MemState.store_wf s.mem a bs p h

theorem State.storeMasked_wf (s : State) (line : Nat) (bs : List Byte) (en : Nat) (p : Bool) (h : Memory.wf s.mem = true) :
    Memory.wf (s.storeMasked line bs en p).mem = true := MemState.storeMasked_wf s.mem line bs en p h

theorem State.setTag_wf (s : State) (b : Nat) (t : Word) (h : Memory.wf s.mem = true) : Memory.wf (s.setTag b t).mem = true := by
  rw [Memory.wf_iff] at *
  exact ⟨h.1, h.2.1, h.2.2.1, h.2.2.2.1, h.2.2.2.2.1, Tab.wf_set tag0 s.mem.tags b t h.2.2.2.2.2⟩

theorem State.tileStore_wf (s : State) (i o : Nat) (bs : List Byte) (p : Bool) (h : Memory.wf s.mem = true) :
    Memory.wf (s.tileStore i o bs p).mem = true := by
  rw [Memory.wf_iff] at *
  refine ⟨h.1, h.2.1, h.2.2.1, Tab.wf_setAll _ _ _ _ h.2.2.2.1, ?_, h.2.2.2.2.2⟩
  refine List.foldl_keeps (fun t => Tab.wf mark0 t = true) _ ?_ _ _ h.2.2.2.2.1
  intro t l ht
  split
  · exact Tab.wf_set mark0 t l true ht
  · split
    · exact Tab.wf_set mark0 t l false ht
    · exact ht

/-- Claiming a chart's berths keeps the canonical form (R371). -/
theorem State.claimBerths_wf (s : State) (q : Fin 4) (c : Chart) (tide : Tide) (o : Bool) (h : Memory.wf s.mem = true) :
    Memory.wf (s.claimBerths q c tide o).mem = true := by
  rw [Memory.wf_iff] at *
  exact ⟨h.1, h.2.1, h.2.2.1, h.2.2.2.1, h.2.2.2.2.1, Tab.wf_fill tag0 s.mem.tags _ _ _ h.2.2.2.2.2⟩

/-- The scrub of a quay's berths and tile stores keeps the canonical form (R388). -/
theorem State.scrubQuay_wf (s : State) (q : Fin 4) (h : Memory.wf s.mem = true) : Memory.wf (s.scrubQuay q).mem = true := by
  unfold State.scrubQuay
  split
  · exact h
  next c _ =>
    refine State.claimBerths_wf _ q _ _ true ?_
    have hw := MemState.wipe_wf s.mem (berthAddr c.cfg.berthFirst) (4096 * c.cfg.berthCount) h
    rw [Memory.wf_iff] at *
    exact ⟨hw.1, hw.2.1, hw.2.2.1, Tab.wf_filter _ _ _ h.2.2.2.1, Tab.wf_filter _ _ _ h.2.2.2.2.1, h.2.2.2.2.2⟩

/-! Reads after writes. -/

/-- Bytes stored read as stored, and every other byte as before (R376, R396). -/
theorem State.byte_store (s : State) (a : Nat) (bs : List Byte) (p : Bool) (b : Nat) :
    (s.store a bs p).byte b = if a ≤ b ∧ b < a + bs.length then bs.getD (b - a) 0#8 else s.byte b := by
  have hb : ∀ (ls : List Nat) (m : MemState), (ls.foldl (fun (m : MemState) l =>
      if p then m.mark l else if a ≤ 64 * l ∧ 64 * l + 64 ≤ a + bs.length then m.unmark l else m) m).bytes = m.bytes := by
    intro ls m
    refine List.foldl_keeps (fun (x : MemState) => x.bytes = m.bytes) _ ?_ ls m rfl
    intro x l hx
    split
    · exact hx
    · split
      · exact hx
      · exact hx
  show Tab.get byte0 (Tab.setAll byte0 _ a bs) b = _
  rw [Tab.get_setAll, hb]
  rfl

/-- A berth's tag reads as the tag set, and every other berth's as before (R371). -/
theorem State.tag_setTag (s : State) (b : Nat) (t : Word) (c : Nat) : (s.setTag b t).tag c = if c = b then t else s.tag c :=
  Tab.get_set tag0 s.mem.tags b t c

end Sys2Proof.Machine
end

