-- ==== Sys2Proof/Laws/Ops.lean ====
section
/-! SUPPORT. What the shared operations over registers, events and outputs can do, said once each, and what a command that no reset
absorbs answers. -/
namespace Sys2Proof.Machine

/-! Registers (R10, R20). -/

/-- A register reads as the value stored in it; storing it leaves every other register alone. -/
theorem State.reg_setReg (s : State) (a : Nat) (v : Word) (r : Nat) : (s.setReg a v).reg r = if r = a then v else s.reg r :=
  Tab.get_set regReset s.regs a v r

@[simp] theorem State.reg_setReg_same (s : State) (a : Nat) (v : Word) : (s.setReg a v).reg a = v := by simp [State.reg_setReg]
theorem State.reg_setReg_ne (s : State) (a : Nat) (v : Word) (r : Nat) (h : r ≠ a) : (s.setReg a v).reg r = s.reg r := by
  simp [State.reg_setReg, h]
theorem State.reg_put (s : State) (a v r : Nat) : (s.put a v).reg r = if r = a then w32 v else s.reg r := State.reg_setReg s a _ r
theorem State.reg_bump (s : State) (a r : Nat) : (s.bump a).reg r = if r = a then satInc (s.reg a) 1 else s.reg r :=
  State.reg_setReg s a _ r
theorem State.reg_bumpBy (s : State) (a n r : Nat) : (s.bumpBy a n).reg r = if r = a then satInc (s.reg a) n else s.reg r :=
  State.reg_setReg s a _ r
theorem State.reg_wrapBy (s : State) (a n r : Nat) : (s.wrapBy a n).reg r = if r = a then s.reg a + w32 n else s.reg r :=
  State.reg_setReg s a _ r
theorem State.reg_setBits (s : State) (a hi lo v r : Nat) :
    (s.setBits a hi lo v).reg r = if r = a then setFld (s.reg a) hi lo v else s.reg r := State.reg_setReg s a _ r

/-- Every store to a register keeps the register file's canonical form. -/
theorem State.setReg_regs_wf (s : State) (a : Nat) (v : Word) (h : Tab.wf regReset s.regs = true) :
    Tab.wf regReset (s.setReg a v).regs = true := Tab.wf_set regReset s.regs a v h

/-! Updates of a quay. -/

@[simp] theorem State.setQuay_quays (s : State) (q : Fin 4) (x : Quay) : (s.setQuay q x).quays[q] = x := by
  simp [State.setQuay]
theorem State.setQuay_quays_ne (s : State) (q r : Fin 4) (x : Quay) (h : q ≠ r) : (s.setQuay q x).quays[r] = s.quays[r] := by
  have : q.val ≠ r.val := fun e => h (Fin.ext e)
  simp [State.setQuay, this]
@[simp] theorem State.modQuay_quays (s : State) (q : Fin 4) (f : Quay → Quay) : (s.modQuay q f).quays[q] = f s.quays[q] := by
  simp [State.modQuay, State.setQuay]
theorem State.modQuay_quays_ne (s : State) (q r : Fin 4) (f : Quay → Quay) (h : q ≠ r) : (s.modQuay q f).quays[r] = s.quays[r] :=
  State.setQuay_quays_ne s q r _ h

/-! What a command answers. -/

theorem State.awake_iff (s : State) : s.awake = true ↔ s.coldHeld = false ∧ s.warmHeld = false := by
  simp [State.awake]

/-- A command that no reset absorbs answers its effect, with harbour time, the cold reset and the queue as they were. -/
theorem act_eq (f : State → State) (s : State) (h : s.awake = true) : act f s = .next (s.after (f s.begin)) := by
  obtain ⟨h1, h2⟩ := (State.awake_iff s).mp h
  unfold act
  simp [h1, h2]
  rfl

/-- The same for a command that a device warm reset does not stop. -/
theorem actAlive_eq (f : State → State) (s : State) (h : s.coldHeld = false) : actAlive f s = .next (s.after (f s.begin)) := by
  unfold actAlive
  simp [h]
  rfl

/-- The same for a bus access. -/
theorem actBus_eq (ini : Initiator) (a : Nat) (f : State → State) (s : State) (h : s.awake = true) :
    actBus ini a f s = .next (s.after (f s.begin)) := by
  unfold actBus
  split
  · exact actAlive_eq f s ((State.awake_iff s).mp h).1
  · exact act_eq f s h

/-- An absorbed command answers the state with the outputs and the reply of the last command gone. -/
theorem act_held (f : State → State) (s : State) (h : s.awake = false) : act f s = .next s.begin := by
  unfold act
  have : (s.coldHeld || s.warmHeld) = true := by
    cases h1 : s.coldHeld <;> cases h2 : s.warmHeld <;> simp_all [State.awake]
  simp only [this, if_true]
  rfl

/-- Whatever a command's effect is, it answers a next state. -/
theorem act_next (f : State → State) (s : State) : ∃ t, act f s = .next t := ⟨_, rfl⟩
theorem actAlive_next (f : State → State) (s : State) : ∃ t, actAlive f s = .next t := ⟨_, rfl⟩

/-- What a command answers keeps a part of the state that its effect keeps. -/
theorem act_keeps {α : Type} (g : State → α) (hb : ∀ s, g s.begin = g s) (ha : ∀ s t : State, g (s.after t) = g t)
    (f : State → State) (s : State) (h : g (f s.begin) = g s) : ∃ t, act f s = .next t ∧ g t = g s := by
  by_cases hs : s.awake = true
  · exact ⟨_, act_eq f s hs, by rw [ha, h]⟩
  · exact ⟨_, act_held f s (by simpa using hs), hb s⟩


/-! A collision changes a counter alone (R16). -/

@[simp] theorem State.collide_captures (s : State) (a : Nat) : (s.collide a).captures = s.captures := by
  rw [State.collide, State.bump_captures]
@[simp] theorem State.collide_heldLo (s : State) (a : Nat) : (s.collide a).heldLo = s.heldLo := by
  rw [State.collide, State.bump_heldLo]
@[simp] theorem State.collide_time (s : State) (a : Nat) : (s.collide a).time = s.time := by
  rw [State.collide, State.bump_time]
@[simp] theorem State.collide_out (s : State) (a : Nat) : (s.collide a).out = s.out := by
  rw [State.collide, State.bump_out]
@[simp] theorem State.collide_reply (s : State) (a : Nat) : (s.collide a).reply = s.reply := by
  rw [State.collide, State.bump_reply]
@[simp] theorem State.collide_imsic (s : State) (a : Nat) : (s.collide a).imsic = s.imsic := by
  rw [State.collide, State.bump_imsic]
@[simp] theorem State.collide_quays (s : State) (a : Nat) : (s.collide a).quays = s.quays := by
  rw [State.collide, State.bump_quays]
@[simp] theorem State.collide_faultFifo (s : State) (a : Nat) : (s.collide a).faultFifo = s.faultFifo := by
  rw [State.collide, State.bump_faultFifo]
@[simp] theorem State.collide_mem (s : State) (a : Nat) : (s.collide a).mem = s.mem := by
  rw [State.collide, State.bump_mem]
@[simp] theorem State.collide_salv (s : State) (a : Nat) : (s.collide a).salv = s.salv := by
  rw [State.collide, State.bump_salv]
@[simp] theorem State.collide_shadows (s : State) (a : Nat) : (s.collide a).shadows = s.shadows := by
  rw [State.collide, State.bump_shadows]
@[simp] theorem State.collide_customs (s : State) (a : Nat) : (s.collide a).customs = s.customs := by
  rw [State.collide, State.bump_customs]
@[simp] theorem State.collide_cam (s : State) (a : Nat) : (s.collide a).cam = s.cam := by
  rw [State.collide, State.bump_cam]
@[simp] theorem State.collide_camp (s : State) (a : Nat) : (s.collide a).camp = s.camp := by
  rw [State.collide, State.bump_camp]
@[simp] theorem State.collide_vis (s : State) (a : Nat) : (s.collide a).vis = s.vis := by
  rw [State.collide, State.bump_vis]
@[simp] theorem State.collide_ledger (s : State) (a : Nat) : (s.collide a).ledger = s.ledger := by
  rw [State.collide, State.bump_ledger]
@[simp] theorem State.collide_snd (s : State) (a : Nat) : (s.collide a).snd = s.snd := by
  rw [State.collide, State.bump_snd]
@[simp] theorem State.collide_edge (s : State) (a : Nat) : (s.collide a).edge = s.edge := by
  rw [State.collide, State.bump_edge]
@[simp] theorem State.collide_prog (s : State) (a : Nat) : (s.collide a).prog = s.prog := by
  rw [State.collide, State.bump_prog]
@[simp] theorem State.collide_tender (s : State) (a : Nat) : (s.collide a).tender = s.tender := by
  rw [State.collide, State.bump_tender]
@[simp] theorem State.collide_timers (s : State) (a : Nat) : (s.collide a).timers = s.timers := by
  rw [State.collide, State.bump_timers]
@[simp] theorem State.collide_onnak (s : State) (a : Nat) : (s.collide a).onnak = s.onnak := by
  rw [State.collide, State.bump_onnak]
@[simp] theorem State.collide_eth (s : State) (a : Nat) : (s.collide a).eth = s.eth := by
  rw [State.collide, State.bump_eth]
@[simp] theorem State.collide_gptp (s : State) (a : Nat) : (s.collide a).gptp = s.gptp := by
  rw [State.collide, State.bump_gptp]
@[simp] theorem State.collide_cg (s : State) (a : Nat) : (s.collide a).cg = s.cg := by
  rw [State.collide, State.bump_cg]
@[simp] theorem State.collide_pmc (s : State) (a : Nat) : (s.collide a).pmc = s.pmc := by
  rw [State.collide, State.bump_pmc]
@[simp] theorem State.collide_coldHeld (s : State) (a : Nat) : (s.collide a).coldHeld = s.coldHeld := by
  rw [State.collide, State.bump_coldHeld]
@[simp] theorem State.collide_warmHeld (s : State) (a : Nat) : (s.collide a).warmHeld = s.warmHeld := by
  rw [State.collide, State.bump_warmHeld]
@[simp] theorem State.collide_free (s : State) (a : Nat) : (s.collide a).free = s.free := by
  rw [State.collide, State.bump_free]
@[simp] theorem State.collide_pending (s : State) (a : Nat) : (s.collide a).pending = s.pending := by
  rw [State.collide, State.bump_pending]

/-! An ignored write changes its block's counter and last offset alone (R14). -/

@[simp] theorem State.ignoredWrite_captures (s : State) (a : Nat) : (s.ignoredWrite a).captures = s.captures := by
  unfold State.ignoredWrite; rw [State.put_captures, State.bump_captures]
@[simp] theorem State.ignoredWrite_heldLo (s : State) (a : Nat) : (s.ignoredWrite a).heldLo = s.heldLo := by
  unfold State.ignoredWrite; rw [State.put_heldLo, State.bump_heldLo]
@[simp] theorem State.ignoredWrite_time (s : State) (a : Nat) : (s.ignoredWrite a).time = s.time := by
  unfold State.ignoredWrite; rw [State.put_time, State.bump_time]
@[simp] theorem State.ignoredWrite_out (s : State) (a : Nat) : (s.ignoredWrite a).out = s.out := by
  unfold State.ignoredWrite; rw [State.put_out, State.bump_out]
@[simp] theorem State.ignoredWrite_reply (s : State) (a : Nat) : (s.ignoredWrite a).reply = s.reply := by
  unfold State.ignoredWrite; rw [State.put_reply, State.bump_reply]
@[simp] theorem State.ignoredWrite_imsic (s : State) (a : Nat) : (s.ignoredWrite a).imsic = s.imsic := by
  unfold State.ignoredWrite; rw [State.put_imsic, State.bump_imsic]
@[simp] theorem State.ignoredWrite_quays (s : State) (a : Nat) : (s.ignoredWrite a).quays = s.quays := by
  unfold State.ignoredWrite; rw [State.put_quays, State.bump_quays]
@[simp] theorem State.ignoredWrite_faultFifo (s : State) (a : Nat) : (s.ignoredWrite a).faultFifo = s.faultFifo := by
  unfold State.ignoredWrite; rw [State.put_faultFifo, State.bump_faultFifo]
@[simp] theorem State.ignoredWrite_mem (s : State) (a : Nat) : (s.ignoredWrite a).mem = s.mem := by
  unfold State.ignoredWrite; rw [State.put_mem, State.bump_mem]
@[simp] theorem State.ignoredWrite_salv (s : State) (a : Nat) : (s.ignoredWrite a).salv = s.salv := by
  unfold State.ignoredWrite; rw [State.put_salv, State.bump_salv]
@[simp] theorem State.ignoredWrite_shadows (s : State) (a : Nat) : (s.ignoredWrite a).shadows = s.shadows := by
  unfold State.ignoredWrite; rw [State.put_shadows, State.bump_shadows]
@[simp] theorem State.ignoredWrite_customs (s : State) (a : Nat) : (s.ignoredWrite a).customs = s.customs := by
  unfold State.ignoredWrite; rw [State.put_customs, State.bump_customs]
@[simp] theorem State.ignoredWrite_cam (s : State) (a : Nat) : (s.ignoredWrite a).cam = s.cam := by
  unfold State.ignoredWrite; rw [State.put_cam, State.bump_cam]
@[simp] theorem State.ignoredWrite_camp (s : State) (a : Nat) : (s.ignoredWrite a).camp = s.camp := by
  unfold State.ignoredWrite; rw [State.put_camp, State.bump_camp]
@[simp] theorem State.ignoredWrite_vis (s : State) (a : Nat) : (s.ignoredWrite a).vis = s.vis := by
  unfold State.ignoredWrite; rw [State.put_vis, State.bump_vis]
@[simp] theorem State.ignoredWrite_ledger (s : State) (a : Nat) : (s.ignoredWrite a).ledger = s.ledger := by
  unfold State.ignoredWrite; rw [State.put_ledger, State.bump_ledger]
@[simp] theorem State.ignoredWrite_snd (s : State) (a : Nat) : (s.ignoredWrite a).snd = s.snd := by
  unfold State.ignoredWrite; rw [State.put_snd, State.bump_snd]
@[simp] theorem State.ignoredWrite_edge (s : State) (a : Nat) : (s.ignoredWrite a).edge = s.edge := by
  unfold State.ignoredWrite; rw [State.put_edge, State.bump_edge]
@[simp] theorem State.ignoredWrite_prog (s : State) (a : Nat) : (s.ignoredWrite a).prog = s.prog := by
  unfold State.ignoredWrite; rw [State.put_prog, State.bump_prog]
@[simp] theorem State.ignoredWrite_tender (s : State) (a : Nat) : (s.ignoredWrite a).tender = s.tender := by
  unfold State.ignoredWrite; rw [State.put_tender, State.bump_tender]
@[simp] theorem State.ignoredWrite_timers (s : State) (a : Nat) : (s.ignoredWrite a).timers = s.timers := by
  unfold State.ignoredWrite; rw [State.put_timers, State.bump_timers]
@[simp] theorem State.ignoredWrite_onnak (s : State) (a : Nat) : (s.ignoredWrite a).onnak = s.onnak := by
  unfold State.ignoredWrite; rw [State.put_onnak, State.bump_onnak]
@[simp] theorem State.ignoredWrite_eth (s : State) (a : Nat) : (s.ignoredWrite a).eth = s.eth := by
  unfold State.ignoredWrite; rw [State.put_eth, State.bump_eth]
@[simp] theorem State.ignoredWrite_gptp (s : State) (a : Nat) : (s.ignoredWrite a).gptp = s.gptp := by
  unfold State.ignoredWrite; rw [State.put_gptp, State.bump_gptp]
@[simp] theorem State.ignoredWrite_cg (s : State) (a : Nat) : (s.ignoredWrite a).cg = s.cg := by
  unfold State.ignoredWrite; rw [State.put_cg, State.bump_cg]
@[simp] theorem State.ignoredWrite_pmc (s : State) (a : Nat) : (s.ignoredWrite a).pmc = s.pmc := by
  unfold State.ignoredWrite; rw [State.put_pmc, State.bump_pmc]
@[simp] theorem State.ignoredWrite_coldHeld (s : State) (a : Nat) : (s.ignoredWrite a).coldHeld = s.coldHeld := by
  unfold State.ignoredWrite; rw [State.put_coldHeld, State.bump_coldHeld]
@[simp] theorem State.ignoredWrite_warmHeld (s : State) (a : Nat) : (s.ignoredWrite a).warmHeld = s.warmHeld := by
  unfold State.ignoredWrite; rw [State.put_warmHeld, State.bump_warmHeld]
@[simp] theorem State.ignoredWrite_free (s : State) (a : Nat) : (s.ignoredWrite a).free = s.free := by
  unfold State.ignoredWrite; rw [State.put_free, State.bump_free]
@[simp] theorem State.ignoredWrite_pending (s : State) (a : Nat) : (s.ignoredWrite a).pending = s.pending := by
  unfold State.ignoredWrite; rw [State.put_pending, State.bump_pending]

/-! An MSI goes to an interrupt file and out (R518). -/

@[simp] theorem State.sendMsi_regs (s : State) (v : Nat) : (s.sendMsi v).regs = s.regs := by
  rw [State.sendMsi]
@[simp] theorem State.sendMsi_captures (s : State) (v : Nat) : (s.sendMsi v).captures = s.captures := by
  rw [State.sendMsi]
@[simp] theorem State.sendMsi_heldLo (s : State) (v : Nat) : (s.sendMsi v).heldLo = s.heldLo := by
  rw [State.sendMsi]
@[simp] theorem State.sendMsi_time (s : State) (v : Nat) : (s.sendMsi v).time = s.time := by
  rw [State.sendMsi]
@[simp] theorem State.sendMsi_reply (s : State) (v : Nat) : (s.sendMsi v).reply = s.reply := by
  rw [State.sendMsi]
@[simp] theorem State.sendMsi_quays (s : State) (v : Nat) : (s.sendMsi v).quays = s.quays := by
  rw [State.sendMsi]
@[simp] theorem State.sendMsi_faultFifo (s : State) (v : Nat) : (s.sendMsi v).faultFifo = s.faultFifo := by
  rw [State.sendMsi]
@[simp] theorem State.sendMsi_mem (s : State) (v : Nat) : (s.sendMsi v).mem = s.mem := by
  rw [State.sendMsi]
@[simp] theorem State.sendMsi_salv (s : State) (v : Nat) : (s.sendMsi v).salv = s.salv := by
  rw [State.sendMsi]
@[simp] theorem State.sendMsi_shadows (s : State) (v : Nat) : (s.sendMsi v).shadows = s.shadows := by
  rw [State.sendMsi]
@[simp] theorem State.sendMsi_customs (s : State) (v : Nat) : (s.sendMsi v).customs = s.customs := by
  rw [State.sendMsi]
@[simp] theorem State.sendMsi_cam (s : State) (v : Nat) : (s.sendMsi v).cam = s.cam := by
  rw [State.sendMsi]
@[simp] theorem State.sendMsi_camp (s : State) (v : Nat) : (s.sendMsi v).camp = s.camp := by
  rw [State.sendMsi]
@[simp] theorem State.sendMsi_vis (s : State) (v : Nat) : (s.sendMsi v).vis = s.vis := by
  rw [State.sendMsi]
@[simp] theorem State.sendMsi_ledger (s : State) (v : Nat) : (s.sendMsi v).ledger = s.ledger := by
  rw [State.sendMsi]
@[simp] theorem State.sendMsi_snd (s : State) (v : Nat) : (s.sendMsi v).snd = s.snd := by
  rw [State.sendMsi]
@[simp] theorem State.sendMsi_edge (s : State) (v : Nat) : (s.sendMsi v).edge = s.edge := by
  rw [State.sendMsi]
@[simp] theorem State.sendMsi_prog (s : State) (v : Nat) : (s.sendMsi v).prog = s.prog := by
  rw [State.sendMsi]
@[simp] theorem State.sendMsi_tender (s : State) (v : Nat) : (s.sendMsi v).tender = s.tender := by
  rw [State.sendMsi]
@[simp] theorem State.sendMsi_timers (s : State) (v : Nat) : (s.sendMsi v).timers = s.timers := by
  rw [State.sendMsi]
@[simp] theorem State.sendMsi_onnak (s : State) (v : Nat) : (s.sendMsi v).onnak = s.onnak := by
  rw [State.sendMsi]
@[simp] theorem State.sendMsi_eth (s : State) (v : Nat) : (s.sendMsi v).eth = s.eth := by
  rw [State.sendMsi]
@[simp] theorem State.sendMsi_gptp (s : State) (v : Nat) : (s.sendMsi v).gptp = s.gptp := by
  rw [State.sendMsi]
@[simp] theorem State.sendMsi_cg (s : State) (v : Nat) : (s.sendMsi v).cg = s.cg := by
  rw [State.sendMsi]
@[simp] theorem State.sendMsi_pmc (s : State) (v : Nat) : (s.sendMsi v).pmc = s.pmc := by
  rw [State.sendMsi]
@[simp] theorem State.sendMsi_coldHeld (s : State) (v : Nat) : (s.sendMsi v).coldHeld = s.coldHeld := by
  rw [State.sendMsi]
@[simp] theorem State.sendMsi_warmHeld (s : State) (v : Nat) : (s.sendMsi v).warmHeld = s.warmHeld := by
  rw [State.sendMsi]
@[simp] theorem State.sendMsi_free (s : State) (v : Nat) : (s.sendMsi v).free = s.free := by
  rw [State.sendMsi]
@[simp] theorem State.sendMsi_pending (s : State) (v : Nat) : (s.sendMsi v).pending = s.pending := by
  rw [State.sendMsi]

/-! A source raised changes its pending bit, or sends an MSI (R519). -/

@[simp] theorem State.raiseMsi_captures (s : State) (v : Nat) : (s.raiseMsi v).captures = s.captures := by
  unfold State.raiseMsi; split_ifs <;> simp
@[simp] theorem State.raiseMsi_heldLo (s : State) (v : Nat) : (s.raiseMsi v).heldLo = s.heldLo := by
  unfold State.raiseMsi; split_ifs <;> simp
@[simp] theorem State.raiseMsi_time (s : State) (v : Nat) : (s.raiseMsi v).time = s.time := by
  unfold State.raiseMsi; split_ifs <;> simp
@[simp] theorem State.raiseMsi_reply (s : State) (v : Nat) : (s.raiseMsi v).reply = s.reply := by
  unfold State.raiseMsi; split_ifs <;> simp
@[simp] theorem State.raiseMsi_quays (s : State) (v : Nat) : (s.raiseMsi v).quays = s.quays := by
  unfold State.raiseMsi; split_ifs <;> simp
@[simp] theorem State.raiseMsi_faultFifo (s : State) (v : Nat) : (s.raiseMsi v).faultFifo = s.faultFifo := by
  unfold State.raiseMsi; split_ifs <;> simp
@[simp] theorem State.raiseMsi_mem (s : State) (v : Nat) : (s.raiseMsi v).mem = s.mem := by
  unfold State.raiseMsi; split_ifs <;> simp
@[simp] theorem State.raiseMsi_salv (s : State) (v : Nat) : (s.raiseMsi v).salv = s.salv := by
  unfold State.raiseMsi; split_ifs <;> simp
@[simp] theorem State.raiseMsi_shadows (s : State) (v : Nat) : (s.raiseMsi v).shadows = s.shadows := by
  unfold State.raiseMsi; split_ifs <;> simp
@[simp] theorem State.raiseMsi_customs (s : State) (v : Nat) : (s.raiseMsi v).customs = s.customs := by
  unfold State.raiseMsi; split_ifs <;> simp
@[simp] theorem State.raiseMsi_cam (s : State) (v : Nat) : (s.raiseMsi v).cam = s.cam := by
  unfold State.raiseMsi; split_ifs <;> simp
@[simp] theorem State.raiseMsi_camp (s : State) (v : Nat) : (s.raiseMsi v).camp = s.camp := by
  unfold State.raiseMsi; split_ifs <;> simp
@[simp] theorem State.raiseMsi_vis (s : State) (v : Nat) : (s.raiseMsi v).vis = s.vis := by
  unfold State.raiseMsi; split_ifs <;> simp
@[simp] theorem State.raiseMsi_ledger (s : State) (v : Nat) : (s.raiseMsi v).ledger = s.ledger := by
  unfold State.raiseMsi; split_ifs <;> simp
@[simp] theorem State.raiseMsi_snd (s : State) (v : Nat) : (s.raiseMsi v).snd = s.snd := by
  unfold State.raiseMsi; split_ifs <;> simp
@[simp] theorem State.raiseMsi_edge (s : State) (v : Nat) : (s.raiseMsi v).edge = s.edge := by
  unfold State.raiseMsi; split_ifs <;> simp
@[simp] theorem State.raiseMsi_prog (s : State) (v : Nat) : (s.raiseMsi v).prog = s.prog := by
  unfold State.raiseMsi; split_ifs <;> simp
@[simp] theorem State.raiseMsi_tender (s : State) (v : Nat) : (s.raiseMsi v).tender = s.tender := by
  unfold State.raiseMsi; split_ifs <;> simp
@[simp] theorem State.raiseMsi_timers (s : State) (v : Nat) : (s.raiseMsi v).timers = s.timers := by
  unfold State.raiseMsi; split_ifs <;> simp
@[simp] theorem State.raiseMsi_onnak (s : State) (v : Nat) : (s.raiseMsi v).onnak = s.onnak := by
  unfold State.raiseMsi; split_ifs <;> simp
@[simp] theorem State.raiseMsi_eth (s : State) (v : Nat) : (s.raiseMsi v).eth = s.eth := by
  unfold State.raiseMsi; split_ifs <;> simp
@[simp] theorem State.raiseMsi_gptp (s : State) (v : Nat) : (s.raiseMsi v).gptp = s.gptp := by
  unfold State.raiseMsi; split_ifs <;> simp
@[simp] theorem State.raiseMsi_cg (s : State) (v : Nat) : (s.raiseMsi v).cg = s.cg := by
  unfold State.raiseMsi; split_ifs <;> simp
@[simp] theorem State.raiseMsi_pmc (s : State) (v : Nat) : (s.raiseMsi v).pmc = s.pmc := by
  unfold State.raiseMsi; split_ifs <;> simp
@[simp] theorem State.raiseMsi_coldHeld (s : State) (v : Nat) : (s.raiseMsi v).coldHeld = s.coldHeld := by
  unfold State.raiseMsi; split_ifs <;> simp
@[simp] theorem State.raiseMsi_warmHeld (s : State) (v : Nat) : (s.raiseMsi v).warmHeld = s.warmHeld := by
  unfold State.raiseMsi; split_ifs <;> simp
@[simp] theorem State.raiseMsi_free (s : State) (v : Nat) : (s.raiseMsi v).free = s.free := by
  unfold State.raiseMsi; split_ifs <;> simp
@[simp] theorem State.raiseMsi_pending (s : State) (v : Nat) : (s.raiseMsi v).pending = s.pending := by
  unfold State.raiseMsi; split_ifs <;> simp

/-- What setting bits of an event register can do: the bits are set, and the block's source may be raised (R14, R518). -/
theorem State.setEvent_cases (s : State) (a bits : Nat) :
    s.setEvent a bits = s.setReg a (s.reg a ||| w32 bits) ∨
      s.setEvent a bits = (s.setReg a (s.reg a ||| w32 bits)).raiseMsi (24 + blockOf a) := by
  unfold State.setEvent
  dsimp only
  split_ifs
  · exact .inr rfl
  · exact .inl rfl

/-! A set event bit changes its register and may raise the block's source (R14). -/

@[simp] theorem State.setEvent_captures (s : State) (a bits : Nat) : (s.setEvent a bits).captures = s.captures := by
  rcases s.setEvent_cases a bits with h | h
  · rw [h]; simp
  · rw [h]; simp
@[simp] theorem State.setEvent_heldLo (s : State) (a bits : Nat) : (s.setEvent a bits).heldLo = s.heldLo := by
  rcases s.setEvent_cases a bits with h | h
  · rw [h]; simp
  · rw [h]; simp
@[simp] theorem State.setEvent_time (s : State) (a bits : Nat) : (s.setEvent a bits).time = s.time := by
  rcases s.setEvent_cases a bits with h | h
  · rw [h]; simp
  · rw [h]; simp
@[simp] theorem State.setEvent_reply (s : State) (a bits : Nat) : (s.setEvent a bits).reply = s.reply := by
  rcases s.setEvent_cases a bits with h | h
  · rw [h]; simp
  · rw [h]; simp
@[simp] theorem State.setEvent_quays (s : State) (a bits : Nat) : (s.setEvent a bits).quays = s.quays := by
  rcases s.setEvent_cases a bits with h | h
  · rw [h]; simp
  · rw [h]; simp
@[simp] theorem State.setEvent_faultFifo (s : State) (a bits : Nat) : (s.setEvent a bits).faultFifo = s.faultFifo := by
  rcases s.setEvent_cases a bits with h | h
  · rw [h]; simp
  · rw [h]; simp
@[simp] theorem State.setEvent_mem (s : State) (a bits : Nat) : (s.setEvent a bits).mem = s.mem := by
  rcases s.setEvent_cases a bits with h | h
  · rw [h]; simp
  · rw [h]; simp
@[simp] theorem State.setEvent_salv (s : State) (a bits : Nat) : (s.setEvent a bits).salv = s.salv := by
  rcases s.setEvent_cases a bits with h | h
  · rw [h]; simp
  · rw [h]; simp
@[simp] theorem State.setEvent_shadows (s : State) (a bits : Nat) : (s.setEvent a bits).shadows = s.shadows := by
  rcases s.setEvent_cases a bits with h | h
  · rw [h]; simp
  · rw [h]; simp
@[simp] theorem State.setEvent_customs (s : State) (a bits : Nat) : (s.setEvent a bits).customs = s.customs := by
  rcases s.setEvent_cases a bits with h | h
  · rw [h]; simp
  · rw [h]; simp
@[simp] theorem State.setEvent_cam (s : State) (a bits : Nat) : (s.setEvent a bits).cam = s.cam := by
  rcases s.setEvent_cases a bits with h | h
  · rw [h]; simp
  · rw [h]; simp
@[simp] theorem State.setEvent_camp (s : State) (a bits : Nat) : (s.setEvent a bits).camp = s.camp := by
  rcases s.setEvent_cases a bits with h | h
  · rw [h]; simp
  · rw [h]; simp
@[simp] theorem State.setEvent_vis (s : State) (a bits : Nat) : (s.setEvent a bits).vis = s.vis := by
  rcases s.setEvent_cases a bits with h | h
  · rw [h]; simp
  · rw [h]; simp
@[simp] theorem State.setEvent_ledger (s : State) (a bits : Nat) : (s.setEvent a bits).ledger = s.ledger := by
  rcases s.setEvent_cases a bits with h | h
  · rw [h]; simp
  · rw [h]; simp
@[simp] theorem State.setEvent_snd (s : State) (a bits : Nat) : (s.setEvent a bits).snd = s.snd := by
  rcases s.setEvent_cases a bits with h | h
  · rw [h]; simp
  · rw [h]; simp
@[simp] theorem State.setEvent_edge (s : State) (a bits : Nat) : (s.setEvent a bits).edge = s.edge := by
  rcases s.setEvent_cases a bits with h | h
  · rw [h]; simp
  · rw [h]; simp
@[simp] theorem State.setEvent_prog (s : State) (a bits : Nat) : (s.setEvent a bits).prog = s.prog := by
  rcases s.setEvent_cases a bits with h | h
  · rw [h]; simp
  · rw [h]; simp
@[simp] theorem State.setEvent_tender (s : State) (a bits : Nat) : (s.setEvent a bits).tender = s.tender := by
  rcases s.setEvent_cases a bits with h | h
  · rw [h]; simp
  · rw [h]; simp
@[simp] theorem State.setEvent_timers (s : State) (a bits : Nat) : (s.setEvent a bits).timers = s.timers := by
  rcases s.setEvent_cases a bits with h | h
  · rw [h]; simp
  · rw [h]; simp
@[simp] theorem State.setEvent_onnak (s : State) (a bits : Nat) : (s.setEvent a bits).onnak = s.onnak := by
  rcases s.setEvent_cases a bits with h | h
  · rw [h]; simp
  · rw [h]; simp
@[simp] theorem State.setEvent_eth (s : State) (a bits : Nat) : (s.setEvent a bits).eth = s.eth := by
  rcases s.setEvent_cases a bits with h | h
  · rw [h]; simp
  · rw [h]; simp
@[simp] theorem State.setEvent_gptp (s : State) (a bits : Nat) : (s.setEvent a bits).gptp = s.gptp := by
  rcases s.setEvent_cases a bits with h | h
  · rw [h]; simp
  · rw [h]; simp
@[simp] theorem State.setEvent_cg (s : State) (a bits : Nat) : (s.setEvent a bits).cg = s.cg := by
  rcases s.setEvent_cases a bits with h | h
  · rw [h]; simp
  · rw [h]; simp
@[simp] theorem State.setEvent_pmc (s : State) (a bits : Nat) : (s.setEvent a bits).pmc = s.pmc := by
  rcases s.setEvent_cases a bits with h | h
  · rw [h]; simp
  · rw [h]; simp
@[simp] theorem State.setEvent_coldHeld (s : State) (a bits : Nat) : (s.setEvent a bits).coldHeld = s.coldHeld := by
  rcases s.setEvent_cases a bits with h | h
  · rw [h]; simp
  · rw [h]; simp
@[simp] theorem State.setEvent_warmHeld (s : State) (a bits : Nat) : (s.setEvent a bits).warmHeld = s.warmHeld := by
  rcases s.setEvent_cases a bits with h | h
  · rw [h]; simp
  · rw [h]; simp
@[simp] theorem State.setEvent_free (s : State) (a bits : Nat) : (s.setEvent a bits).free = s.free := by
  rcases s.setEvent_cases a bits with h | h
  · rw [h]; simp
  · rw [h]; simp
@[simp] theorem State.setEvent_pending (s : State) (a bits : Nat) : (s.setEvent a bits).pending = s.pending := by
  rcases s.setEvent_cases a bits with h | h
  · rw [h]; simp
  · rw [h]; simp

/-- What a change of the service codes can do: nothing more, or SERVICE_REQ_N, its source and its event (R550). -/
theorem State.serviceLevel_cases (s : State) (was : Word) :
    s.serviceLevel was = s ∨ ∃ e, s.serviceLevel was = ((s.emit e).raiseMsi 47).setEvent Reg.PMC_EVENT 8 := by
  unfold State.serviceLevel
  dsimp only
  split
  · exact .inl rfl
  · exact .inr ⟨_, rfl⟩

/-! The level of SERVICE_REQ_N (R550). -/

@[simp] theorem State.serviceLevel_captures (s : State) (was : Word) : (s.serviceLevel was).captures = s.captures := by
  rcases s.serviceLevel_cases was with h | ⟨e, h⟩
  · rw [h]
  · rw [h]; simp
@[simp] theorem State.serviceLevel_heldLo (s : State) (was : Word) : (s.serviceLevel was).heldLo = s.heldLo := by
  rcases s.serviceLevel_cases was with h | ⟨e, h⟩
  · rw [h]
  · rw [h]; simp
@[simp] theorem State.serviceLevel_time (s : State) (was : Word) : (s.serviceLevel was).time = s.time := by
  rcases s.serviceLevel_cases was with h | ⟨e, h⟩
  · rw [h]
  · rw [h]; simp
@[simp] theorem State.serviceLevel_reply (s : State) (was : Word) : (s.serviceLevel was).reply = s.reply := by
  rcases s.serviceLevel_cases was with h | ⟨e, h⟩
  · rw [h]
  · rw [h]; simp
@[simp] theorem State.serviceLevel_quays (s : State) (was : Word) : (s.serviceLevel was).quays = s.quays := by
  rcases s.serviceLevel_cases was with h | ⟨e, h⟩
  · rw [h]
  · rw [h]; simp
@[simp] theorem State.serviceLevel_faultFifo (s : State) (was : Word) : (s.serviceLevel was).faultFifo = s.faultFifo := by
  rcases s.serviceLevel_cases was with h | ⟨e, h⟩
  · rw [h]
  · rw [h]; simp
@[simp] theorem State.serviceLevel_mem (s : State) (was : Word) : (s.serviceLevel was).mem = s.mem := by
  rcases s.serviceLevel_cases was with h | ⟨e, h⟩
  · rw [h]
  · rw [h]; simp
@[simp] theorem State.serviceLevel_salv (s : State) (was : Word) : (s.serviceLevel was).salv = s.salv := by
  rcases s.serviceLevel_cases was with h | ⟨e, h⟩
  · rw [h]
  · rw [h]; simp
@[simp] theorem State.serviceLevel_shadows (s : State) (was : Word) : (s.serviceLevel was).shadows = s.shadows := by
  rcases s.serviceLevel_cases was with h | ⟨e, h⟩
  · rw [h]
  · rw [h]; simp
@[simp] theorem State.serviceLevel_customs (s : State) (was : Word) : (s.serviceLevel was).customs = s.customs := by
  rcases s.serviceLevel_cases was with h | ⟨e, h⟩
  · rw [h]
  · rw [h]; simp
@[simp] theorem State.serviceLevel_cam (s : State) (was : Word) : (s.serviceLevel was).cam = s.cam := by
  rcases s.serviceLevel_cases was with h | ⟨e, h⟩
  · rw [h]
  · rw [h]; simp
@[simp] theorem State.serviceLevel_camp (s : State) (was : Word) : (s.serviceLevel was).camp = s.camp := by
  rcases s.serviceLevel_cases was with h | ⟨e, h⟩
  · rw [h]
  · rw [h]; simp
@[simp] theorem State.serviceLevel_vis (s : State) (was : Word) : (s.serviceLevel was).vis = s.vis := by
  rcases s.serviceLevel_cases was with h | ⟨e, h⟩
  · rw [h]
  · rw [h]; simp
@[simp] theorem State.serviceLevel_ledger (s : State) (was : Word) : (s.serviceLevel was).ledger = s.ledger := by
  rcases s.serviceLevel_cases was with h | ⟨e, h⟩
  · rw [h]
  · rw [h]; simp
@[simp] theorem State.serviceLevel_snd (s : State) (was : Word) : (s.serviceLevel was).snd = s.snd := by
  rcases s.serviceLevel_cases was with h | ⟨e, h⟩
  · rw [h]
  · rw [h]; simp
@[simp] theorem State.serviceLevel_edge (s : State) (was : Word) : (s.serviceLevel was).edge = s.edge := by
  rcases s.serviceLevel_cases was with h | ⟨e, h⟩
  · rw [h]
  · rw [h]; simp
@[simp] theorem State.serviceLevel_prog (s : State) (was : Word) : (s.serviceLevel was).prog = s.prog := by
  rcases s.serviceLevel_cases was with h | ⟨e, h⟩
  · rw [h]
  · rw [h]; simp
@[simp] theorem State.serviceLevel_tender (s : State) (was : Word) : (s.serviceLevel was).tender = s.tender := by
  rcases s.serviceLevel_cases was with h | ⟨e, h⟩
  · rw [h]
  · rw [h]; simp
@[simp] theorem State.serviceLevel_timers (s : State) (was : Word) : (s.serviceLevel was).timers = s.timers := by
  rcases s.serviceLevel_cases was with h | ⟨e, h⟩
  · rw [h]
  · rw [h]; simp
@[simp] theorem State.serviceLevel_onnak (s : State) (was : Word) : (s.serviceLevel was).onnak = s.onnak := by
  rcases s.serviceLevel_cases was with h | ⟨e, h⟩
  · rw [h]
  · rw [h]; simp
@[simp] theorem State.serviceLevel_eth (s : State) (was : Word) : (s.serviceLevel was).eth = s.eth := by
  rcases s.serviceLevel_cases was with h | ⟨e, h⟩
  · rw [h]
  · rw [h]; simp
@[simp] theorem State.serviceLevel_gptp (s : State) (was : Word) : (s.serviceLevel was).gptp = s.gptp := by
  rcases s.serviceLevel_cases was with h | ⟨e, h⟩
  · rw [h]
  · rw [h]; simp
@[simp] theorem State.serviceLevel_cg (s : State) (was : Word) : (s.serviceLevel was).cg = s.cg := by
  rcases s.serviceLevel_cases was with h | ⟨e, h⟩
  · rw [h]
  · rw [h]; simp
@[simp] theorem State.serviceLevel_pmc (s : State) (was : Word) : (s.serviceLevel was).pmc = s.pmc := by
  rcases s.serviceLevel_cases was with h | ⟨e, h⟩
  · rw [h]
  · rw [h]; simp
@[simp] theorem State.serviceLevel_coldHeld (s : State) (was : Word) : (s.serviceLevel was).coldHeld = s.coldHeld := by
  rcases s.serviceLevel_cases was with h | ⟨e, h⟩
  · rw [h]
  · rw [h]; simp
@[simp] theorem State.serviceLevel_warmHeld (s : State) (was : Word) : (s.serviceLevel was).warmHeld = s.warmHeld := by
  rcases s.serviceLevel_cases was with h | ⟨e, h⟩
  · rw [h]
  · rw [h]; simp
@[simp] theorem State.serviceLevel_free (s : State) (was : Word) : (s.serviceLevel was).free = s.free := by
  rcases s.serviceLevel_cases was with h | ⟨e, h⟩
  · rw [h]
  · rw [h]; simp
@[simp] theorem State.serviceLevel_pending (s : State) (was : Word) : (s.serviceLevel was).pending = s.pending := by
  rcases s.serviceLevel_cases was with h | ⟨e, h⟩
  · rw [h]
  · rw [h]; simp

/-- What raising a service code does: registers, then the level of SERVICE_REQ_N (R550). -/
theorem State.service_cases (s : State) (code : Nat) :
    ∃ r w, s.service code = ({ s with regs := r } : State).serviceLevel w := by
  unfold State.service
  dsimp only
  split
  · exact ⟨_, _, rfl⟩
  · exact ⟨_, _, rfl⟩

/-! A service code raised (R550). -/

@[simp] theorem State.service_captures (s : State) (code : Nat) : (s.service code).captures = s.captures := by
  obtain ⟨r, w, h⟩ := s.service_cases code; rw [h]; simp
@[simp] theorem State.service_heldLo (s : State) (code : Nat) : (s.service code).heldLo = s.heldLo := by
  obtain ⟨r, w, h⟩ := s.service_cases code; rw [h]; simp
@[simp] theorem State.service_time (s : State) (code : Nat) : (s.service code).time = s.time := by
  obtain ⟨r, w, h⟩ := s.service_cases code; rw [h]; simp
@[simp] theorem State.service_reply (s : State) (code : Nat) : (s.service code).reply = s.reply := by
  obtain ⟨r, w, h⟩ := s.service_cases code; rw [h]; simp
@[simp] theorem State.service_quays (s : State) (code : Nat) : (s.service code).quays = s.quays := by
  obtain ⟨r, w, h⟩ := s.service_cases code; rw [h]; simp
@[simp] theorem State.service_faultFifo (s : State) (code : Nat) : (s.service code).faultFifo = s.faultFifo := by
  obtain ⟨r, w, h⟩ := s.service_cases code; rw [h]; simp
@[simp] theorem State.service_mem (s : State) (code : Nat) : (s.service code).mem = s.mem := by
  obtain ⟨r, w, h⟩ := s.service_cases code; rw [h]; simp
@[simp] theorem State.service_salv (s : State) (code : Nat) : (s.service code).salv = s.salv := by
  obtain ⟨r, w, h⟩ := s.service_cases code; rw [h]; simp
@[simp] theorem State.service_shadows (s : State) (code : Nat) : (s.service code).shadows = s.shadows := by
  obtain ⟨r, w, h⟩ := s.service_cases code; rw [h]; simp
@[simp] theorem State.service_customs (s : State) (code : Nat) : (s.service code).customs = s.customs := by
  obtain ⟨r, w, h⟩ := s.service_cases code; rw [h]; simp
@[simp] theorem State.service_cam (s : State) (code : Nat) : (s.service code).cam = s.cam := by
  obtain ⟨r, w, h⟩ := s.service_cases code; rw [h]; simp
@[simp] theorem State.service_camp (s : State) (code : Nat) : (s.service code).camp = s.camp := by
  obtain ⟨r, w, h⟩ := s.service_cases code; rw [h]; simp
@[simp] theorem State.service_vis (s : State) (code : Nat) : (s.service code).vis = s.vis := by
  obtain ⟨r, w, h⟩ := s.service_cases code; rw [h]; simp
@[simp] theorem State.service_ledger (s : State) (code : Nat) : (s.service code).ledger = s.ledger := by
  obtain ⟨r, w, h⟩ := s.service_cases code; rw [h]; simp
@[simp] theorem State.service_snd (s : State) (code : Nat) : (s.service code).snd = s.snd := by
  obtain ⟨r, w, h⟩ := s.service_cases code; rw [h]; simp
@[simp] theorem State.service_edge (s : State) (code : Nat) : (s.service code).edge = s.edge := by
  obtain ⟨r, w, h⟩ := s.service_cases code; rw [h]; simp
@[simp] theorem State.service_prog (s : State) (code : Nat) : (s.service code).prog = s.prog := by
  obtain ⟨r, w, h⟩ := s.service_cases code; rw [h]; simp
@[simp] theorem State.service_tender (s : State) (code : Nat) : (s.service code).tender = s.tender := by
  obtain ⟨r, w, h⟩ := s.service_cases code; rw [h]; simp
@[simp] theorem State.service_timers (s : State) (code : Nat) : (s.service code).timers = s.timers := by
  obtain ⟨r, w, h⟩ := s.service_cases code; rw [h]; simp
@[simp] theorem State.service_onnak (s : State) (code : Nat) : (s.service code).onnak = s.onnak := by
  obtain ⟨r, w, h⟩ := s.service_cases code; rw [h]; simp
@[simp] theorem State.service_eth (s : State) (code : Nat) : (s.service code).eth = s.eth := by
  obtain ⟨r, w, h⟩ := s.service_cases code; rw [h]; simp
@[simp] theorem State.service_gptp (s : State) (code : Nat) : (s.service code).gptp = s.gptp := by
  obtain ⟨r, w, h⟩ := s.service_cases code; rw [h]; simp
@[simp] theorem State.service_cg (s : State) (code : Nat) : (s.service code).cg = s.cg := by
  obtain ⟨r, w, h⟩ := s.service_cases code; rw [h]; simp
@[simp] theorem State.service_pmc (s : State) (code : Nat) : (s.service code).pmc = s.pmc := by
  obtain ⟨r, w, h⟩ := s.service_cases code; rw [h]; simp
@[simp] theorem State.service_coldHeld (s : State) (code : Nat) : (s.service code).coldHeld = s.coldHeld := by
  obtain ⟨r, w, h⟩ := s.service_cases code; rw [h]; simp
@[simp] theorem State.service_warmHeld (s : State) (code : Nat) : (s.service code).warmHeld = s.warmHeld := by
  obtain ⟨r, w, h⟩ := s.service_cases code; rw [h]; simp
@[simp] theorem State.service_free (s : State) (code : Nat) : (s.service code).free = s.free := by
  obtain ⟨r, w, h⟩ := s.service_cases code; rw [h]; simp
@[simp] theorem State.service_pending (s : State) (code : Nat) : (s.service code).pending = s.pending := by
  obtain ⟨r, w, h⟩ := s.service_cases code; rw [h]; simp

end Sys2Proof.Machine
end

