-- ==== Sys2Proof/Laws/Prog.lean ====
section
/-! SUPPORT. Tensor programs: what the next command of a stage does once it is sound and its operands are found, in one lemma for ELV and one
for LAYOUT. -/
namespace Sys2Proof.Machine

/-- Found operands wait for nothing. -/
theorem RefSet.found_waits (r : RefSet) (h : r.found) : r.all.any (fun x => x = .wait) = false := by
  simp only [List.any_eq_false, decide_eq_true_eq]
  intro x hx
  rcases h x hx with rfl | ⟨o, rfl⟩ <;> simp

/-- A sound command of an ELV stage runs with its operands. -/
theorem State.elvIssue_ready (s : State) (op inst k : Nat) (cx : CmdCtx) (go : State → CmdCtx → Refs → State) (h : s.elvReady op inst k cx) :
    s.elvIssue op inst k go = go s cx (s.refSet cx cx.c.uses).refs := by
  obtain ⟨hc, hm, ho, hf, hfound⟩ := h
  have hw := RefSet.found_waits _ hfound
  unfold State.elvIssue
  simp only [hc, hm, ho, hf, hw]
  simp
  rw [if_neg, if_pos]
  · intro x hx
    rcases hfound x hx with rfl | ⟨o, rfl⟩ <;> rfl
  · rintro ⟨x, hx, h⟩
    rcases hfound x hx with rfl | ⟨o, rfl⟩ <;> exact h rfl

/-- A sound command of a LAYOUT stage other than END runs with its operands; END ends the program. -/
theorem State.layIssue_ready (s : State) (op inst : Nat) (cx : CmdCtx) (h : s.layReady op inst cx) :
    s.layIssue op inst = if op = 0x0A then s.progEnd cx else s.runLayout cx (s.refSet cx cx.c.layUses).refs := by
  obtain ⟨hc, ho, hf, hfound, hr⟩ := h
  have hw := RefSet.found_waits _ hfound
  unfold State.layIssue
  simp only [hc, ho, hf, hw, hr]
  simp
  rw [if_neg]
  · split
    · rfl
    · rw [if_pos]
      intro x hx
      rcases hfound x hx with rfl | ⟨o, rfl⟩ <;> rfl
  · rintro ⟨x, hx, h⟩
    rcases hfound x hx with rfl | ⟨o, rfl⟩ <;> exact h rfl

end Sys2Proof.Machine
end

