-- ==== Sys2Proof/Tests/Slice0.lean ====
section
/-! SUPPORT. The model's own tests: the well-formedness checks, and for every statement a concrete state and operands that meet its hypotheses. -/
namespace Sys2Proof.Tests
open Sys2Proof.Machine
set_option Elab.async false

/-- The device right after reset, and one second later. -/
abbrev s0 : State := State.reset
def s1 : State := { s0 with time := { s0.time with now := 1000000000 } }

/-- A small Moored chart: one stage on one engine, one window, two frames in flight, a period of 33 ms. -/
def cfg0 : QuayCfg := ⟨false, 2, false, 33000, 0, 900, 0, 0, 16, 2, 16, 1, 30000, 0⟩
def eng0 (cls inst : Nat) : EngineE := ⟨cls, inst, false, false, 0⟩
def stg0 : StageE := ⟨5, 0, 0xFFFF, [], [], 1000, 1, false, false, false, 0⟩
def chart0 (cls inst : Nat) (params : List ParamE) : Chart :=
  ⟨1, 0, 7, false, false, cfg0, [eng0 cls inst], [], [], [stg0], [⟨0, 1, false, 100, 20000⟩], [], [], [], [], none, params⟩
def chartP (cls inst : Nat) : Chart := { chart0 cls inst [] with cfg := { cfg0 with piloted := true } }

/-- Quay q of state s is in state st with a chart. -/
def inSt (s : State) (q : Fin 4) (st : QState) (c : Option Chart) : State := s.modQuay q (fun x => { x with st := st, chart := c })

/-- A frame in flight with one stage that runs. -/
def run0 : StageRun := ⟨0, true, false, false, none, [], [], 0, none, false, false⟩
def frm0 : FrameRec := ⟨3#32, 0, 0, true, false, false, false, false, [run0], [], [], [], false, false, false⟩

/-- A parameter record: n bytes, zero but for those given. -/
def rec0 (n : Nat) (ps : List (Nat × Byte)) : List Byte := (List.range n).map (fun i => ((ps.find? (fun p => p.1 = i)).map (·.2)).getD 0#8)

/-- Quay 1 in a state with a chart and frames in flight. -/
def quay1 (st : QState) (c : Chart) (fs : List FrameRec) : State := (inSt s1 1 st (some c)).modQuay 1 (fun x => { x with frames := fs })

/-- Quay 1 runs with receiver 0, whose context 0 takes RAW10 packets and injects patterns. -/
def camChart : Chart := chart0 Cls.CAMRX 0 [⟨0x0A, 0, 1, rec0 160 [(0x0C, 1), (0x11, 0x2B), (0x12, 4)]⟩]
def cam0 : State := quay1 .running camChart [frm0]
def sf0 : StreamFrame := ⟨3#32, 0, 0, 0, 0, 0, 0, 0, 0, 0, 0, false, false, none, false⟩
def camCur : State := { cam0.modCtx 0 (fun x => { x with cur := some sf0 }) with cam := { (cam0.modCtx 0 (fun x => { x with cur := some sf0 })).cam with ticks := [⟨1, 0, 3#32⟩] } }

/-! The states of the witnesses. -/
def sLoss : State := { s1 with time := { s1.time with locked := true, step := some 5 } }
def vOk : LoadVerdict := ⟨St.OK, [], some (chart0 5 0 []), [0], 1#8, [], 0⟩
def qLd (v : LoadVerdict) : State := s1.modQuay 1 (fun x => { x with busy := some .load, load := some v })
def qSt (c : Chart) : State := inSt s1 1 .loaded (some c)
def qD (st : QState) : State := inSt s1 1 st (some (chart0 5 0 []))
def qDf : State := (qD .running).modQuay 1 (fun x => { x with frames := [frm0, { frm0 with num := 4#32 }] })
def qR : State := (qD .resetting).modQuay 1 (fun x => { x with busy := some .reset })
def qR2 : State := qR.modQuay 1 (fun x => { x with phase := .drained })
def qE (c : Chart) : State := inSt s1 1 .loaded (some c)
def cL : Chart := { chart0 5 0 [] with lights := [⟨0,0,0,0,0⟩] }
def qA (c : Chart) (st : QState) (fs : List FrameRec) : State := (inSt s1 1 st (some c)).modQuay 1 (fun x => { x with frames := fs })
abbrev c5 := chart0 5 0 []
def f9 : FrameRec := { frm0 with tick := 0 }
def fL : FrameRec := { frm0 with tick := 999900000 }
def cS (k : Nat) := chart0 k 0 []
def fe : FaultEntry := ⟨0, 1, 0, 0⟩
def tg : ReqTag := ⟨1, 0#8, 3, 0, 3#32, 0, 0⟩
def rq : BerthReq := ⟨tg, 3#32, 0, 0, .read, List.replicate 64 0xAB#8, 2^64-1, false, 0⟩
def sB (fenced : Bool) (t : Word) : State := ((qA c5 .running [f9]).setTag 0 t).modQuay 1 (fun x => { x with handles := [⟨3,0,3,0,16,false,fenced⟩] })
def tgFull := mkTag true false 3 0 1 true false
def bst : Burst := ⟨2, [{ rq with kind := .write, off := 1024 }], 0⟩
def sBb : State := (sB false tgFull).modMem (fun m => { m with bursts := [bst] })
def cBt : Chart := { c5 with berths := [⟨0, 0, 16, false, false⟩], handles := [⟨3, 0, 3, 0, 16⟩] }
def sT2 (first count : Nat) : State :=
  ((((qA cBt .docked []).put (Reg.QUAY_SPAD_TAG_FIRST 1) first).put (Reg.QUAY_SPAD_TAG_COUNT 1) count)).claimBerths 1 cBt 0#8 true
def sg (td : Nat) : BerthSig := ⟨1, td, 3, 0, 0, 3#32⟩
def mr : MemReq := ⟨tg, 0x1000, .read, 0, [], 2^64-1, false, 0, [], 0⟩
def sM (f : Bool) : State := (qA cBt .running [f9]).modQuay 1 (fun x => { x with handles := [⟨3,1,3,0,4096,false,f⟩] })
def ou (k : ReqKind) : Outstanding := ⟨{ mr with kind := k }, 0, 0⟩
def sO (o : Outstanding) : State := (sM false).modMem (fun m => { m with outstanding := [o] })
def en : Fin 4 × List Byte := (1, rec0 160 [(0x0C, 1), (0x11, 0x2B), (0x12, 4)])
def rr : StreamRec := ⟨rec0 48 [(1, 0x2B), (2, 4)]⟩
def camT : State := { cam0 with cam := { cam0.cam with ticks := [⟨1, 0, 3#32⟩] } }
def fsChart : Chart := chart0 Cls.FSYNC 0 [⟨0x0A, 0, 1, rec0 16 [(8, 1), (0xC, 2)]⟩]
def fs0 : State := { quay1 .running fsChart [frm0] with cam := { s0.cam with ticks := [⟨1, 0, 3#32⟩], fsync := List.replicate 8 true } }
def fsb : List Byte := rec0 16 [(8, 1), (0xC, 2)]
def i3Chart : Chart :=
  { camChart with engines := [eng0 Cls.CAMRX 0, eng0 Cls.I3C 0], params := camChart.params ++ [⟨0x0A, 1, 1, rec0 16 [(0xA, 10)]⟩] }
def tk : Ticket := ⟨1, 0, 3#32, 5, [0,0,0,0], false⟩
def i3s : State := quay1 .running i3Chart [frm0]
def i3t : State := i3s.setI3c 0 (some (.ticket tk 3#32 0 none))
def i3W : Chart := { i3Chart with params := [⟨0x0A, 0, 1, rec0 160 [(0x0C, 1), (0x11, 0x2B), (0x12, 4), (0x32, 1)]⟩] ++ i3Chart.params.drop 1 }
def i3u : State :=
  { quay1 .running i3W [frm0] with cam := { s0.cam with ticks := [⟨1, 999990000, 3#32⟩], ctxs := modAt s0.cam.ctxs 0 (fun x => { x with queue := [tk] }) } }
def sp (hl : List Nat) : State := (s0.put (Reg.SPI_STAMP_CTRL 3) (1 + 2^21)).setSpi 3 ⟨hl, 0, false⟩
def campRec0 : List Byte := rec0 3728 [(1, 0), (8, 5), (0x80+6,0), (0x80+0xA, 2), (0x80+0xC, 2), (0x80+0xE, 1)]
def campChart : Chart :=
  { camChart with engines := [eng0 Cls.CAMRX 0, eng0 Cls.CAMP 0], stages := [{ stg0 with engine := 1, outs := [3] }], params := camChart.params ++ [⟨0x0B, 1, 1, rec0 16 [(8, 1)] ++ campRec0⟩] }
def campS : State := quay1 .running campChart [frm0]
def cl0 : CampLine := ⟨3#32, 0, [1,2,3,4,5], 0⟩
def crun : CampRun := { CampRun.start 3#32 with lines := 1, passes := 9 }
def campL (u : CampRun) (ls : List CampLine) : State := campS.modSlot 0 (fun x => { x with inbound := ls, runs := [u] })
def visChart (cls : Nat) (job : List (Nat × Byte)) : Chart :=
  { chart0 cls 0 [⟨0x0B, 0, 1, rec0 0x10 [(8, 1)] ++ rec0 128 ((0, 5) :: job)⟩] with stages := [{ stg0 with ins := [3, 4] }] }
def jb (n : Nat) (job : List (Nat × Byte)) : List Byte := (rec0 128 ((0,5) :: job)).take n
def visF (r : StageRun) : FrameRec := { frm0 with stages := [r] }
def visS (cls : Nat) (job : List (Nat × Byte)) (r : StageRun) : State := quay1 .running (visChart cls job) [visF r]
def visH (s : State) : State := s.modQuay 1 (fun x => { x with handles := [⟨3,0,3,0,16,false,false⟩] })
def runFl := { run0 with gathered := [0x82#8] }
def vr (cls band : Nat) : VisRun := ⟨cls, 0, 1, 3#32, 0, [Desc.ofBytes (rec0 128 [])], 0, band, []⟩
def wj : List (Nat × Byte) := [(8, 1), (0xA, 1), (0xD, 1), (0x10, 1), (0x12, 1)]
def pr0 : List Byte := rec0 64 [(0x24, 8)]
def fj : List (Nat × Byte) := [(3, 1)]
def ledS : State := (visS 7 fj run0).store 0 pr0
def mapB : List Byte := rec0 0x50 [(8, 1)] ++ rec0 64 [(0, 5)]
def one4 (o : Nat) : List (Nat × Byte) := [(o+2, 0x80), (o+3, 0x3F)]
def pose0 : List Byte := rec0 64 (one4 0 ++ one4 16 ++ one4 32)
def sndS (fs : List FrameRec) : State :=
  (quay1 .running { chart0 9 0 [⟨0x0B, 0, 1, mapB⟩] with engines := [eng0 9 0, eng0 3 0], stages := [{ stg0 with ins := [3] }, { stg0 with stage := 6, engine := 1, outs := [3] }] } fs).store 0 pose0
def sndF (st : Option Status) : FrameRec := { frm0 with stages := [run0, { run0 with idx := 1, status := st }] }
def sndV (st : Option Status) : State := { sndS [sndF st] with vis := [vr 9 0] }
def egB : List Byte := rec0 0x10 [(8, 1)] ++ rec0 192 [(7, 1), (0xC, 100)]
def egS (t : Nat) : State :=
  { (inSt s1 0 .running (some (chart0 10 0 [⟨0xD, 0, 1, egB⟩]))) with edge := ⟨[⟨[⟨3#32, t, 0, [⟨⟨[], 0, false⟩, none⟩]⟩], [⟨true, ⟨0,0⟩, ⟨0,0⟩⟩]⟩], false, false⟩ }
def dsc (fmt base n0 n1 t0 t1 : Nat) : List Byte := rec0 128 ([(0, 2), (1, BitVec.ofNat 8 fmt)] ++
  (List.range 6).map (fun i => (8 + i, BitVec.ofNat 8 (base / 256 ^ i))) ++ [(0x10, BitVec.ofNat 8 n0), (0x14, BitVec.ofNat 8 n1), (0x18, 1), (0x1C, 1), (0x20, 1), (0x24, 1), (0x28, BitVec.ofNat 8 t0), (0x2D, BitVec.ofNat 8 t1)])
def cmdB (op fb a b c dst : Nat) (ps : List (Nat × Byte)) : List Byte :=
  rec0 64 ([(0, BitVec.ofNat 8 op), (2, 3), (3, BitVec.ofNat 8 fb), (4, 3)] ++ [(8, BitVec.ofNat 8 a), (9, BitVec.ofNat 8 (a/256)), (0xA, BitVec.ofNat 8 b), (0xB, BitVec.ofNat 8 (b/256)),
    (0xC, BitVec.ofNat 8 c), (0xD, BitVec.ofNat 8 (c/256)), (0xE, BitVec.ofNat 8 dst), (0xF, BitVec.ofNat 8 (dst/256)), (0x10, 1), (0x14, 1), (0x18, 1)] ++ ps)
def prog0 (req : Bool) (cmd : List Byte) : List Byte :=
  rec0 64 [(5, 1), (8, 3), (0xC, 0x80), (0x11, 2), (0x14, 1)] ++ rec0 64 ([(0, 5), (0xC, 1), (0x16, 1)] ++ (if req then [(4, 2)] else [])) ++
  dsc 3 (2^47) 1 1 1 1 ++ dsc 3 0x1000 1 1 1 1 ++ dsc 6 0x2000 8 1 4 32 ++ cmd
def prun0 : ProgRun := ⟨1, 3#32, 0, 0, 0, none, false, none, [], 0⟩
def progS (cls : Nat) (req : Bool) (cmd : List Byte) : State :=
  let s := (quay1 .running (chart0 cls 0 [⟨0xC, 0, 1, rec0 80 [(8, 9)]⟩]) [frm0]).modQuay 1 (fun x => { x with handles := [⟨9, 0, 3, 0, 1, false, false⟩] })
  let s := s.store (berthAddr 0) (prog0 req cmd)
  if cls = 11 then { s with prog := { s.prog with elv := setAt s.prog.elv 0 [prun0] } } else { s with prog := { s.prog with lay := setAt s.prog.lay 0 [prun0] } }
def NO := 0xFFFF
def elvCmd (op : Nat) : List Byte := match op with
  | 1 => cmdB 1 3 0 0 NO 0 []
  | 2 => cmdB 2 3 0 0 NO 0 [(0x20,1),(0x21,1),(0x22,1),(0x23,1),(0x24,1),(0x25,1),(0x26,1)]
  | 3 => cmdB 3 3 0 0 0 0 [(0x20, 1), (0x22, 16), (0x28, 0xFF), (0x29, 0xFF)]
  | 4 => cmdB 4 0xFF 0 NO NO 0 []
  | 5 => cmdB 5 0xFF 0 NO NO 0 [(0x20, 6)]
  | 6 => cmdB 6 0xFF 0 NO NO 0 []
  | 7 => cmdB 7 0xFF 1 NO NO 0 []
  | 8 => cmdB 8 0xFF 0 NO NO 0 []
  | n => cmdB n 0xFF NO NO NO NO []
def layCmd (op : Nat) : List Byte := match op with
  | 8 => cmdB 8 0xFF 1 NO NO 1 []
  | 16 => cmdB 16 0xFF 1 NO NO 1 [(0x21,1),(0x22,2),(0x23,3),(0x24,4),(0x25,5)]
  | 17 => cmdB 17 6 1 2 NO 1 []
  | 18 => cmdB 18 6 1 2 NO 1 []
  | 19 => cmdB 19 0xFF NO NO NO 1 []
  | n => cmdB n 0xFF NO NO NO NO []
def elvS (op : Nat) := progS 11 false (elvCmd op)
def layS (op : Nat) := progS 12 false (layCmd op)
def foundB (r : RefSet) : Bool := r.all.all (fun x => match x with | .unused => true | .ref _ b => !b | _ => false)
theorem found_of {r : RefSet} (h : foundB r = true) : r.found := by
  intro x hx
  have := List.all_eq_true.mp h x hx
  cases x with
  | unused => left; rfl
  | ref o b => right; exact ⟨o, by cases b <;> simp_all⟩
  | _ => simp at this
def elvOk (s : State) (op inst k : Nat) : Bool := match s.cmdCtx Cls.ELV inst k with
  | some cx => s.mayIssue inst k cx.run && decide (cx.c.op = op) && decide (cx.elvFaults cx.c.uses (s.refSet cx cx.c.uses) = []) && foundB (s.refSet cx cx.c.uses)
  | none => false
theorem elvReady_of {s : State} {op inst k : Nat} (h : elvOk s op inst k = true) : ∃ cx, s.elvReady op inst k cx := by
  unfold elvOk at h
  split at h
  · rename_i cx hc
    simp only [Bool.and_eq_true, decide_eq_true_eq] at h
    exact ⟨cx, hc, h.1.1.1, h.1.1.2, h.1.2, found_of h.2⟩
  · cases h
def layOk (s : State) (op inst : Nat) : Bool := match s.cmdCtx Cls.LAYOUT inst 0 with
  | some cx => decide (cx.c.op = op) && decide (cx.layFaults cx.c.layUses (s.refSet cx cx.c.layUses) = []) && foundB (s.refSet cx cx.c.layUses) &&
      ([(s.refSet cx cx.c.layUses).refs.a, (s.refSet cx cx.c.layUses).refs.b].filterMap id).all (s.refReady cx)
  | none => false
theorem layReady_of {s : State} {op inst : Nat} (h : layOk s op inst = true) : ∃ cx, s.layReady op inst cx := by
  unfold layOk at h
  split at h
  · rename_i cx hc
    simp only [Bool.and_eq_true, decide_eq_true_eq] at h
    exact ⟨cx, hc, h.1.1.1, h.1.1.2, found_of h.1.2, h.2⟩
  · cases h
def noRefs : Refs := ⟨none, none, none, none, none, none⟩
def xf : ElvXfer := ⟨0, 3#32, ⟨elvCmd 7⟩, noRefs⟩
def xfS : State := { elvS 7 with prog := { (elvS 7).prog with xfers := setAt (elvS 7).prog.xfers 0 [xf] } }
theorem someCx : (xfS.begin.cmdAt Cls.ELV 0 prun0).isSome = true := by decide +kernel
def bolS (w : Bool) : State := let c := { chart0 11 0 [⟨0xC, 0, 1, rec0 80 [(8, 9)]⟩] with major := 2 }
  { (elvS 9).modQuay 1 (fun x => { x with chart := some c }) with prog := { (elvS 9).prog with elv := setAt (elvS 9).prog.elv 0 [{ prun0 with waiting := w, layer := 1 }] } }
def tanS : State :=
  ({ (elvS 9) with prog := { (elvS 9).prog with elv := setAt (elvS 9).prog.elv 0 [{ prun0 with layer := 1, layerCmd := some ⟨cmdB 9 0xFF NO NO NO NO [(0x25, 1)]⟩ }, { prun0 with startedAt := 1 }] } }).put (Reg.HM_QUAY_TANDEM 1) 1
theorem p0 : (tanS.begin.cmdCtx Cls.ELV 0 0).isSome = true := by decide +kernel
theorem p1 : (tanS.begin.cmdCtx Cls.ELV 0 1).isSome = true := by decide +kernel
def isSt (r : RefRes) : Bool := match r with | .status _ => true | _ => false
def ldS : State := inSt s1 1 .loaded (some (chart0 5 0 []))
def rgS (s : State) (p : Nat) : State := (s.put (Reg.HM_CMDRING_BASE_HI 1) (4 * 65536)).put (Reg.HM_CMDRING_PRODUCER 1) p
def entB : List Byte := rec0 64 [(0, 1), (4, 5), (8, 77)]
def reqS : State := rgS ((progS 11 true (elvCmd 5)).store 0x100000 entB) 1 |>.put (Reg.HM_CMDRING_BASE_LO 1) 0x100000
def rq1 : Request := ⟨77, 0#8, 5, none, 0#32, 0⟩
def disS (v : List Request) (vs : Nat) : State :=
  (progS 11 true (elvCmd 5)).modQuay 1 (fun x => { x with chart := x.chart.map (fun c => { c with cfg := { c.cfg with voyages := vs } }), requests := rq1 :: v, frames := [{ frm0 with opened := [0], stages := [{ run0 with dispatched := false }] }] })
def tch (st : TState) : TChan := { TChan.reset with st := st, count := 64, blockEnd := 64, dst := 0x1000 }
def tenS (c : TChan) : State := { s1 with tender := setAt s1.tender 2 c }
def tenR (c : TChan) : State := (((tenS c).put (Reg.TENDER_CH_COUNT 2) 64).put (Reg.TENDER_CH_DST_LO 2) 0x1000)
def heldT : State := quay1 .running (chart0 13 2 []) []
def tl0 (d : Option (List Byte × Bool)) : TLine := ⟨0, 64, 0, false, d⟩
def tLn (st : TState) (l : TLine) : State := tenS { tch st with lines := [l] }
def timS (en : Nat) : State := (s1.put (Reg.TENDER_TIMER_PERIOD 3) 10).put (Reg.TENDER_TIMER_CTRL 3) en
def dd : List Byte := List.replicate 64 7#8
def eth0 (body : List Byte) : List Byte := List.replicate 12 1#8 ++ [0x88#8, 0xB5#8] ++ body
def onS : State := let s := s1.put Reg.ONNAK_CTRL 1
  { s with onnak := { s.onnak with ports := setAt s.onnak.ports 0 ⟨true, true, true⟩, peers := setAt s.onnak.peers 3 { Peer.reset with st := .up, version := 0x11, theirs := some 7, heard := [0], rx := List.replicate 6 ⟨0, 100, none⟩ } } }
def upS : State := onS.put (Reg.ONNAK_PEER_ROUTE 3) 15
def oB (ty lane : Nat) (fl : List (Nat × Byte)) : List Byte :=
  eth0 (rec0 64 (fl ++ [(0, 0x11), (1, BitVec.ofNat 8 ty), (2, 3), (4, BitVec.ofNat 8 lane), (0xA, 7), (0x18, 1), (0x1A, 1), (0x20, 9)]))
def uN (ty : Nat) (f : List Byte) : State := (upS.begin.arrival ty 0 f true).1
def oN (ty : Nat) (f : List Byte) : Nat × OHdr × List Byte := (upS.begin.arrival ty 0 f true).2.getD (0, OHdr.ofBytes [], [])
theorem arr (ty : Nat) (f : List Byte) (h : (upS.begin.arrival ty 0 f true).2.isSome = true) : upS.begin.arrival ty 0 f true = (uN ty f, some ((oN ty f).1, (oN ty f).2.1, (oN ty f).2.2)) := by
  unfold uN oN
  obtain ⟨x, hx⟩ := Option.isSome_iff_exists.mp h
  rw [hx]; exact Prod.ext rfl hx
theorem arrN (ty : Nat) (f : List Byte) (h : (upS.begin.arrival ty 0 f true).2 = none) : upS.begin.arrival ty 0 f true = (uN ty f, none) := Prod.ext rfl h
def fA := oB 2 0 []
def fBd (q : Byte) := oB 3 1 [(0x18, q)]
def fR (ty : Nat) := oB ty 1 []

/-- The registers' rows, for the witnesses. -/
def rowAt (a : Nat) : RegRow := ((regRow a).map (·.1)).getD ⟨"", 0, 0, 0, .ro, 0, 0, false, .none, false⟩
def idle (s : State) : State := match step s with | .next t => t | _ => s
def held0 : State := { s0 with coldHeld := true }
def warm0 : State := { s0 with warmHeld := true }
def heldLo0 : State := s0.holdLo (Reg.SALVAGE_QUAY_DUMP_LO 0) 7
def ptp (ty : Byte) : List Byte := rec0 54 [(0, ty)]
def gp0 : State := { s1 with gptp := { s1.gptp with master := some [], sync := some (0, 0, 5), pdelay := some (0, 1, 9) } }
def campDoneS : State := campL { crun with written := [1, 1, 1, 1], statsDone := true } []
def sT3 (first count : Nat) : State := (sT2 first count).modQuay 1 (fun x => { x with handles := [⟨3, 0, 3, 0, 16, false, false⟩] })
theorem region0 (n : Nat) : regionOf 0 ≠ .onnak n := by
  intro h
  rw [show regionOf 0 = .hbm 0 from by decide +kernel] at h
  cases h
def leaf0 : Nat := groupBase 1 + 0x4F
def mapC (c : Chart) : State :=
  ((((((qA c .running [f9]).modQuay 1 (fun x => { x with groups := [1] })).put (Reg.XLT_QUAY_ROOT_LO 1) 0x300000).store 0x300000
  (natLE 8 0x301001)).store 0x301000 (natLE 8 0x302001)).store 0x302000 (natLE 8 0x303001)).store 0x303008 (natLE 8 leaf0)
def mapS : State := mapC (chartP 5 0)
def probeS (p : Probe) : State := mapS.modMem (fun m => { m with probe := some p })
def camNext : State := { camCur with cam := { camCur.cam with ticks := [⟨1, 2000000000, 3#32⟩] } }
/-- One request of each kind to peer 3, tag 9, from quay 1, and the message that answers it, in a state s. -/
def fReq (k : FleetKind) : FleetReq := ⟨3, 9, k, 1, 0#8, tg, 0x1000, 64, 0, 2000000000, [], false⟩
def ansS (k : FleetKind) : State := { upS with onnak := { upS.onnak with reqs := [fReq k] } }
def uA (s : State) (ty : Nat) (f : List Byte) : State := (s.begin.arrival ty 0 f true).1
def oA (s : State) (ty : Nat) (f : List Byte) : Nat × OHdr × List Byte := (s.begin.arrival ty 0 f true).2.getD (0, OHdr.zero, [])
theorem arrA (s : State) (ty : Nat) (f : List Byte) (h : (s.begin.arrival ty 0 f true).2.isSome = true) :
    s.begin.arrival ty 0 f true = (uA s ty f, some ((oA s ty f).1, (oA s ty f).2.1, (oA s ty f).2.2)) := by
  unfold uA oA
  obtain ⟨x, hx⟩ := Option.isSome_iff_exists.mp h
  rw [hx]; exact Prod.ext rfl hx
def ansF (ty : Nat) : List Byte := if ty = 0x21 then oB ty 3 [] else oB ty 2 []
def helloF (fleet : Byte) : List Byte := eth0 (rec0 64 [(0, 0x10), (1, 1), (2, 3), (6, 64)] ++ rec0 64 [(6, fleet), (10, 3)])
def early (s : State) : State := { s with time := { s.time with now := 0 } }
def dueS : State :=
  { upS with onnak := { upS.onnak with peers := modAt upS.onnak.peers 3 (fun x => { x with ackDue := [(0, 5)], tx := setAt x.tx 2 ⟨1, [(0, 0, [])], 9, 0, []⟩ }) } }
def fleetC : Chart := { c5 with fleet := [⟨3, 0x10, 0, 100⟩] }
def bindS (s : State) : State := inSt s 1 .running (some fleetC)
def packS : State := { upS with onnak := { upS.onnak with packs := [⟨3, tg, 0, 0x1000, [1], 0, false⟩] } }
def portS : State := s1.put (Reg.ONNAK_PORT_CTRL 0) 1
def linkS : State := { portS with onnak := { portS.onnak with ports := setAt portS.onnak.ports 0 ⟨true, true, false⟩ } }
def ethUp : State := { s1 with eth := { s1.eth with up := true } }
/-- Coastguard: a signal, an age counter, a mirrored publish point, quay 0 with an age limit, a Lighthouse run. -/
def cgM (f : CgState → CgState) (s : State) : State := { s with cg := f s.cg }
def ageC : Chart := { c5 with ages := [⟨5, 100⟩], engines := [eng0 5 0], lights := [⟨0, 0, 0, 0, 0⟩] }
def q0S : State := inSt s1 0 .running (some ageC)
def mp0 : MirrorPub := ⟨3#32, true, 0#8, []⟩
def mpS (act : Nat) : State := cgM (fun c => { c with mirror := [mp0], active := act }) q0S
def lh0 : LhRun := ⟨0, 3#32, 0⟩
def lhS : State := cgM (fun c => { c with runs := [lh0] }) q0S
/-- Salvage: a waiting unit, a dump, replays. -/
def npC : Chart := { c5 with cfg := { cfg0 with noProgressUs := 10 } }
def npS (since : Nat) : State := (quay1 .running npC []).modMem (fun m => { m with heldReads := [⟨tg, 3#32, 0, 0, since⟩] })
def dump0 : Dump := ⟨4, 0, [(0x10, 0)], [], 1, 0, 0#8, 0#32, 0#32, 0, true, false, false⟩
def salvS (f : Salv → Salv) (s : State) : State := s.modSalv 1 f
def dumpS : State := salvS (fun v => { v with dump := some dump0, phase := .dumping }) (quay1 .running c5 [])
def repS (rs : List Request) : State := salvS (fun v => { v with phase := .replaying, suspects := rs }) (disS [] 2)
def repT (t : Nat) : State := salvS (fun v => { v with replay := some rq1, replayAt := t }) (disS [] 2)
def np0 (since : Nat) : WaitRec := ⟨1, (5, 0), since, none, 1, 0⟩
/-- Boot: the ROM's states and the mailbox. -/
def cuS (f : CustomsState → CustomsState) (s : State) : State := s.modCustoms f
def recS : State := cuS (fun c => { c with phase := .recovery, lastAnnounce := 0 }) s1
def waitB (t : List (Option Bool)) : State := cuS (fun c => { c with phase := .waitTraining, trained := t }) s1
def mbS : State := cuS (fun c => { c with mailbox := some ⟨1, St.OK⟩ }) s1

def pmS (f : PmcState → PmcState) (s : State) : State := s.modPmc f
/-- ETH_MGMT: a gate list in range, and one waiting or in force; a ring of 16 with a frame of 60 bytes at its head. -/
def gclR : State := (s1.put Reg.ETH_MGMT_GCL_CYCLE 1000).put Reg.ETH_MGMT_GCL_LEN 1
def gl0 (base : Nat) : Gcl := ⟨base, 1000, [(0xFE, 1000)]⟩
def gclP (base : Nat) : State := { s1 with eth := { s1.eth with pending := some (gl0 base) } }
def gclA (ends : Nat) : State := { s1 with eth := { s1.eth with active := some (gl0 0), entryEnds := ends } }
def txS (cls : Byte) (g : Option Gcl) : State :=
  (((({ ethUp with eth := { ethUp.eth with active := g } } : State).put Reg.ETH_MGMT_TX_BASE_HI (4 * 65536)).put Reg.ETH_MGMT_TX_PRODUCER 1).put
    Reg.ETH_MGMT_CTRL 16).store 0 (rec0 32 [(1, 0x10), (8, 60), (0x0A, cls)])
def imgHead : List (Nat × Byte) :=
  [(0, 0x53), (1, 0x4B), (2, 0x49), (3, 0x4D), (4, 1), (5, 3), (8, 0x60), (9, 0x74), (0x0D, 0x10), (0x100, 2), (0x120, 3), (0x140, 4)]
/-- An image of 4 KiB whose digest is its SHA-512 and whose signature, under the neutral element as key, is the neutral element and 0. -/
def img0 : List Byte :=
  (rec0 32 imgHead ++ natLE 64 8670565394032730888707505065252767954803103325224407982725109774666180235887199351982891682759335424833345509048976328297216314170062654624894489793021940 ++
  [1#8] ++ List.replicate 159 0#8) ++ (rec0 4096 imgHead).drop 0x100
def imgS : State :=
  cuS (fun c => { c with received := img0, fuses := { c.fuses with slots := [some ([1#8] ++ List.replicate 31 0#8), none, none, none] } }) recS
theorem noWalk : (sM false).walk 1 0x1000 false = .fault 1 := by decide +kernel
def ouStale : Outstanding := { ou .read with req := { mr with tag := { tg with tide := 4 } } }


/-! Tensor programs: a decidable check on the command that is next gives the hypotheses of the statements. -/
/-- The next command of an instance's stage has the opcode, and a check holds of it. -/
def cmdHas (s : State) (cls op inst k : Nat) (p : CmdCtx → Bool) : Bool := match s.cmdCtx cls inst k with
  | some cx => decide (cx.c.op = op) && p cx
  | none => false
theorem cmdHas_ex {s : State} {cls op inst k : Nat} {p : CmdCtx → Bool} (h : cmdHas s cls op inst k p = true) :
    ∃ cx, s.cmdCtx cls inst k = some cx ∧ cx.c.op = op ∧ p cx = true := by
  unfold cmdHas at h
  split at h
  · rename_i cx hc
    simp only [Bool.and_eq_true, decide_eq_true_eq] at h
    exact ⟨cx, hc, h.1, h.2⟩
  · cases h
/-- No operand of the command ends the stage with a status. -/
def noStatus (r : RefSet) : Bool := r.all.all (fun x => !isSt x)
theorem noStatus_of {r : RefSet} (h : noStatus r = true) : ∀ x ∈ r.all, ∀ st, x ≠ .status st := by
  intro x hx st he
  have := List.all_eq_true.mp h x hx
  subst he
  simp [isSt] at this
/-- Commands with an undefined format, and commands whose operand waits for its producer. -/
def badE (op : Nat) : State := progS 11 false ((elvCmd op).take 3 ++ [0x55#8] ++ (elvCmd op).drop 4)
def badL (op : Nat) : State := progS 12 false ((layCmd op).take 4 ++ [0x55#8] ++ (layCmd op).drop 5)
def waitL (op : Nat) : State := (progS 12 false ((layCmd op).take 8 ++ [0x03#8, 0x80#8] ++ (layCmd op).drop 10)).modQuay 1 (fun x =>
  { x with handles := x.handles ++ [⟨3, 0, 3, 1, 1, false, false⟩] })
theorem witness_ElvowCommandsIssueComputeAndMove_ready :
    ∀ op ∈ [1, 2, 3, 4, 5, 6, 7, 8], (elvS op).awake = true ∧ ∃ cx, (elvS op).begin.elvReady op 0 0 cx := by
  have h : ∀ op ∈ [1, 2, 3, 4, 5, 6, 7, 8], (elvS op).awake = true ∧ elvOk (elvS op).begin op 0 0 = true := by decide +kernel
  intro op ho
  exact ⟨(h op ho).1, elvReady_of (h op ho).2⟩
theorem witness_ElvowCommandsIssueComputeAndMove_boundary :
    ∀ op ∈ [9, 10], (elvS op).awake = true ∧ ∃ cx, (elvS op).begin.elvReady op 0 0 cx ∧ (elvS op).begin.stageXfers cx = [] := by
  have h : ∀ op ∈ [9, 10], (elvS op).awake = true ∧ cmdHas (elvS op).begin Cls.ELV op 0 0 (fun cx =>
      (elvS op).begin.mayIssue 0 0 cx.run && (cx.elvFaults cx.c.uses ((elvS op).begin.refSet cx cx.c.uses)).isEmpty &&
      foundB ((elvS op).begin.refSet cx cx.c.uses) && ((elvS op).begin.stageXfers cx).isEmpty) = true := by decide +kernel
  intro op ho
  obtain ⟨cx, hc, ho', hp⟩ := cmdHas_ex (h op ho).2
  simp only [Bool.and_eq_true] at hp
  exact ⟨(h op ho).1, cx, ⟨hc, hp.1.1.1, ho', List.isEmpty_iff.mp hp.1.1.2, found_of hp.1.2⟩, List.isEmpty_iff.mp hp.2⟩
theorem witness_ElvowCommandsIssueComputeAndMove_badCommand : ∀ op ∈ [5, 7], (badE op).awake = true ∧
    ∃ cx why l, (badE op).begin.cmdCtx Cls.ELV 0 0 = some cx ∧ (badE op).begin.mayIssue 0 0 cx.run = true ∧ cx.c.op = op ∧
      cx.elvFaults cx.c.uses ((badE op).begin.refSet cx cx.c.uses) = why :: l ∧
      (∀ x ∈ ((badE op).begin.refSet cx cx.c.uses).all, ∀ st, x ≠ .status st) ∧ (badE op).begin.stageXfers cx = [] := by
  have h : ∀ op ∈ [5, 7], (badE op).awake = true ∧ cmdHas (badE op).begin Cls.ELV op 0 0 (fun cx =>
      (badE op).begin.mayIssue 0 0 cx.run && !(cx.elvFaults cx.c.uses ((badE op).begin.refSet cx cx.c.uses)).isEmpty &&
      noStatus ((badE op).begin.refSet cx cx.c.uses) && ((badE op).begin.stageXfers cx).isEmpty) = true := by decide +kernel
  intro op ho
  obtain ⟨cx, hc, ho', hp⟩ := cmdHas_ex (h op ho).2
  simp only [Bool.and_eq_true, Bool.not_eq_true'] at hp
  refine ⟨(h op ho).1, cx, ?_⟩
  cases hf : cx.elvFaults cx.c.uses ((badE op).begin.refSet cx cx.c.uses) with
  | nil => rw [hf] at hp; simp at hp
  | cons why l => exact ⟨why, l, hc, hp.1.1.1, ho', rfl, noStatus_of hp.1.2, List.isEmpty_iff.mp hp.2⟩
theorem witness_LayoutCommandsRun_ready :
    ∀ op ∈ [8, 16, 17, 18, 19, 10], (layS op).awake = true ∧ ∃ cx, (layS op).begin.layReady op 0 cx := by
  have h : ∀ op ∈ [8, 16, 17, 18, 19, 10], (layS op).awake = true ∧ layOk (layS op).begin op 0 = true := by decide +kernel
  intro op ho
  exact ⟨(h op ho).1, layReady_of (h op ho).2⟩
theorem witness_LayoutCommandsRun_waits : ∀ op ∈ [17], (waitL op).awake = true ∧
    ∃ cx, (waitL op).begin.cmdCtx Cls.LAYOUT 0 0 = some cx ∧ cx.c.op = op ∧
      cx.layFaults cx.c.layUses ((waitL op).begin.refSet cx cx.c.layUses) = [] ∧
      RefRes.wait ∈ ((waitL op).begin.refSet cx cx.c.layUses).all ∧ (∀ x ∈ ((waitL op).begin.refSet cx cx.c.layUses).all, ∀ st, x ≠ .status st) := by
  have h : ∀ op ∈ [17], (waitL op).awake = true ∧ cmdHas (waitL op).begin Cls.LAYOUT op 0 0 (fun cx =>
      (cx.layFaults cx.c.layUses ((waitL op).begin.refSet cx cx.c.layUses)).isEmpty &&
      decide (RefRes.wait ∈ ((waitL op).begin.refSet cx cx.c.layUses).all) && noStatus ((waitL op).begin.refSet cx cx.c.layUses)) = true := by
    decide +kernel
  intro op ho
  obtain ⟨cx, hc, ho', hp⟩ := cmdHas_ex (h op ho).2
  simp only [Bool.and_eq_true, decide_eq_true_eq] at hp
  exact ⟨(h op ho).1, cx, hc, ho', List.isEmpty_iff.mp hp.1.1, hp.1.2, noStatus_of hp.2⟩
theorem witness_LayoutCommandsRun_badCommand : ∀ op ∈ [16], (badL op).awake = true ∧
    ∃ cx why l, (badL op).begin.cmdCtx Cls.LAYOUT 0 0 = some cx ∧ cx.c.op = op ∧
      cx.layFaults cx.c.layUses ((badL op).begin.refSet cx cx.c.layUses) = why :: l ∧
      (∀ x ∈ ((badL op).begin.refSet cx cx.c.layUses).all, ∀ st, x ≠ .status st) := by
  have h : ∀ op ∈ [16], (badL op).awake = true ∧ cmdHas (badL op).begin Cls.LAYOUT op 0 0 (fun cx =>
      !(cx.layFaults cx.c.layUses ((badL op).begin.refSet cx cx.c.layUses)).isEmpty && noStatus ((badL op).begin.refSet cx cx.c.layUses)) = true := by
    decide +kernel
  intro op ho
  obtain ⟨cx, hc, ho', hp⟩ := cmdHas_ex (h op ho).2
  simp only [Bool.and_eq_true, Bool.not_eq_true'] at hp
  refine ⟨(h op ho).1, cx, ?_⟩
  cases hf : cx.layFaults cx.c.layUses ((badL op).begin.refSet cx cx.c.layUses) with
  | nil => rw [hf] at hp; simp at hp
  | cons why l => exact ⟨why, l, hc, ho', rfl, noStatus_of hp.2⟩
theorem witness_LayoutCommandsRun_none : s0.awake = true ∧ s0.begin.cmdCtx Cls.LAYOUT 1 0 = none := by decide +kernel

/-! The checks of well-formedness: for each, a term that it refuses, and one that it takes. -/
theorem test_wf_okAccess : (Instr.registerWrite .app 0x100000 65 0 0).wf = false ∧ (Instr.registerWrite .app 0x100000 0 0 0).wf = false ∧
    (Instr.rcRead .app 0x1700000 4 0).wf = false ∧ (Instr.rcRead .app 0x100000 4 0).wf = true := by decide
theorem test_wf_okAccess_pairs : (Instr.loCaptureRead .app 0x1700000).wf = false ∧ (Instr.hiWriteCommit .app 0x1700000 0).wf = false := by decide
theorem test_wf_okAddr : (Instr.hbmRead (2 ^ 48) []).wf = false ∧ (Instr.ledgerWindowRead (2 ^ 48) 1).wf = false ∧
    (Instr.hbmRead 64 []).wf = true := by decide
theorem test_wf_okErrors : (Instr.patrolRead 0 [(72, 1)]).wf = false ∧ (Instr.patrolRead 0 [(0, 0)]).wf = false ∧
    (Instr.patrolRead 0 [(0, 256)]).wf = false ∧ (Instr.patrolRead 0 [(3, 1), (3, 2)]).wf = false ∧
    (Instr.patrolRead 0 [(3, 1), (71, 255)]).wf = true := by decide
theorem test_wf_tag : (Instr.berthTagWrite { tg with quay := 4 } 0 0).wf = false ∧ (Instr.berthTagWrite { tg with handle := 1024 } 0 0).wf = false ∧
    (Instr.berthTagWrite { tg with gen := 16 } 0 0).wf = false ∧ (Instr.berthTagWrite tg 0 49152).wf = false ∧
    (Instr.berthTagWrite tg 0 49151).wf = true := by decide
theorem test_wf_okBerth : (Instr.engineBerthRead { rq with berth := 49152 }).wf = false ∧ (Instr.engineBerthRead { rq with off := 32 }).wf = false ∧
    (Instr.engineBerthRead { rq with off := 4096 }).wf = false ∧ (Instr.engineBerthRead { rq with enables := 2 ^ 64 }).wf = false ∧
    (Instr.engineBerthWrite { rq with kind := .write, data := [] }).wf = false ∧ (Instr.engineBerthRead rq).wf = true := by decide
theorem test_wf_okMem : (Instr.engineRequest { mr with va := 2 ^ 48 }).wf = false ∧ (Instr.engineRequest { mr with enables := 2 ^ 64 }).wf = false ∧
    (Instr.engineRequest { mr with indices := List.replicate 7 0 }).wf = false ∧ (Instr.engineRequest { mr with kind := .write }).wf = false ∧
    (Instr.engineRequest mr).wf = true := by decide
theorem test_wf_okFrame : (Instr.hello 0 [] true).wf = false ∧ (Instr.streamEnd 0 (List.replicate 13 0) true).wf = false ∧
    (Instr.ethMgmtRxFrame (List.replicate 13 0) true).wf = false ∧ (Instr.otherEthertypeFrame 4 (List.replicate 14 0)).wf = true := by decide
theorem test_wf_okPacket : (Instr.frameStart 0 .good 32).wf = false ∧ (Instr.longPacket 0 .good 0 64 [] true none).wf = false ∧
    (Instr.shortPacket 0 .good 0 64).wf = false ∧ (Instr.frameEnd 0 .good 31).wf = true := by decide
theorem test_wf_numbers : (Instr.ticketSubmit 0 32).wf = false ∧ (Instr.adjSubmit 0 32).wf = false ∧ (Instr.predictionSubmit 0 32).wf = false ∧
    (Instr.poseSubmit 4).wf = false ∧ (Instr.i3cIbi 0 128 []).wf = false ∧ (Instr.coldResetRelease false false 8 [] true).wf = false ∧
    (Instr.railFault [16]).wf = false ∧ (Instr.pageRemap 0 0 (2 ^ 64)).wf = false ∧ (Instr.hbmMaskedWrite 0 [] 0 false).wf = false := by decide
theorem test_wf_lengths : (Instr.spiSampleDone 0 (List.replicate 49 0)).wf = false ∧ (Instr.ledgerWindowRead 0 65).wf = false ∧
    (Instr.ledgerWindowWrite 0 []).wf = false ∧ (Instr.firmwareBerthWrite 0 []).wf = false ∧
    (Instr.tenderWriteResponse 0 0 false 0 (List.replicate 65 0)).wf = false ∧ (Instr.unlock []).wf = false ∧
    (Instr.sensorSample (List.replicate 33 0)).wf = false ∧ (Instr.epochBoundary ⟨0, List.replicate 17 0, []⟩ ⟨[], [], []⟩).wf = false := by decide

/-! One step each, on values of the spec. -/
/-- What a register holds after one command; none where the command does not answer a next state. -/
def regAfter (c : Instr) (s : State) (a : Nat) : Option Word := match step { s with pending := [c] } with
  | .next t => some (t.reg a)
  | _ => none
/-- What a command answers to the one who sent it. -/
def answerTo (c : Instr) (s : State) : Option (Status × Nat) := match step { s with pending := [c] } with
  | .next t => t.reply.map (fun r => (r.status, r.data))
  | _ => none
/-- R16's example: COLLIDE_COUNT reads 6, the flag is cleared in the cycle that sets it again: it stays 1 and the count is 7. -/
def collide6 : State := (s0.put Reg.ONNAK_EVENT 1).put (Reg.COLLIDE_COUNT (blockOf Reg.ONNAK_EVENT)) 6
theorem test_collision_keeps_flag : regAfter (.registerWrite .app Reg.ONNAK_EVENT 4 1 1) collide6 Reg.ONNAK_EVENT = some 1 := by decide +kernel
theorem test_collision_counts :
    regAfter (.registerWrite .app Reg.ONNAK_EVENT 4 1 1) collide6 (Reg.COLLIDE_COUNT (blockOf Reg.ONNAK_EVENT)) = some 7 := by decide +kernel
theorem test_clear_without_event : regAfter (.registerWrite .app Reg.ONNAK_EVENT 4 1 0) collide6 Reg.ONNAK_EVENT = some 0 := by decide +kernel
/-- A byte access reads zero. -/
theorem test_byte_read : answerTo (.rcRead .app (Reg.HM_QUAY_STATUS 0) 1 0) s0 = some (St.OK, 0) := by decide +kernel
/-- DOCK of an EMPTY quay is BAD_STATE; LOAD of one is taken. -/
theorem test_dock_empty : answerTo (.dock 1 .app) s0 = some (St.BAD_STATE, 0) := by decide +kernel
theorem test_load_empty : answerTo (.load 1 .app) s0 = some (St.OK, 0) := by decide +kernel
/-- An opcode that HM_QUAY_CMD does not define is refused. -/
theorem test_quay_cmd_seven : answerTo (.registerWrite .app (Reg.HM_QUAY_CMD 3) 4 7 0) s0 = some (St.REFUSED, 0) := by decide +kernel
/-- A Tender channel in IDLE: PAUSE is BAD_STATE. -/
theorem test_pause_idle : answerTo (.tenderPause 31) s0 = some (St.BAD_STATE, 0) := by decide +kernel
/-- The walk of the example of "Memory and Address Translation": indices 0, 1, 0 of 0x0000_4012_3440. -/
theorem test_walk_indices : [1, 2, 3].map (vaIndex 0x40123440) = [0, 1, 0] := by decide
/-- The MX FP4 example of "Number Formats": 20.0, −3.3, 0.9 and 13.0 in a block of 32. -/
theorem test_mx_block : mxBlock 0x07 ([0x41A00000, 0xC0533333, 0x3F666666, 0x41500000].map f32 ++ List.replicate 28 (f32 0)) =
    (0x81, [6, 0xA, 0, 5] ++ List.replicate 28 0) := by decide +kernel
/-- CRC-32C and the IEEE CRC-32 of the nine digits (the check values that catalogues of CRCs give for these polynomials). -/
theorem test_crc : crc32c ([49, 50, 51, 52, 53, 54, 55, 56, 57] : List Byte) = 0xE3069283 ∧
    crc32ieee ([49, 50, 51, 52, 53, 54, 55, 56, 57] : List Byte) = 0xCBF43926 := by decide +kernel
/-- SHA-512 of "abc", first eight bytes (FIPS 180-4's example). -/
theorem test_sha512 : (sha512 [0x61#8, 0x62#8, 0x63#8]).take 8 = [0xDD#8, 0xAF#8, 0x35#8, 0xA1#8, 0x93#8, 0x61#8, 0x7A#8, 0xBA#8] := by
  decide +kernel
/-- The public key of RFC 8032's first test, first eight bytes. -/
theorem test_ed25519_public : (edPublic ((natBE 32 0x9d61b19deffd5a60ba844af492ec2cc44449c5697b326919703bac031cae7f60))).take 8 =
    [0xD7#8, 0x5A#8, 0x98#8, 0x01#8, 0x82#8, 0xB1#8, 0x0A#8, 0xB7#8] := by decide +kernel

/-! For every statement with hypotheses, and for each of its clauses, a state and operands that meet them. -/
theorem witness_IdleCycleAdvancesHarbourTime_1 :
    ∃ (s : State), (s.pending = []) ∧ s.coldHeld = false :=
  ⟨s0, by decide +kernel⟩
theorem witness_IdleCycleAdvancesHarbourTime_2 :
    ∃ (s : State), (s.pending = []) ∧ s.coldHeld = true :=
  ⟨held0, by decide +kernel⟩
theorem witness_ColdResetHoldsTheDevice_1 :
    ∃ (s t : State), (s.coldWf = true) ∧ (s.pendingWf = true) ∧ step s = .next t :=
  ⟨held0, (idle held0), by decide +kernel, by decide +kernel, (by rfl)⟩
theorem witness_HarbourTimeNeverDecreases_1 :
    ∃ (s t : State), step s = .next t :=
  ⟨s0, (idle s0), (by rfl)⟩
theorem witness_ResetsAbsorbCommands_1 :
    ∃ (c : Instr) (s : State), (s.coldHeld = false) ∧ (s.warmHeld = true) ∧ c.actsInWarmReset = false :=
  ⟨(.ackTimer 0), warm0, by decide +kernel⟩
theorem witness_ResetsAbsorbCommands_2 :
    ∃ (c : Instr) (s : State), (s.coldHeld = true) ∧ c.actsInColdReset = false :=
  ⟨(.ackTimer 0), held0, by decide +kernel⟩
theorem witness_OddAccessReadsZeroAndCounts_1 :
    ∃ (s : State) (a n : Nat), (s.awake = true) ∧ (blockOf a < 23) ∧ (n ≠ 4 ∨ a % 4 ≠ 0) ∧ a % 4 ≠ 0 :=
  ⟨s0, 0x100002, 4, by decide +kernel⟩
theorem witness_PlainWriteStoresUnreservedBits_1 :
    ∃ (s : State) (ini : Initiator) (a : Nat) (v same : Word) (r : RegRow) (i : Nat), (s.awake = true) ∧ (a % 4 = 0) ∧ (regRow a = some (r, i)) ∧
      (r.acc = Access.rw ∨ r.acc = Access.rwd) ∧ (s.mayWrite ini a r i = true) ∧ (isLo a = false) ∧ (isHi a = false) ∧ (s.mayHold a i (v &&& w32
      r.mask) = true) ∧ s.begin.writeSpecial ini a i (v &&& w32 r.mask) same = none :=
  ⟨s0, .app, Reg.ONNAK_RTO, 5, 0, (rowAt Reg.ONNAK_RTO), 0, by decide +kernel⟩
theorem witness_RwdRegistersBelongToQuays_1 :
    ∃ (a : Nat) (r : RegRow) (i : Nat), (regRow a = some (r, i)) ∧ r.acc = Access.rwd :=
  ⟨(Reg.HM_QUAY_TANDEM 3), (rowAt (Reg.HM_QUAY_TANDEM 3)), 3, by decide +kernel⟩
theorem witness_SetWinsOverClearOfW1c_1 :
    ∃ (s : State) (ini : Initiator) (a : Nat) (r : RegRow) (i : Nat), (s.awake = true) ∧ (a % 4 = 0) ∧ (regRow a = some (r, i)) ∧ (r.acc = Access.w1c)
      ∧ (a ≠ Reg.PMC_SERVICE_LATCHED) ∧ s.mayWrite ini a r i = true :=
  ⟨s0, .app, Reg.ONNAK_EVENT, (rowAt Reg.ONNAK_EVENT), 0, by decide +kernel⟩
theorem witness_SetWinsOverClearOfW1c_2 :
    ∃ (s : State), s.awake = true :=
  ⟨s0, by decide +kernel⟩
theorem witness_PairsCaptureHoldAndCommit_1 :
    ∃ (s : State) (ini : Initiator) (a : Nat) (r : RegRow) (i : Nat), (s.awake = true) ∧ (a % 4 = 0) ∧ (regRow a = some (r, i)) ∧ (r.acc = Access.rw)
      ∧ (s.mayWrite ini a r i = true) ∧ isLo a = true :=
  ⟨s0, .app, (Reg.SALVAGE_QUAY_DUMP_LO 0), (rowAt (Reg.SALVAGE_QUAY_DUMP_LO 0)), 0, by decide +kernel⟩
theorem witness_PairsCaptureHoldAndCommit_2 :
    ∃ (s : State) (ini : Initiator) (a : Nat) (v w : Word) (r : RegRow) (i : Nat), (s.awake = true) ∧ (a % 4 = 0) ∧ (regRow a = some (r, i)) ∧ (r.acc
      = Access.rw) ∧ (s.mayWrite ini a r i = true) ∧ (isLo a = false) ∧ (isHi a = true) ∧ (s.mayHold a i (v &&& w32 r.mask) = true) ∧ (Tab.get noHeld
      s.heldLo (a - 4) = some w) ∧ (s.begin.commitLo (a - 4)).writeSpecial ini a i (v &&& w32 r.mask) 0#32 = none :=
  ⟨heldLo0, .app, (Reg.SALVAGE_QUAY_DUMP_HI 0), 1, 7, (rowAt (Reg.SALVAGE_QUAY_DUMP_HI 0)), 0, by decide +kernel⟩
theorem witness_ReadsReturnTheValueAndChangeNoRegister_1 :
    ∃ (s : State) (a : Nat) (r : RegRow) (i : Nat), (s.awake = true) ∧ (a % 4 = 0) ∧ (regRow a = some (r, i)) ∧ (r.acc ≠ Access.rc) ∧ (isLo a = false)
      ∧ (isHi a = false) ∧ ctxFrame? a = none :=
  ⟨s0, Reg.TENDER_BUSY, (rowAt Reg.TENDER_BUSY), 0, by decide +kernel⟩
theorem witness_GptpMessagesSetTheCorrection_1 :
    ∃ (s : State) (port : Fin 5) (b : List Byte), (s.awake = true) ∧ (44 ≤ b.length) ∧ (beAt b 4 1 = 0) ∧ (beAt b 0 1 % 16 = 0) ∧
      (s.gptp.master.isSome = true) ∧ s.gptp.port = ↑port :=
  ⟨gp0, 0, (ptp 0), by decide +kernel⟩
theorem witness_GptpMessagesSetTheCorrection_2 :
    ∃ (s : State) (port : Fin 5) (b : List Byte) (at' : Nat), (s.awake = true) ∧ (44 ≤ b.length) ∧ (beAt b 4 1 = 0) ∧ (beAt b 0 1 % 16 = 8) ∧
      s.gptp.sync = some (↑port, beAt b 30 2, at') :=
  ⟨gp0, 0, (ptp 8), 5, by decide +kernel⟩
theorem witness_GptpMessagesSetTheCorrection_3 :
    ∃ (s : State) (b : List Byte), (s.awake = true) ∧ (44 ≤ b.length) ∧ (beAt b 4 1 = 0) ∧ beAt b 0 1 % 16 = 2 :=
  ⟨gp0, (ptp 2), by decide +kernel⟩
theorem witness_GptpMessagesSetTheCorrection_4 :
    ∃ (s : State) (b : List Byte), (s.awake = true) ∧ (44 ≤ b.length) ∧ (beAt b 4 1 = 0) ∧ beAt b 0 1 % 16 = 3 :=
  ⟨gp0, (ptp 3), by decide +kernel⟩
theorem witness_GptpMessagesSetTheCorrection_5 :
    ∃ (s : State) (port : Fin 5) (b : List Byte) (t2 t4 : Nat), (s.awake = true) ∧ (44 ≤ b.length) ∧ (beAt b 4 1 = 0) ∧ (beAt b 0 1 % 16 = 10) ∧
      s.gptp.pdelay = some (↑port, t2, t4) :=
  ⟨gp0, 0, (ptp 10), 1, 9, by decide +kernel⟩
theorem witness_QuayZeroCommandsAreFenced_1 :
    ∃ (s : State) (ini : Initiator), flag (s.reg Reg.CG_Q0_GUARD) 0 = true ∨ ini = Initiator.cg ∨ ini = Initiator.salvage :=
  ⟨s0, .cg, by decide +kernel⟩
theorem witness_QuayResetRunsToEmpty_1 :
    ∃ (s : State) (q : Fin 4), (s.awake = true) ∧ (s.quays[q].st = QState.resetting) ∧ (s.quays[q].phase = ResetPhase.fencing) ∧ s.quays[q].resetAt +
      20000 ≤ s.time.now :=
  ⟨qR, 1, by decide +kernel⟩
theorem witness_CadenceTickOpensTheNextFrame_1 :
    ∃ (s : State) (q : Fin 4), s.quays[q].streamCtxs.isEmpty = false :=
  ⟨cam0, 1, by decide +kernel⟩
theorem witness_StagesPublishAndSquashComplete_1 :
    ∃ (s : State) (q : Fin 4) (n : FrameNo) (i : Nat) (r : StageRun), (s.awake = true) ∧ (s.stageRun? q n i = some r) ∧ (r.running = true) ∧
      (r.draining = false) ∧ ((s.quays[q].engineE i).cls = Cls.CAMP) ∧ ∃ (k : Nat), s.campDone q n i = some k :=
  ⟨campDoneS, 1, 3#32, 0, run0, by decide +kernel, by decide +kernel, by decide +kernel, by decide +kernel, by decide +kernel, 0, by decide +kernel⟩
theorem witness_StepRunsFrontCommand_1 :
    ∃ (c : Instr) (rest : List Instr) (s : State), s.pending = c :: rest :=
  ⟨(.ackTimer 0), [], { s0 with pending := [.ackTimer 0] }, rfl⟩
theorem witness_OddAccessReadsZeroAndCounts_2 :
    ∃ (s : State) (a n : Nat), (s.awake = true) ∧ (blockOf a < 23) ∧ (n ≠ 4 ∨ a % 4 ≠ 0) :=
  ⟨s0, 0x100002, 2, by decide +kernel⟩
theorem witness_ReservedAndForbiddenWritesAreCounted_1 :
    ∃ (s : State) (a : Nat), (s.awake = true) ∧ (blockOf a < 23) ∧ (a % 4 = 0) ∧ regRow a = none :=
  ⟨s0, 0x10FFF0, by decide +kernel⟩
theorem witness_ReservedAndForbiddenWritesAreCounted_2 :
    ∃ (s : State) (a : Nat) (r : RegRow) (i : Nat), (s.awake = true) ∧ (a % 4 = 0) ∧ (regRow a = some (r, i)) ∧ (r.acc = Access.ro ∨ r.acc = Access.rc
      ∨ r.acc = Access.rwd ∧ ∀ (q : Fin 4), s.regOwner a = some q → s.quays[q].st ≠ QState.docked ∧ s.quays[q].st ≠ QState.empty) :=
  ⟨s0, Reg.TENDER_BUSY, (rowAt Reg.TENDER_BUSY), 0, by decide +kernel, by decide +kernel, by decide +kernel, (by left; decide +kernel)⟩
theorem witness_PairsCaptureHoldAndCommit_3 :
    ∃ (s : State) (a : Nat) (r : RegRow) (i : Nat), (s.awake = true) ∧ (a % 4 = 0) ∧ (regRow a = some (r, i)) ∧ isLo a = true :=
  ⟨s0, Reg.HM_TICK_ORIGIN_LO, (rowAt Reg.HM_TICK_ORIGIN_LO), 0, by decide +kernel⟩
theorem witness_PairsCaptureHoldAndCommit_4 :
    ∃ (s : State) (a : Nat) (r : RegRow) (i : Nat), (s.awake = true) ∧ (a % 4 = 0) ∧ (regRow (a + 4) = some (r, i)) ∧ (isLo a = true) ∧ (isLo (a + 4)
      = false) ∧ ctxFrame? (a + 4) = none :=
  ⟨s0, Reg.HM_TICK_ORIGIN_LO, (rowAt Reg.HM_TICK_ORIGIN_HI), 0, by decide +kernel⟩
theorem witness_ReadsReturnTheValueAndChangeNoRegister_2 :
    ∃ (s : State), s.awake = true :=
  ⟨s0, by decide +kernel⟩
theorem witness_TickOriginOnlyWhileNoQuayIsActive_1 :
    ∃ (s : State), (s.awake = true) ∧ (∀ (q : Fin 4), s.quays[q].st ≠ QState.running ∧ s.quays[q].st ≠ QState.docking ∧ s.quays[q].st ≠ QState.docked) :=
  ⟨s0, by decide +kernel⟩
theorem witness_TickOriginOnlyWhileNoQuayIsActive_2 :
    ∃ (s : State), (s.awake = true) ∧ (∀ (q : Fin 4), s.quays[q].st ≠ QState.running ∧ s.quays[q].st ≠ QState.docking ∧ s.quays[q].st ≠ QState.docked) :=
  ⟨s0, by decide +kernel⟩
theorem witness_TickOriginOnlyWhileNoQuayIsActive_3 :
    ∃ (s : State), (s.awake = true) ∧ (∃ (q : Fin 4), s.quays[q].st = QState.running ∨ s.quays[q].st = QState.docking ∨ s.quays[q].st = QState.docked) :=
  ⟨(inSt s0 2 .docked none), by decide +kernel, ⟨2, (by decide +kernel)⟩⟩
theorem witness_TickOriginOnlyWhileNoQuayIsActive_4 :
    ∃ (s : State), (s.awake = true) ∧ (∃ (q : Fin 4), s.quays[q].st = QState.running ∨ s.quays[q].st = QState.docking ∨ s.quays[q].st = QState.docked)
      ∧ ∃ (a : Nat), (a = Reg.HM_TICK_ORIGIN_LO ∨ a = Reg.HM_TICK_ORIGIN_HI) :=
  ⟨(inSt s0 2 .docked none), by decide +kernel, ⟨2, (by decide +kernel)⟩, Reg.HM_TICK_ORIGIN_HI, by decide +kernel⟩
theorem witness_UndefinedQuayOpcodesAreRefused_1 :
    ∃ (s : State) (v : Word), (s.awake = true) ∧ (BitVec.toNat v % 16 = 0 ∨ 7 ≤ BitVec.toNat v % 16) :=
  ⟨s0, 0x17, by decide +kernel⟩
theorem witness_QuayCommandRegisterRunsTheCommands_1 :
    ∃ (s : State), s.awake = true :=
  ⟨s0, by decide +kernel⟩
theorem witness_QuayCommandRegisterRunsTheCommands_2 :
    ∃ (s : State), s.awake = true :=
  ⟨(inSt s0 1 .running (some (chart0 5 0 []))), by decide +kernel⟩
theorem witness_QuayCommandRegisterRunsTheCommands_3 :
    ∃ (s : State), s.awake = true :=
  ⟨(inSt s0 1 .loaded (some (chart0 5 0 []))), by decide +kernel⟩
theorem witness_HeldStepsWaitForTheQuays_1 :
    ∃ (s : State) (d : ℤ), (s.coldHeld = false) ∧ (s.time.step = some d) ∧ (∃ (q : Fin 4), s.quays[q].st = QState.running ∨ s.quays[q].st =
      QState.docking) :=
  ⟨(inSt sLoss 1 .running none), 5, by decide +kernel, by decide +kernel, ⟨1, (by decide +kernel)⟩⟩
theorem witness_HeldStepsWaitForTheQuays_2 :
    ∃ (s : State) (d : ℤ), (s.coldHeld = false) ∧ (s.time.step = some d) ∧ (∀ (q : Fin 4), s.quays[q].st ≠ QState.running ∧ s.quays[q].st ≠
      QState.docking) :=
  ⟨sLoss, 5, by decide +kernel⟩
theorem witness_HeldStepsWaitForTheQuays_3 :
    ∃ (s : State) (d : ℤ), (s.coldHeld = false) ∧ (s.time.step = some d) ∧ (∀ (q : Fin 4), s.quays[q].st ≠ QState.running ∧ s.quays[q].st ≠
      QState.docking) :=
  ⟨{ sLoss with time := { sLoss.time with step := some (-5) } }, (-5), by decide +kernel⟩
theorem witness_HeldStepsWaitForTheQuays_4 :
    ∃ (s : State), (s.awake = true) ∧ s.time.locked = true :=
  ⟨sLoss, by decide +kernel⟩
theorem witness_IllegalQuayCommandsAreBadState_1 :
    ∃ (s : State) (q : Fin 4) (c : QCmd), (s.awake = true) ∧ QState.accepts c s.quays[q].st = false :=
  ⟨s0, 1, .dock, by decide +kernel⟩
theorem witness_IllegalQuayCommandsAreBadState_2 :
    ∃ (s : State) (q : Fin 4) (ini : Initiator) (c : QCmd), (s.awake = true) ∧ (QState.accepts c s.quays[q].st = true) ∧ (c ≠ QCmd.reset) ∧
      (s.quays[q].busy.isSome = true) ∧ (q ≠ 0 ∨ ini = Initiator.cg ∨ ini = Initiator.salvage ∨ c = QCmd.load ∨ c = QCmd.start ∨ flag (s.reg
      Reg.CG_Q0_GUARD) 0 = true) :=
  ⟨(s0.modQuay 1 (fun x => { x with busy := some .load })), 1, .app, .load, by decide +kernel⟩
theorem witness_QuayZeroCommandsAreFenced_2 :
    ∃ (s : State) (ini : Initiator) (c : QCmd), (s.awake = true) ∧ (c = QCmd.dock ∨ c = QCmd.undock ∨ c = QCmd.unload ∨ c = QCmd.reset) ∧ (ini ≠
      Initiator.cg) ∧ (ini ≠ Initiator.salvage) ∧ (flag (s.reg Reg.CG_Q0_GUARD) 0 = false) ∧ QState.accepts c s.quays[0].st = true :=
  ⟨(inSt s0 0 .running (some (chart0 5 0 []))), .app, .dock, by decide +kernel⟩
theorem witness_QuayZeroCommandsAreFenced_3 :
    ∃ (s : State) (ini : Initiator) (c : QCmd), (s.awake = true) ∧ (c = QCmd.dock ∨ c = QCmd.undock ∨ c = QCmd.unload ∨ c = QCmd.reset) ∧ (ini ≠
      Initiator.cg) ∧ (ini ≠ Initiator.salvage) ∧ (flag (s.reg Reg.CG_Q0_GUARD) 0 = false) ∧ QState.accepts c s.quays[0].st = true :=
  ⟨s0, .app, .reset, by decide +kernel⟩
theorem witness_LoadIsAcceptedAndJudged_1 :
    ∃ (s : State) (q : Fin 4), (s.awake = true) ∧ (s.quays[q].st = QState.empty) ∧ s.quays[q].busy = none :=
  ⟨s0, 1, by decide +kernel⟩
theorem witness_LoadIsAcceptedAndJudged_2 :
    ∃ (s : State) (q : Fin 4), (s.awake = true) ∧ (s.quays[q].st = QState.empty) ∧ (s.quays[q].busy = none) ∧ s.quays[q].tideFresh s.time.now = true :=
  ⟨(s0.modQuay 1 (fun x => { x with retired := [(1,0)] })), 1, by decide +kernel⟩
theorem witness_LoadCompletesByItsVerdict_1 :
    ∃ (s : State) (q : Fin 4) (v : LoadVerdict) (c : Chart), (s.awake = true) ∧ (s.quays[q].st = QState.empty) ∧ (s.quays[q].busy = some QCmd.load) ∧
      (s.quays[q].load = some v) ∧ (v.chart = some c) ∧ (s.loadWaits v = false) ∧ s.salv[q].recovering = false :=
  ⟨(qLd vOk), 1, vOk, (chart0 5 0 []), by decide +kernel⟩
theorem witness_LoadCompletesByItsVerdict_2 :
    ∃ (s : State) (q : Fin 4) (v : LoadVerdict), (s.awake = true) ∧ (s.quays[q].st = QState.empty) ∧ (s.quays[q].busy = some QCmd.load) ∧
      (s.quays[q].load = some v) ∧ (v.chart = none) ∧ s.salv[q].recovering = false :=
  ⟨(qLd { vOk with chart := none }), 1, { vOk with chart := none }, by decide +kernel⟩
theorem witness_StartEntersRunningOrStaysLoaded_1 :
    ∃ (s : State) (q : Fin 4) (c : Chart), (s.awake = true) ∧ (s.quays[q].st = QState.loaded) ∧ (s.quays[q].busy = none) ∧ (s.quays[q].chart = some c)
      ∧ (c.cfg.piloted = true) ∧ (s.salv[q].recovering = false) ∧ ((s.begin.modQuay q fun (x : Quay) => { x with busy := some QCmd.start }).checkStart
      q c).2.1 = St.OK :=
  ⟨(qSt (chartP 5 0)), 1, (chartP 5 0), by decide +kernel⟩
theorem witness_DockAndUndock_1 :
    ∃ (s : State) (q : Fin 4) (ini : Initiator), (s.awake = true) ∧ (s.judgeCmd q ini QCmd.dock = none) ∧ List.find? (fun (f : FrameRec) =>
      !f.committed) s.quays[q].frames = none :=
  ⟨(qD .running), 1, .app, by decide +kernel⟩
theorem witness_DockAndUndock_2 :
    ∃ (s : State) (q : Fin 4) (ini : Initiator) (f : FrameRec), (s.awake = true) ∧ (s.judgeCmd q ini QCmd.dock = none) ∧ List.find? (fun (f :
      FrameRec) => !f.committed) s.quays[q].frames = some f :=
  ⟨qDf, 1, .app, frm0, by decide +kernel⟩
theorem witness_DockAndUndock_3 :
    ∃ (s : State) (q : Fin 4) (ini : Initiator) (c : Chart), (s.awake = true) ∧ (s.judgeCmd q ini QCmd.undock = none) ∧ s.quays[q].chart = some c :=
  ⟨(qD .docked), 1, .app, (chart0 5 0 []), by decide +kernel⟩
theorem witness_DockAndUndock_4 :
    ∃ (s : State) (q : Fin 4) (ini : Initiator) (c : Chart), (s.awake = true) ∧ (s.judgeCmd q ini QCmd.undock = none) ∧ s.quays[q].chart = some c :=
  ⟨((qD .docked).modQuay 1 (fun x => { x with lastPub := some (9#32, 1) })), 1, .app, (chart0 5 0 []), by decide +kernel⟩
theorem witness_DockAndUndock_5 :
    ∃ (s : State) (q : Fin 4) (c : Chart), (s.awake = true) ∧ (s.quays[q].st = QState.docking) ∧ (s.quays[q].busy = some QCmd.dock) ∧
      (s.quays[q].chart = some c) ∧ s.quays[q].dockedAt + c.cfg.fif * c.cfg.periodUs * 1000 + 500000 ≤ s.time.now :=
  ⟨((qD .docking).modQuay 1 (fun x => { x with busy := some .dock, frames := [frm0] })), 1, (chart0 5 0 []), by decide +kernel⟩
theorem witness_UnloadAndResetEnterResetting_1 :
    ∃ (s : State) (q : Fin 4) (ini : Initiator), (s.awake = true) ∧ s.judgeCmd q ini QCmd.unload = none :=
  ⟨(qD .docked), 1, .app, by decide +kernel⟩
theorem witness_UnloadAndResetEnterResetting_2 :
    ∃ (s : State) (q : Fin 4) (ini : Initiator), (s.awake = true) ∧ s.judgeCmd q ini QCmd.reset = none :=
  ⟨(qDf.modQuay 1 (fun x => { x with handles := [⟨1,0,0,0,0,false,false⟩], requests := [⟨1,0#8,5,none,0#32,0⟩] })), 1, .app, by decide +kernel⟩
theorem witness_QuayResetRunsToEmpty_2 :
    ∃ (s : State) (q : Fin 4), (s.awake = true) ∧ (s.quays[q].st = QState.resetting) ∧ (s.quays[q].resetAt + 150000 ≤ s.time.now) ∧ s.salv[q].phase ≠
      SalvPhase.overdue :=
  ⟨qR, 1, by decide +kernel⟩
theorem witness_QuayResetRunsToEmpty_3 :
    ∃ (s : State) (q : Fin 4), (s.awake = true) ∧ (s.quays[q].st = QState.resetting) ∧ (s.quays[q].resetAt + 500000 ≤ s.time.now) ∧ s.quiescent q =
      false :=
  ⟨qR, 1, by decide +kernel⟩
theorem witness_QuayResetRunsToEmpty_4 :
    ∃ (s : State) (q : Fin 4), (s.awake = true) ∧ (s.quays[q].st = QState.resetting) ∧ (s.quiescent q = true) ∧ (s.salv[q].recovering = false) ∧
      (s.quays[q].busy = some QCmd.reset ∨ s.quays[q].busy = some QCmd.unload) :=
  ⟨qR2, 1, by decide +kernel, by decide +kernel, by decide +kernel, by decide +kernel, (Or.inl (by decide +kernel))⟩
theorem witness_StartEntersRunningOrStaysLoaded_2 :
    ∃ (s : State) (q : Fin 4) (c : Chart) (st : Status), (s.awake = true) ∧ (s.quays[q].st = QState.loaded) ∧ (s.quays[q].busy = none) ∧
      (s.quays[q].chart = some c) ∧ (s.salv[q].recovering = false) ∧ (((s.begin.modQuay q fun (x : Quay) => { x with busy := some QCmd.start
      }).checkStart q c).2.1 = st) ∧ st ≠ St.OK :=
  ⟨(qE cL), 1, cL, St.REFUSED, by decide +kernel⟩
theorem witness_CadenceTickOpensTheNextFrame_2 :
    ∃ (s : State) (q : Fin 4) (c : Chart) (T : Nat), (s.awake = true) ∧ (s.quays[q].chart = some c) ∧ (s.lastTick? c = some T) ∧ (s.reg64
      (Reg.HM_QUAY_TICK_LO ↑q) ≠ T) ∧ (s.quays[q].st = QState.running) ∧ (s.quays[q].openFrom ≤ T) ∧ s.quays[q].frameRoom = true :=
  ⟨(qA c5 .running []), 1, c5, 990000000, by decide +kernel⟩
theorem witness_CadenceTickOpensTheNextFrame_3 :
    ∃ (s : State) (q : Fin 4) (c : Chart) (T : Nat), (s.awake = true) ∧ (s.quays[q].chart = some c) ∧ (s.lastTick? c = some T) ∧ (s.reg64
      (Reg.HM_QUAY_TICK_LO ↑q) ≠ T) ∧ (s.quays[q].st = QState.running) ∧ (s.quays[q].openFrom ≤ T) ∧ s.quays[q].frameRoom = true :=
  ⟨(inSt s1 0 .running (some c5)), 0, c5, 990000000, by decide +kernel⟩
theorem witness_CadenceTickOpensTheNextFrame_4 :
    ∃ (s : State) (q : Fin 4) (c : Chart) (T : Nat), (s.awake = true) ∧ (s.quays[q].chart = some c) ∧ (s.lastTick? c = some T) ∧ (s.reg64
      (Reg.HM_QUAY_TICK_LO ↑q) ≠ T) ∧ (s.quays[q].st = QState.running) ∧ (s.quays[q].openFrom ≤ T) ∧ s.quays[q].frameRoom = false :=
  ⟨(qA c5 .running [frm0, frm0]), 1, c5, 990000000, by decide +kernel⟩
theorem witness_CadenceTickOpensTheNextFrame_5 :
    ∃ (s : State) (q : Fin 4) (c : Chart) (T : Nat), (s.awake = true) ∧ (s.quays[q].chart = some c) ∧ (s.lastTick? c = some T) ∧ (s.reg64
      (Reg.HM_QUAY_TICK_LO ↑q) ≠ T) ∧ (s.quays[q].st ≠ QState.running ∨ T < s.quays[q].openFrom) :=
  ⟨(qA c5 .docked [frm0, frm0]), 1, c5, 990000000, by decide +kernel, by decide +kernel, by decide +kernel, by decide +kernel,
    (by left; decide +kernel)⟩
theorem witness_CadenceTickOpensTheNextFrame_6 :
    ∃ (s : State) (q : Fin 4) (c : Chart) (T : Nat), (s.awake = true) ∧ (s.quays[q].chart = some c) ∧ (s.lastTick? c = some T) ∧ s.reg64
      (Reg.HM_QUAY_TICK_LO ↑q) = T :=
  ⟨((qA c5 .docked [frm0, frm0]).setReg64 (Reg.HM_QUAY_TICK_LO 1) 990000000), 1, c5, 990000000, by decide +kernel⟩
theorem witness_WindowsOpenOnceAndClose_1 :
    ∃ (s : State) (q : Fin 4) (n : FrameNo) (w : Nat) (c : Chart) (f : FrameRec) (e : WindowE), (s.awake = true) ∧ (s.quays[q].chart = some c) ∧
      (s.quays[q].frame? n = some f) ∧ (c.windowE w = some e) ∧ (f.committed = false) ∧ (List.elem w f.opened = false) ∧ (f.timeOf c e.period e.openUs
      ≤ s.time.now) ∧ s.quays[q].st.active = true :=
  ⟨(qA c5 .running [f9]), 1, 3#32, 0, c5, f9, ⟨0, 1, false, 100, 20000⟩, by decide +kernel⟩
theorem witness_WindowsOpenOnceAndClose_2 :
    ∃ (s : State) (q : Fin 4) (n : FrameNo) (w : Nat) (c : Chart) (f : FrameRec) (e : WindowE), (s.awake = true) ∧ (s.quays[q].chart = some c) ∧
      (s.quays[q].frame? n = some f) ∧ (c.windowE w = some e) ∧ (f.committed = true ∨ List.elem w f.opened = true ∨ s.time.now < f.timeOf c e.period
      e.openUs) :=
  ⟨(qA c5 .running [{ f9 with opened := [0] }]), 1, 3#32, 0, c5, { f9 with opened := [0] }, ⟨0, 1, false, 100, 20000⟩, by decide +kernel, by
    decide +kernel, by decide +kernel, by decide +kernel, (by right; left; decide +kernel)⟩
theorem witness_WindowsOpenOnceAndClose_3 :
    ∃ (s : State) (q : Fin 4) (n : FrameNo) (w : Nat) (c : Chart) (f : FrameRec) (e : WindowE), (s.awake = true) ∧ (s.quays[q].chart = some c) ∧
      (s.quays[q].frame? n = some f) ∧ (c.windowE w = some e) ∧ (f.timeOf c e.period e.closeUs ≤ s.time.now) ∧ (s.quays[q].st.active = true) ∧
      f.squashed = false :=
  ⟨(qA c5 .running [f9]), 1, 3#32, 0, c5, f9, ⟨0, 1, false, 100, 20000⟩, by decide +kernel⟩
theorem witness_WindowsOpenOnceAndClose_4 :
    ∃ (s : State) (q : Fin 4) (n : FrameNo) (w : Nat) (c : Chart) (f : FrameRec) (e : WindowE), (s.awake = true) ∧ (s.quays[q].chart = some c) ∧
      (s.quays[q].frame? n = some f) ∧ (c.windowE w = some e) ∧ (f.timeOf c e.period e.closeUs ≤ s.time.now) ∧ (s.quays[q].st.active = true) ∧
      f.squashed = true :=
  ⟨(qA c5 .running [{ f9 with squashed := true }]), 1, 3#32, 0, c5, { f9 with squashed := true }, ⟨0, 1, false, 100, 20000⟩, by decide +kernel⟩
theorem witness_WindowsOpenOnceAndClose_5 :
    ∃ (s : State) (q : Fin 4) (n : FrameNo) (w : Nat) (c : Chart) (f : FrameRec) (e : WindowE), (s.awake = true) ∧ (s.quays[q].chart = some c) ∧
      (s.quays[q].frame? n = some f) ∧ (c.windowE w = some e) ∧ s.time.now < f.timeOf c e.period e.closeUs :=
  ⟨(qA c5 .running [fL]), 1, 3#32, 0, c5, fL, ⟨0, 1, false, 100, 20000⟩, by decide +kernel⟩
theorem witness_StagesPublishAndSquashComplete_2 :
    ∃ (s : State) (q : Fin 4) (n : FrameNo) (i : Nat) (r : StageRun), (s.awake = true) ∧ (s.stageRun? q n i = some r) ∧ (r.running = true) ∧
      (r.draining = false) ∧ (s.quays[q].engineE i).cls = Cls.SND :=
  ⟨(qA (cS 9) .running [f9]), 1, 3#32, 0, run0, by decide +kernel⟩
theorem witness_StagesPublishAndSquashComplete_3 :
    ∃ (s : State) (q : Fin 4) (n : FrameNo) (i : Nat) (r : StageRun), (s.awake = true) ∧ (s.stageRun? q n i = some r) ∧ (r.running = true) ∧
      (r.draining = false) ∧ ((s.quays[q].engineE i).cls = Cls.PYR ∨ (s.quays[q].engineE i).cls = Cls.WARP ∨ (s.quays[q].engineE i).cls = Cls.STEREO ∨
      (s.quays[q].engineE i).cls = Cls.FLOW ∨ (s.quays[q].engineE i).cls = Cls.FEAT) :=
  ⟨(qA (cS 3) .running [f9]), 1, 3#32, 0, run0, by decide +kernel, by decide +kernel, by decide +kernel, by decide +kernel, (by left; decide +kernel)⟩
theorem witness_StagesPublishAndSquashComplete_4 :
    ∃ (s : State) (q : Fin 4) (n : FrameNo) (i : Nat) (r : StageRun), (s.awake = true) ∧ (s.stageRun? q n i = some r) ∧ r.running = false :=
  ⟨(qA (cS 3) .running [{ f9 with stages := [{ run0 with status := some 0 }] }]), 1, 3#32, 0, { run0 with status := some 0 }, by decide +kernel⟩
theorem witness_StagesPublishAndSquashComplete_5 :
    ∃ (s : State) (q : Fin 4) (c : Chart) (f : FrameRec), (s.awake = true) ∧ (s.quays[q].chart = some c) ∧ (List.find? (fun (f : FrameRec) =>
      !f.committed) s.quays[q].frames = some f) ∧ (c.cfg.piloted = false) ∧ (f.byDock = false) ∧ (f.timeOf c c.cfg.publishPeriod c.cfg.publishOffsetUs
      ≤ s.time.now) ∧ s.quays[q].st.active = true :=
  ⟨(qA c5 .running [f9]), 1, c5, f9, by decide +kernel⟩
theorem witness_StagesPublishAndSquashComplete_6 :
    ∃ (s : State) (q : Fin 4), (s.awake = true) ∧ s.quays[q].squashing = true :=
  ⟨((qA c5 .running [{ f9 with squashed := true }]).modQuay 1 (fun x => { x with squashing := true })), 1, by decide +kernel⟩
theorem witness_FaultFifoKeepsTheOldest_1 :
    ∃ (s : State), s.faultFifo.length < 32 :=
  ⟨s0, by decide +kernel⟩
theorem witness_FaultFifoKeepsTheOldest_2 :
    ∃ (s : State), 32 ≤ s.faultFifo.length :=
  ⟨{ s0 with faultFifo := List.replicate 32 fe }, by decide +kernel⟩
theorem witness_FaultFifoKeepsTheOldest_3 :
    ∃ (s : State), s.awake = true :=
  ⟨{ s0 with faultFifo := [fe] }, by decide +kernel⟩
theorem witness_BerthReadsAreServedHeldOrDropped_1 :
    ∃ (s : State) (r : BerthReq), (s.awake = true) ∧ s.handleFenced r.tag = true :=
  ⟨(sB true tgFull), rq, by decide +kernel⟩
theorem witness_BerthReadsAreServedHeldOrDropped_2 :
    ∃ (s : State) (r : BerthReq), (s.awake = true) ∧ (s.handleFenced r.tag = false) ∧ (s.staleTide r.tag = true ∨ s.berthOwned r.tag r.berth = false) :=
  ⟨(sB false 0), rq, by decide +kernel, by decide +kernel, (by right; decide +kernel)⟩
theorem witness_BerthReadsAreServedHeldOrDropped_3 :
    ∃ (s : State) (r : BerthReq), (s.awake = true) ∧ (s.handleFenced r.tag = false) ∧ (s.staleTide r.tag = false) ∧ (s.berthOwned r.tag r.berth =
      true) ∧ (s.isGated (bankOf r.berth) = true ∨ s.berthReady r.berth r.carries = true) :=
  ⟨(sB false tgFull), rq, by decide +kernel, by decide +kernel, by decide +kernel, by decide +kernel, (by right; decide +kernel)⟩
theorem witness_BerthReadsAreServedHeldOrDropped_4 :
    ∃ (s : State) (r : BerthReq), (s.awake = true) ∧ (s.handleFenced r.tag = false) ∧ (s.staleTide r.tag = false) ∧ (s.berthOwned r.tag r.berth =
      true) ∧ (s.isGated (bankOf r.berth) = false) ∧ s.berthReady r.berth r.carries = false :=
  ⟨(sB false (mkTag false false 3 0 1 true false)), rq, by decide +kernel⟩
theorem witness_BerthWritesCombineAndTagWrites_1 :
    ∃ (s : State) (r : BerthReq), (s.awake = true) ∧ (s.handleFenced r.tag = false) ∧ (s.staleTide r.tag = false) ∧ (s.berthOwned r.tag r.berth = true) ∧ (1 ≤ r.data.length) ∧ (r.data.length ≤ 64) ∧ let port : Nat := (2 + berthDie r.berth); let mine : Burst → Bool := (fun (b : Burst) => decide (b.port = port) && match b.writes.head? with | some h => decide (h.stream = r.stream ∧ h.tag.quay = r.tag.quay) | none => false); List.find? mine s.mem.bursts = none :=
  ⟨(sB false tgFull), rq, by decide +kernel, by decide +kernel, by decide +kernel, by decide +kernel, by decide +kernel, by decide +kernel, by
    decide +kernel⟩
theorem witness_BerthWritesCombineAndTagWrites_2 :
    ∃ (s : State) (r : BerthReq), (s.awake = true) ∧ (s.handleFenced r.tag = false) ∧ (s.staleTide r.tag = false) ∧ (s.berthOwned r.tag r.berth = true) ∧ (1 ≤ r.data.length) ∧ (r.data.length ≤ 64) ∧ let port : Nat := (2 + berthDie r.berth); let w : BerthReq := ({ r with kind := ReqKind.write }); let mine : Burst → Bool := (fun (b : Burst) => decide (b.port = port) && match b.writes.head? with | some h => decide (h.stream = r.stream ∧ h.tag.quay = r.tag.quay) | none => false); ∃ (b : Burst), (List.find? mine s.mem.bursts = some b) ∧ b.takes w = false :=
  ⟨sBb, rq, by decide +kernel, by decide +kernel, by decide +kernel, by decide +kernel, by decide +kernel, by decide +kernel, bst, by decide +kernel⟩
theorem witness_BerthWritesCombineAndTagWrites_3 :
    ∃ (s : State) (p : Fin 6) (b : Burst), (s.awake = true) ∧ List.find? (fun (b : Burst) => decide (b.port = ↑p) && match b.writes.head? with | some w => decide (16 ≤ s.cyclesSince (s.dieOf w.tag % 2) b.since) | none => true) s.mem.bursts = some b :=
  ⟨sBb, 2, bst, by decide +kernel⟩
theorem witness_BerthWritesCombineAndTagWrites_4 :
    ∃ (s : State) (t : ReqTag), (s.awake = true) ∧ s.staleTide t = false :=
  ⟨sBb, tg, by decide +kernel⟩
theorem witness_BerthWritesCombineAndTagWrites_5 :
    ∃ (s : State) (t : ReqTag), (s.awake = true) ∧ s.staleTide t = true :=
  ⟨sBb, { tg with tide := 9 }, by decide +kernel⟩
theorem witness_BerthWritesCombineAndTagWrites_6 :
    ∃ (g : Word) (t : ReqTag), (tagOwned g = true) ∧ (tagQuay g = t.quay) ∧ tagTide g = BitVec.toNat t.tide :=
  ⟨tgFull, { tg with frame := 4 }, by decide +kernel⟩
theorem witness_TagOperationsAndFirmwareWrites_1 :
    ∃ (s : State) (q : Fin 4), (s.awake = true) ∧ (s.quays[q].st ≠ QState.loaded) ∧ s.quays[q].st ≠ QState.docked :=
  ⟨(qA c5 .running []), 1, by decide +kernel⟩
theorem witness_TagOperationsAndFirmwareWrites_2 :
    ∃ (s : State) (q : Fin 4) (c : Chart), (s.awake = true) ∧ (s.quays[q].st = QState.loaded ∨ s.quays[q].st = QState.docked) ∧ (s.quays[q].chart =
      some c) ∧ let first : Nat := (fld (s.reg (Reg.QUAY_SPAD_TAG_FIRST ↑q)) 15 0); let count : Nat := (fld (s.reg (Reg.QUAY_SPAD_TAG_COUNT ↑q)) 15
      0); s.quays[q].tagRangeOk c first count = false :=
  ⟨(sT2 0 17), 1, cBt, by decide +kernel, (by right; rfl), by decide +kernel, by decide +kernel⟩
theorem witness_TagOperationsAndFirmwareWrites_3 :
    ∃ (s : State) (a : Nat), (s.awake = true) ∧ regionOf a ≠ Region.spad :=
  ⟨(sT2 0 17), 0, by decide +kernel⟩
theorem witness_TagOperationsAndFirmwareWrites_4 :
    ∃ (s : State) (a : Nat) (bs : List Byte), (s.awake = true) ∧ (regionOf a = Region.spad) ∧ (s.begin.devWrite Initiator.app a bs).2 = St.OK :=
  ⟨(sT2 0 17), (berthAddr 0), [1], by decide +kernel⟩
theorem witness_TagOperationsAndFirmwareWrites_5 :
    ∃ (s : State) (a : Nat) (bs : List Byte), (s.awake = true) ∧ (regionOf a = Region.spad) ∧ (s.begin.devWrite Initiator.app a bs).2 ≠ St.OK :=
  ⟨s0, (berthAddr 49151 + 4095), [1,2], by decide +kernel⟩
theorem witness_TagOperationsAndFirmwareWrites_6 :
    ∃ (s : State) (g : BerthSig) (rest : List BerthSig) (q : Fin 4), (s.awake = true) ∧ (s.mem.signals = g :: rest) ∧ (quayOf? g.quay = some q) ∧
      (s.quays[q].tide ≠ g.tide ∨ tagOwned (s.tag g.berth) = false ∨ tagQuay (s.tag g.berth) ≠ g.quay ∨ tagTide (s.tag g.berth) ≠ BitVec.toNat g.tide) :=
  ⟨((sT2 0 1).modMem (fun m => { m with signals := [sg 9] })), (sg 9), [], 1, by decide +kernel, by decide +kernel, by decide +kernel,
    (by left; decide +kernel)⟩
theorem witness_TagOperationsAndFirmwareWrites_7 :
    ∃ (s : State) (g : BerthSig) (rest : List BerthSig) (q : Fin 4), (s.awake = true) ∧ (s.mem.signals = g :: rest) ∧ (quayOf? g.quay = some q) ∧
      (s.quays[q].tide = g.tide) ∧ (tagOwned (s.tag g.berth) = true) ∧ (tagQuay (s.tag g.berth) = g.quay) ∧ tagTide (s.tag g.berth) = BitVec.toNat
      g.tide :=
  ⟨((sT2 0 1).modMem (fun m => { m with signals := [sg 0] })), (sg 0), [], 1, by decide +kernel⟩
theorem witness_BanksGateAndWake_1 :
    ∃ (s : State) (ini : Initiator), (s.awake = true) ∧ ini ≠ Initiator.mc :=
  ⟨s0, .app, by decide +kernel⟩
theorem witness_BanksGateAndWake_2 :
    ∃ (s : State) (b : Fin 128), (s.awake = true) ∧ (s.isGated ↑b = false) ∧ (s.mem.gateReqs.any fun (e : Nat × Nat) => decide (e.1 = ↑b)) = false :=
  ⟨s0, 127, by decide +kernel⟩
theorem witness_BanksGateAndWake_3 :
    ∃ (s : State) (b : Fin 128), (s.awake = true) ∧ ((s.mem.gateReqs.any fun (e : Nat × Nat) => decide (e.1 = ↑b)) = true) ∧ s.bankHeld ↑b = false :=
  ⟨(s0.modMem (fun m => { m with gateReqs := [(127,0)] })), 127, by decide +kernel⟩
theorem witness_BanksGateAndWake_4 :
    ∃ (s : State) (b : Fin 128) (t : Nat), (s.awake = true) ∧ (List.find? (fun (e : Nat × Nat) => decide (e.1 = ↑b)) s.mem.gateReqs = some (↑b, t)) ∧
      t + 50000 ≤ s.time.now :=
  ⟨(s1.modMem (fun m => { m with gateReqs := [(127,0)] })), 127, 0, by decide +kernel⟩
theorem witness_BanksGateAndWake_5 :
    ∃ (s : State) (b : Fin 128) (t : Nat), (s.awake = true) ∧ (List.find? (fun (e : Nat × Nat) => decide (e.1 = ↑b)) s.mem.gateReqs = some (↑b, t)) ∧
      s.time.now < t + 50000 :=
  ⟨(s0.modMem (fun m => { m with gateReqs := [(127,0)] })), 127, 0, by decide +kernel⟩
theorem witness_BanksGateAndWake_6 :
    ∃ (s : State), s.awake = true :=
  ⟨(s1.modMem (fun m => { m with gateReqs := [(127,0)], gated := [127] })), by decide +kernel⟩
theorem witness_EngineRequestsTranslateAndReply_1 :
    ∃ (s : State) (r : MemReq), (s.awake = true) ∧ s.handleFenced r.tag = true :=
  ⟨(sM true), mr, by decide +kernel⟩
theorem witness_EngineRequestsTranslateAndReply_2 :
    ∃ (s : State) (r : MemReq), (s.awake = true) ∧ (s.handleFenced r.tag = false) ∧ s.staleTide r.tag = true :=
  ⟨(sM false), { mr with tag := { tg with tide := 4 } }, by decide +kernel⟩
theorem witness_EngineRequestsTranslateAndReply_3 :
    ∃ (s : State) (r : MemReq), (s.awake = true) ∧ (s.handleFenced r.tag = false) ∧ (s.staleTide r.tag = false) ∧ (∀ (pa k l : Nat), s.walk r.tag.q
      r.va (decide (r.kind = ReqKind.write)) = WalkRes.ok pa k l → s.atLimit r pa = false) :=
  ⟨(sM false), mr, by decide +kernel, by decide +kernel, by decide +kernel, (fun _ _ _ hw => absurd (noWalk.symm.trans hw) (by intro h; cases h))⟩
theorem witness_EngineRequestsTranslateAndReply_4 :
    ∃ (s : State) (i : Nat) (r : MemReq), (s.awake = true) ∧ s.mem.walks[i]? = some r :=
  ⟨((sM false).modMem (fun m => { m with walks := [mr] })), 0, mr, by decide +kernel⟩
theorem witness_EngineRequestsTranslateAndReply_5 :
    ∃ (s : State) (r : MemReq) (k : Nat), s.walk r.tag.q r.va (decide (r.kind = ReqKind.write)) = WalkRes.fault k :=
  ⟨(sM false), mr, 1, by decide +kernel⟩
theorem witness_EngineRequestsTranslateAndReply_6 :
    ∃ (s : State) (i : Nat) (o : Outstanding), (s.awake = true) ∧ (s.mem.outstanding[i]? = some o) ∧ (∀ (n : Nat), regionOf o.pa ≠ Region.onnak n) ∧
      (s.staleTide o.req.tag = true ∨ s.staleGen o.req.tag = true) :=
  ⟨(sO ouStale), 0, ouStale, by decide +kernel, by decide +kernel, region0, (by left; decide +kernel)⟩
theorem witness_FramesStartEndAndDeadlinesMark_1 :
    ∃ (s : State) (p : Fin 8) (hd : Header) (vc c : Nat) (e : Fin 4 × List Byte) (q : Fin 4) (r : StreamRec), (s.awake = true) ∧ (s.portEntry ↑p =
      some e) ∧ (hd ≠ Header.lost) ∧ ((s.begin.headerSeen (↑p) hd).ctxOfVc (↑p) vc = some c) ∧ (s.begin.headerSeen (↑p) hd).streamRec? c = some (q, r) :=
  ⟨cam0, 0, .corrected, 0, 0, en, 1, rr, by decide +kernel⟩
theorem witness_FramesStartEndAndDeadlinesMark_2 :
    ∃ (s : State) (p : Fin 8) (e : Fin 4 × List Byte), (s.awake = true) ∧ s.portEntry ↑p = some e :=
  ⟨cam0, 0, en, by decide +kernel⟩
theorem witness_FramesStartEndAndDeadlinesMark_3 :
    ∃ (s : State) (p : Fin 8) (hd : Header) (vc : Nat) (e : Fin 4 × List Byte), (s.awake = true) ∧ (s.portEntry ↑p = some e) ∧ (hd ≠ Header.lost) ∧
      (s.begin.headerSeen (↑p) hd).ctxOfVc (↑p) vc = none :=
  ⟨cam0, 0, .good, 3, en, by decide +kernel⟩
theorem witness_FramesStartEndAndDeadlinesMark_4 :
    ∃ (s : State) (p : Fin 8) (vc c : Nat) (e : Fin 4 × List Byte) (f : StreamFrame), (s.awake = true) ∧ (s.portEntry ↑p = some e) ∧ let u : State :=
      (s.begin.headerSeen (↑p) Header.good); (u.ctxOfVc (↑p) vc = some c) ∧ ((u.ctx c).cur = some f) ∧ (f.extra = false) ∧ f.early = none :=
  ⟨camCur, 0, 0, 0, en, sf0, by decide +kernel, by decide +kernel, by decide +kernel⟩
theorem witness_FramesStartEndAndDeadlinesMark_5 :
    ∃ (s : State) (c : Fin 24) (n : FrameNo) (q : Fin 4) (r : StreamRec) (T : Nat), (s.awake = true) ∧ (s.streamRec? ↑c = some (q, r)) ∧ (s.tickOf q n
      = some T) ∧ (∀ (m : FrameNo), (s.ctx ↑c).seen = some m → frameAtOrBefore n m = false) ∧ T + r.sofUs * 1000 ≤ s.time.now :=
  ⟨camT, 0, 3, 1, rr, 0, by decide +kernel, by decide +kernel, by decide +kernel, (by intro m hm; cases hm), by decide +kernel⟩
theorem witness_FramesStartEndAndDeadlinesMark_6 :
    ∃ (s : State) (c : Fin 24) (q : Fin 4) (r : StreamRec) (f : StreamFrame) (T : Nat), (s.awake = true) ∧ (s.streamRec? ↑c = some (q, r)) ∧ ((s.ctx
      ↑c).cur = some f) ∧ (s.tickOf q f.frame = some T) ∧ (f.extra = false) ∧ (f.early = none) ∧ T + r.eofUs * 1000 ≤ s.time.now :=
  ⟨camCur, 0, 1, rr, sf0, 0, by decide +kernel⟩
theorem witness_FramesStartEndAndDeadlinesMark_7 :
    ∃ (s : State) (p : Fin 8), (s.awake = true) ∧ s.portEntry ↑p = none :=
  ⟨s0, 7, by decide +kernel⟩
theorem witness_PacketsReachTheirContext_1 :
    ∃ (s : State) (p : Fin 8) (vc dt c : Nat) (e : Fin 4 × List Byte) (o : Fin 4) (r : StreamRec), (s.awake = true) ∧ (s.portEntry ↑p = some e) ∧ let
      u : State := (s.begin.headerSeen (↑p) Header.good); (u.ctxOfVc (↑p) vc = some c) ∧ (u.streamRec? c = some (o, r)) ∧ ∃ (f : StreamFrame),
      (supportedType dt = true) ∧ (dt = r.dt) ∧ (dt ≠ 18) ∧ ((u.ctx c).cur = some f) ∧ f.extra = false :=
  ⟨camCur, 0, 0, 0x2B, 0, en, 1, rr, by decide +kernel, by decide +kernel, by decide +kernel, by decide +kernel, sf0, by decide +kernel⟩
theorem witness_PacketsReachTheirContext_2 :
    ∃ (s : State) (p : Fin 8) (vc dt c : Nat) (e : Fin 4 × List Byte) (o : Fin 4) (r : StreamRec), (s.awake = true) ∧ (s.portEntry ↑p = some e) ∧ let
      u : State := (s.begin.headerSeen (↑p) Header.good); (u.ctxOfVc (↑p) vc = some c) ∧ (u.streamRec? c = some (o, r)) ∧ (supportedType dt = true) ∧
      (dt = r.dt) ∧ (u.ctx c).cur = none :=
  ⟨cam0, 0, 0, 0x2B, 0, en, 1, rr, by decide +kernel, by decide +kernel, by decide +kernel⟩
theorem witness_PacketsReachTheirContext_3 :
    ∃ (s : State) (p : Fin 8) (vc dt c : Nat) (e : Fin 4 × List Byte) (o : Fin 4) (r : StreamRec), (s.awake = true) ∧ (s.portEntry ↑p = some e) ∧ let
      u : State := (s.begin.headerSeen (↑p) Header.good); (u.ctxOfVc (↑p) vc = some c) ∧ (u.streamRec? c = some (o, r)) ∧ supportedType dt = false :=
  ⟨cam0, 0, 0, 0x3F, 0, en, 1, rr, by decide +kernel, by decide +kernel, by decide +kernel⟩
theorem witness_PacketsReachTheirContext_4 :
    ∃ (s : State), s.awake = true :=
  ⟨cam0, by decide +kernel⟩
theorem witness_PacketsReachTheirContext_5 :
    ∃ (s : State) (p : Fin 8) (vc dt c : Nat) (e : Fin 4 × List Byte), (s.awake = true) ∧ (s.portEntry ↑p = some e) ∧ (2 ≤ dt) ∧ let u : State :=
      (s.begin.headerSeen (↑p) Header.good); (u.ctxOfVc (↑p) vc = some c) ∧ (dt = 2 ∨ dt = 3) ∧ (u.ctx c).cur.isSome = true :=
  ⟨camCur, 0, 0, 2, 0, en, by decide +kernel, by decide +kernel, by decide +kernel, by decide +kernel⟩
theorem witness_PacketsReachTheirContext_6 :
    ∃ (s : State) (p : Fin 8) (vc dt c : Nat) (e : Fin 4 × List Byte), (s.awake = true) ∧ (s.portEntry ↑p = some e) ∧ (2 ≤ dt) ∧ let u : State :=
      (s.begin.headerSeen (↑p) Header.good); (u.ctxOfVc (↑p) vc = some c) ∧ (dt = 2 ∨ dt = 3) ∧ (u.ctx c).cur = none :=
  ⟨cam0, 0, 0, 3, 0, en, by decide +kernel, by decide +kernel, by decide +kernel, by decide +kernel⟩
theorem witness_PacketsReachTheirContext_7 :
    ∃ (s : State) (p : Fin 8) (vc dt c : Nat) (e : Fin 4 × List Byte), (s.awake = true) ∧ (s.portEntry ↑p = some e) ∧ (2 ≤ dt) ∧ let u : State :=
      (s.begin.headerSeen (↑p) Header.good); (u.ctxOfVc (↑p) vc = some c) ∧ 4 ≤ dt :=
  ⟨cam0, 0, 0, 4, 0, en, by decide +kernel, by decide +kernel, by decide +kernel, by decide +kernel⟩
theorem witness_PacketsReachTheirContext_8 :
    ∃ (s : State) (p : Fin 8) (e : Fin 4 × List Byte), (s.awake = true) ∧ s.portEntry ↑p = some e :=
  ⟨camCur, 0, en, by decide +kernel⟩
theorem witness_PacketsReachTheirContext_9 :
    ∃ (s : State) (c : Fin 24) (q : Fin 4) (r : StreamRec) (a b : Bool), (s.awake = true) ∧ (s.streamRec? ↑c = some (q, r)) ∧ (r.inject = true) ∧
      ((s.ctx ↑c).cur = none) ∧ (a = false ∨ b = false) :=
  ⟨cam0, 0, 1, rr, true, false, by decide +kernel⟩
theorem witness_PacketsReachTheirContext_10 :
    ∃ (s : State) (c : Fin 24) (q : Fin 4) (r : StreamRec) (a b : Bool), (s.awake = true) ∧ (s.streamRec? ↑c = some (q, r)) ∧ (r.inject = true) ∧
      ((s.ctx ↑c).cur = none) ∧ (a = true) ∧ b = true :=
  ⟨cam0, 0, 1, rr, true, true, by decide +kernel⟩
theorem witness_FsyncPulsesFollowTheTick_1 :
    ∃ (s : State) (i : Fin 8) (q : Fin 4) (b : List Byte) (t : OpenTick), (s.awake = true) ∧ (s.ownerOf Cls.FSYNC ↑i = some q) ∧ (s.quays[q].paramOf
      Cls.FSYNC ↑i = some b) ∧ (List.find? (fun (t : OpenTick) => decide (t.quay = ↑q)) s.cam.ticks.reverse = some t) ∧ let due : Nat := (t.tick +
      leAt b 8 4 * 1000); (s.time.now < due ∨ (s.cam.edges.any fun (g : Nat × Nat × Nat) => decide (g.1 = ↑i) && decide (g.2.1 = t.tick)) = true) :=
  ⟨{ fs0 with cam := { fs0.cam with edges := [(0,0,0)] } }, 0, 1, fsb, ⟨1,0,3#32⟩, by decide +kernel, by decide +kernel, by decide +kernel, by
    decide +kernel, (by right; decide +kernel)⟩
theorem witness_FsyncPulsesFollowTheTick_2 :
    ∃ (s : State) (i : Fin 8) (q : Fin 4) (b : List Byte), (s.awake = true) ∧ (s.ownerOf Cls.FSYNC ↑i = some q) ∧ (s.quays[q].paramOf Cls.FSYNC ↑i =
      some b) ∧ (s.cam.fsync.getD (↑i) false = true) ∧ s.reg64 (Reg.CAMRX_FSYNC_EDGE_LO ↑i) + leAt b 12 2 * 1000 ≤ s.time.now :=
  ⟨fs0, 0, 1, fsb, by decide +kernel⟩
theorem witness_FsyncPulsesFollowTheTick_3 :
    ∃ (s : State) (i : Fin 8) (q : Fin 4) (b : List Byte), (s.awake = true) ∧ (s.ownerOf Cls.FSYNC ↑i = some q) ∧ (s.quays[q].paramOf Cls.FSYNC ↑i =
      some b) ∧ (s.cam.fsync.getD (↑i) false = true) ∧ s.time.now < s.reg64 (Reg.CAMRX_FSYNC_EDGE_LO ↑i) + leAt b 12 2 * 1000 :=
  ⟨(fs0.setReg64 (Reg.CAMRX_FSYNC_EDGE_LO 0) 1000000000), 0, 1, fsb, by decide +kernel⟩
theorem witness_ExposureTicketsQueueAndReport_1 :
    ∃ (s : State) (q : Fin 4), (s.awake = true) ∧ (s.quays[q].st = QState.empty ∨ s.quays[q].st = QState.faulted ∨ s.quays[q].st = QState.resetting) :=
  ⟨s0, 1, by decide +kernel, (by left; rfl)⟩
theorem witness_ExposureTicketsQueueAndReport_2 :
    ∃ (s : State) (q o : Fin 4) (c : Nat) (r : StreamRec), (s.awake = true) ∧ (s.quays[q].st = QState.running ∨ s.quays[q].st = QState.docked) ∧
      (s.streamRec? c = some (o, r)) ∧ (o ≠ q) ∧ ((s.readScript (s.addr48 (Reg.CAMRX_TKT_SCRIPT_LO ↑q))).2 = false) ∧ (s.ctx c).queue.length < 8 :=
  ⟨(inSt cam0 2 .running none), 2, 1, 0, rr, by decide +kernel, (by left; rfl), by decide +kernel⟩
theorem witness_ExposureTicketsQueueAndReport_3 :
    ∃ (s : State), s.awake = true :=
  ⟨cam0, by decide +kernel⟩
theorem witness_ExposureTicketsQueueAndReport_4 :
    ∃ (s : State) (i q o : Fin 4) (rate tick : Nat) (t : Ticket) (w : FrameNo) (k : Option Nat) (r : StreamRec), (s.awake = true) ∧ (s.cam.i3c.getD
      (↑i) none = some (I3cBusy.ticket t w tick k)) ∧ (s.i3cRate ↑i = some (q, rate)) ∧ s.streamRec? t.ctx = some (o, r) :=
  ⟨i3t, 0, 1, 1, 10, 0, tk, 3#32, none, rr, by decide +kernel⟩
theorem witness_SensorBusesCarryFirmwareAndSamples_1 :
    ∃ (s : State) (i : Fin 4) (bs : List Byte), (s.awake = true) ∧ (bs ≠ []) ∧ s.i3cRate ↑i = none :=
  ⟨s0, 0, [1], by decide +kernel⟩
theorem witness_SensorBusesCarryFirmwareAndSamples_2 :
    ∃ (s : State) (i q : Fin 4), (s.awake = true) ∧ s.ownerOf Cls.I3C ↑i = some q :=
  ⟨i3s, 0, 1, by decide +kernel⟩
theorem witness_SensorBusesCarryFirmwareAndSamples_3 :
    ∃ (s : State) (p : Fin 4), (s.awake = true) ∧ s.spiEnabled ↑p = false :=
  ⟨s0, 3, by decide +kernel⟩
theorem witness_SensorBusesCarryFirmwareAndSamples_4 :
    ∃ (s : State) (p : Fin 4), (s.awake = true) ∧ (s.spiEnabled ↑p = true) ∧ 2 ≤ (s.spi ↑p).held.length :=
  ⟨(sp [1,2]), 3, by decide +kernel⟩
theorem witness_SensorBusesCarryFirmwareAndSamples_5 :
    ∃ (s : State) (p : Fin 4) (stamp : Nat) (rest : List Nat), (s.awake = true) ∧ ((s.spi ↑p).held = stamp :: rest) ∧ let prod : Nat := (fld (s.reg
      (Reg.SPI_STAMP_PRODUCER ↑p)) 11 0); let size : Nat := (2 ^ fld (s.reg (Reg.SPI_STAMP_CTRL ↑p)) 24 21); ringFull size prod (fld (s.reg
      (Reg.SPI_STAMP_CONSUMER ↑p)) 11 0) = false :=
  ⟨(sp [1,2]), 3, 1, [2], by decide +kernel, by decide +kernel, by decide +kernel⟩
theorem witness_SensorBusesCarryFirmwareAndSamples_6 :
    ∃ (s : State) (p : Fin 4) (stamp : Nat) (rest : List Nat), (s.awake = true) ∧ ((s.spi ↑p).held = stamp :: rest) ∧ ringFull (2 ^ fld (s.reg
      (Reg.SPI_STAMP_CTRL ↑p)) 24 21) (fld (s.reg (Reg.SPI_STAMP_PRODUCER ↑p)) 11 0) (fld (s.reg (Reg.SPI_STAMP_CONSUMER ↑p)) 11 0) = true :=
  ⟨((sp [1,2]).put (Reg.SPI_STAMP_CONSUMER 3) 1), 3, 1, [2], by decide +kernel⟩
theorem witness_CameraPipesTakeLinesAndWriteRows_1 :
    ∃ (s : State) (k : Fin 32) (q : Fin 4) (bs : List Byte) (l : CampLine) (rest : List CampLine) (u : CampRun), (s.awake = true) ∧ (s.campRec? ↑k =
      some (q, bs)) ∧ ((s.slot ↑k).inbound = l :: rest) ∧ let v : State := (s.begin.modSlot ↑k fun (x : CampSlot) => { x with inbound := rest });
      (List.find? (fun (u : CampRun) => decide (u.frame = l.frame)) (v.slot ↑k).runs = some u) ∧ (u.lines ≠ 0) ∧ u.discarded = true :=
  ⟨(campL { crun with discarded := true } [cl0]), 0, 1, campRec0, cl0, [], { crun with discarded := true }, by decide +kernel, by decide +kernel, by
    decide +kernel, by decide +kernel⟩
theorem witness_CameraPipesTakeLinesAndWriteRows_2 :
    ∃ (s : State) (i : Fin 4) (p : Pass), (s.awake = true) ∧ s.camp.pass.getD (↑i) none = some p :=
  ⟨{ campS with camp := { campS.camp with pass := [some (.line 0), none, none, none] } }, 0, (.line 0), by decide +kernel⟩
theorem witness_CameraPipesTakeLinesAndWriteRows_3 :
    ∃ (s : State) (k : Fin 32) (m q : Fin 4) (bs : List Byte) (i h : Nat) (u : CampRun) (f : FrameRec) (r : StageRun), (s.awake = true) ∧ (s.campRec?
      ↑k = some (q, bs)) ∧ (s.quays[q].stageIdx? (leAt bs 8 2) = some i) ∧ (s.rowRun? (↑k) (↑m) bs = some u) ∧ ((s.quays[q].stageE i).outs[↑m]? = some
      h) ∧ (s.quays[q].frame? u.frame = some f) ∧ (s.stageRun? q u.frame i = some r) ∧ (r.running = true) ∧ s.rowReady (↑m) bs u = true :=
  ⟨(campL crun []), 0, 0, 1, campRec0, 0, 3, crun, frm0, run0, by decide +kernel⟩
theorem witness_CameraPipesTakeLinesAndWriteRows_4 :
    ∃ (s : State) (k : Fin 32) (m q : Fin 4) (bs : List Byte) (i h : Nat) (u : CampRun) (f : FrameRec) (r : StageRun), (s.awake = true) ∧ (s.campRec?
      ↑k = some (q, bs)) ∧ (s.quays[q].stageIdx? (leAt bs 8 2) = some i) ∧ (s.rowRun? (↑k) (↑m) bs = some u) ∧ ((s.quays[q].stageE i).outs[↑m]? = some
      h) ∧ (s.quays[q].frame? u.frame = some f) ∧ (s.stageRun? q u.frame i = some r) ∧ (r.running = false ∨ s.rowReady (↑m) bs u = false) :=
  ⟨(campL { crun with passes := 1 } []), 0, 0, 1, campRec0, 0, 3, { crun with passes := 1 }, frm0, run0, by decide +kernel, by decide +kernel, by
    decide +kernel, by decide +kernel, by decide +kernel, by decide +kernel, by decide +kernel, (by right; decide +kernel)⟩
theorem witness_CameraPipesTakeLinesAndWriteRows_5 :
    ∃ (s : State) (q : Fin 4), (s.awake = true) ∧ (s.quays[q].st = QState.empty ∨ s.quays[q].st = QState.faulted ∨ s.quays[q].st = QState.resetting) :=
  ⟨s0, 1, by decide +kernel, (by left; decide +kernel)⟩
theorem witness_CameraPipesTakeLinesAndWriteRows_6 :
    ∃ (s : State) (q : Fin 4) (c k : Nat) (bs : List Byte) (p : Bool), (s.awake = true) ∧ (s.quays[q].st = QState.running ∨ s.quays[q].st =
      QState.docked) ∧ (s.slotOf q c = some k) ∧ (s.devRead (s.addr48 (Reg.CAMP_ADJ_RECORD_LO ↑q)) 64 = (St.OK, bs, p)) ∧ ((Adj.mk bs).ok = true) ∧
      ((s.slot k).lastTarget = none) ∧ (s.slot k).queue = [] :=
  ⟨campS, 1, 0, 0, (List.replicate 64 0), false, by decide +kernel, (by left; decide +kernel), by decide +kernel⟩
theorem witness_VisionJobsStartBandAndWait_1 :
    ∃ (s : State) (cls inst : Nat) (q : Fin 4), (s.awake = true) ∧ (s.ownerOf cls inst = some q) ∧ (3 ≤ cls) ∧ (cls ≤ 7) ∧ ∃ (f : FrameRec) (r :
      StageRun) (k : Nat) (b : List Byte), (s.visRun? cls inst = none) ∧ (s.nextJob q cls inst = some (f, r)) ∧ (s.quays[q].jobOf r.idx = some (k, b))
      ∧ (cls ≠ Cls.FLOW ∨ List.elem (130#8) r.gathered = false) ∧ s.headsReady q cls f r b = true :=
  ⟨(visS 3 [] run0), 3, 0, 1, by decide +kernel, by decide +kernel, by decide +kernel, by decide +kernel, (visF run0), run0, 0, (jb 64 []), by
    decide +kernel, by decide +kernel, by decide +kernel, (by left; decide), by decide +kernel⟩
theorem witness_VisionJobsStartBandAndWait_2 :
    ∃ (s : State) (cls inst : Nat) (q : Fin 4), (s.awake = true) ∧ (s.ownerOf cls inst = some q) ∧ (3 ≤ cls) ∧ (cls ≤ 7) ∧ ∃ (f : FrameRec) (r :
      StageRun) (k : Nat) (b : List Byte), (s.visRun? cls inst = none) ∧ (s.nextJob q cls inst = some (f, r)) ∧ (s.quays[q].jobOf r.idx = some (k, b))
      ∧ (cls ≠ Cls.FLOW ∨ List.elem (130#8) r.gathered = false) ∧ s.headsReady q cls f r b = false :=
  ⟨(visH (visS 3 [] run0)), 3, 0, 1, by decide +kernel, by decide +kernel, by decide +kernel, by decide +kernel, (visF run0), run0, 0, (jb 64 []), by
    decide +kernel, by decide +kernel, by decide +kernel, (by left; decide), by decide +kernel⟩
theorem witness_VisionJobsStartBandAndWait_3 :
    ∃ (s : State) (cls inst : Nat) (q : Fin 4), (s.awake = true) ∧ (s.ownerOf cls inst = some q) ∧ (3 ≤ cls) ∧ (cls ≤ 7) ∧ ∃ (f : FrameRec) (r :
      StageRun) (k : Nat) (b : List Byte), (s.visRun? cls inst = none) ∧ (s.nextJob q cls inst = some (f, r)) ∧ (s.quays[q].jobOf r.idx = some (k, b))
      ∧ (cls = Cls.FLOW) ∧ List.elem (130#8) r.gathered = true :=
  ⟨(visS 6 [] runFl), 6, 0, 1, by decide +kernel, by decide +kernel, by decide +kernel, by decide +kernel, (visF runFl), runFl, 0, (jb 64 []), by
    decide +kernel⟩
theorem witness_VisionJobsStartBandAndWait_4 :
    ∃ (s : State) (cls inst : Nat) (q : Fin 4), (s.awake = true) ∧ (s.ownerOf cls inst = some q) ∧ (3 ≤ cls) ∧ (cls ≤ 7) ∧ (s.visRun? cls inst).isSome
      = true :=
  ⟨{ visS 3 [] run0 with vis := [vr 3 0] }, 3, 0, 1, by decide +kernel⟩
theorem witness_VisionJobsStartBandAndWait_5 :
    ∃ (s : State) (i : Fin 2) (v : VisRun) (q : Fin 4) (k : Nat) (b : List Byte) (f : FrameRec) (d : Desc), (s.awake = true) ∧ (s.visRun? Cls.WARP ↑i
      = some v) ∧ (quayOf? v.quay = some q) ∧ (s.quays[q].jobOf v.idx = some (k, b)) ∧ (s.quays[q].frame? v.frame = some f) ∧ (v.descs.head? = some d)
      ∧ let j : WarpJob := ({ bytes := b }); let ready : Bool := ((decide (j.mode ≠ 1) || s.meshReady q v j (s.jobIn q f v.idx 1) (j.bandRows v.band))
      && s.bandReady q v j (s.jobIn q f v.idx 0) d (s.begin.bandPixels q v j f d).2.2); (v.band < j.bands) ∧ ready = true :=
  ⟨{ visS 4 wj run0 with vis := [vr 4 0] }, 0, (vr 4 0), 1, 0, (jb 128 wj), (visF run0), (Desc.ofBytes (rec0 128 [])), by decide +kernel, by
    decide +kernel, by decide +kernel, by decide +kernel, by decide +kernel, by decide +kernel, by decide +kernel⟩
theorem witness_VisionJobsStartBandAndWait_6 :
    ∃ (s : State) (i : Fin 2) (v : VisRun) (q : Fin 4) (k : Nat) (b : List Byte) (f : FrameRec) (d : Desc), (s.awake = true) ∧ (s.visRun? Cls.WARP ↑i
      = some v) ∧ (quayOf? v.quay = some q) ∧ (s.quays[q].jobOf v.idx = some (k, b)) ∧ (s.quays[q].frame? v.frame = some f) ∧ (v.descs.head? = some d)
      ∧ let j : WarpJob := ({ bytes := b }); let ready : Bool := ((decide (j.mode ≠ 1) || s.meshReady q v j (s.jobIn q f v.idx 1) (j.bandRows v.band))
      && s.bandReady q v j (s.jobIn q f v.idx 0) d (s.begin.bandPixels q v j f d).2.2); (j.bands ≤ v.band ∨ ready = false) :=
  ⟨{ visS 4 wj run0 with vis := [vr 4 1] }, 0, (vr 4 1), 1, 0, (jb 128 wj), (visF run0), (Desc.ofBytes (rec0 128 [])), by decide +kernel, by
    decide +kernel, by decide +kernel, by decide +kernel, by decide +kernel, by decide +kernel, (by left; decide +kernel)⟩
theorem witness_LedgerPredictionsWindowAndSweeps_1 :
    ∃ (s : State) (q : Fin 4), (s.awake = true) ∧ (s.quays[q].st = QState.empty ∨ s.quays[q].st = QState.faulted ∨ s.quays[q].st = QState.resetting) :=
  ⟨s0, 1, by decide +kernel, (by left; rfl)⟩
theorem witness_LedgerPredictionsWindowAndSweeps_2 :
    ∃ (s : State) (q : Fin 4) (c : Nat) (bs : List Byte) (p : Bool), (s.awake = true) ∧ (s.quays[q].st = QState.running ∨ s.quays[q].st =
      QState.docked) ∧ (s.devRead (s.addr48 (Reg.LEDGER_PRED_RECORD_LO ↑q)) 64 = (St.OK, bs, p)) ∧ (predOk bs = true) ∧ (s.associates q c = true) ∧
      let target : Nat := (BitVec.toNat (s.reg (Reg.LEDGER_PRED_TARGET ↑q))); (s.targetStarted q c target = false) ∧ List.filter (fun (p : Pred) =>
      decide (p.quay = ↑q) && decide (p.ctx = c)) s.ledger.preds = [] :=
  ⟨ledS, 1, 0, pr0, false, by decide +kernel, (by left; rfl), by decide +kernel, by decide +kernel, by decide +kernel, by decide +kernel⟩
theorem witness_LedgerPredictionsWindowAndSweeps_3 :
    ∃ (s : State) (a : Nat), (s.awake = true) ∧ let t : Nat := ((a - Addr.ledger) / 64); let b : Nat := (blockOfTrack t); s.ownerOf Cls.LEDGER b =
      none :=
  ⟨s0, Addr.ledger, by decide +kernel, by decide +kernel⟩
theorem witness_LedgerPredictionsWindowAndSweeps_4 :
    ∃ (s : State) (a : Nat), (s.awake = true) ∧ let t : Nat := ((a - Addr.ledger) / 64); let b : Nat := (blockOfTrack t); ∃ (q : Fin 4), s.ownerOf
      Cls.LEDGER b = some q :=
  ⟨(quay1 .running (chart0 8 0 []) []), Addr.ledger, by decide +kernel, 1, by decide +kernel⟩
theorem witness_LedgerPredictionsWindowAndSweeps_5 :
    ∃ (s : State), s.awake = true :=
  ⟨s0, by decide +kernel⟩
theorem witness_LedgerPredictionsWindowAndSweeps_6 :
    ∃ (s : State) (die : Fin 2) (q : Fin 4), (s.awake = true) ∧ List.elem (↑die, ↑q) s.ledger.sweeps = false :=
  ⟨s0, 0, 1, by decide +kernel⟩
theorem witness_LedgerPredictionsWindowAndSweeps_7 :
    ∃ (s : State) (die : Fin 2) (q : Fin 4), (s.awake = true) ∧ List.elem (↑die, ↑q) s.ledger.sweeps = true :=
  ⟨{ s0 with ledger := { s0.ledger with sweeps := [(0, 1)] } }, 0, 1, by decide +kernel⟩
theorem witness_SoundingsTakePosesAndIntegrate_1 :
    ∃ (s : State), (s.awake = true) ∧ (s.ownerOf Cls.SND 0 = none ∨ ∃ (q : Fin 4), s.ownerOf Cls.SND 0 = some q ∧ (s.quays[q].st = QState.faulted ∨
      s.quays[q].st = QState.resetting)) :=
  ⟨s0, by decide +kernel, (by left; decide +kernel)⟩
theorem witness_SoundingsTakePosesAndIntegrate_2 :
    ∃ (s : State), (s.awake = true) ∧ (s.ownerOf Cls.SND 0 = none ∨ ∃ (q : Fin 4), s.ownerOf Cls.SND 0 = some q ∧ (s.quays[q].st = QState.faulted ∨
      s.quays[q].st = QState.resetting)) :=
  ⟨(quay1 .faulted (chart0 9 0 []) []), by decide +kernel, (by right; exact ⟨1, by decide +kernel, by left; decide +kernel⟩)⟩
theorem witness_SoundingsTakePosesAndIntegrate_3 :
    ∃ (s : State) (k : Nat) (q : Fin 4) (m : SndMap) (bs : List Byte) (p : Bool), (s.awake = true) ∧ (s.ownerOf Cls.SND 0 = some q) ∧ (s.quays[q].st =
      QState.running) ∧ (s.quays[q].sndMap = some m) ∧ (k < m.count) ∧ (s.devRead (s.addr48 Reg.SND_POSE_RECORD_LO) 64 = (St.OK, bs, p)) ∧ (poseOk bs
      = true) ∧ (List.filter (fun (p : Pose) => decide (p.job = k)) s.snd.poses = []) ∧ (s.snd.latched.any fun (l : Nat × Nat × Option Pose) => decide
      (l.1 = k)) = false :=
  ⟨(sndS []), 0, 1, ⟨mapB⟩, pose0, false, by decide +kernel⟩
theorem witness_SoundingsTakePosesAndIntegrate_4 :
    ∃ (s : State) (q : Fin 4) (v : VisRun) (f : FrameRec) (k : Nat) (b : List Byte) (m : SndMap), (s.awake = true) ∧ (s.ownerOf Cls.SND 0 = some q) ∧
      let u : State := (s.begin.sndNext q); (List.find? (fun (v : VisRun) => decide (v.cls = Cls.SND)) u.vis = some v) ∧ (u.quays[q].frame? v.frame =
      some f) ∧ (u.quays[q].jobOf v.idx = some (k, b)) ∧ (u.quays[q].sndMap = some m) ∧ (v.band = 0) ∧ let ps : List StageRun :=
      (u.quays[q].producersOf f v.idx); (ps.all fun (r : StageRun) => r.status.isSome) = false :=
  ⟨(sndV none), 1, (vr 9 0), (sndF none), 0, (rec0 64 [(0, 5)]), ⟨mapB⟩, by decide +kernel, by decide +kernel, by decide +kernel, by decide +kernel,
    by decide +kernel, by decide +kernel, by decide +kernel, by decide +kernel⟩
theorem witness_SoundingsTakePosesAndIntegrate_5 :
    ∃ (s : State) (q : Fin 4) (v : VisRun) (f : FrameRec) (k : Nat) (b : List Byte) (m : SndMap), (s.awake = true) ∧ (s.ownerOf Cls.SND 0 = some q) ∧
      let u : State := (s.begin.sndNext q); (List.find? (fun (v : VisRun) => decide (v.cls = Cls.SND)) u.vis = some v) ∧ (u.quays[q].frame? v.frame =
      some f) ∧ (u.quays[q].jobOf v.idx = some (k, b)) ∧ (u.quays[q].sndMap = some m) ∧ (v.band = 0) ∧ let ps : List StageRun :=
      (u.quays[q].producersOf f v.idx); ((ps.all fun (r : StageRun) => r.status.isSome) = true) ∧ (ps.any fun (r : StageRun) => decide (r.status ≠
      some St.OK)) = true :=
  ⟨(sndV (some 3)), 1, (vr 9 0), (sndF (some 3)), 0, (rec0 64 [(0, 5)]), ⟨mapB⟩, by decide +kernel, by decide +kernel, by decide +kernel, by
    decide +kernel, by decide +kernel, by decide +kernel, by decide +kernel, by decide +kernel⟩
theorem witness_SoundingsTakePosesAndIntegrate_6 :
    ∃ (s : State) (q : Fin 4) (v : VisRun) (f : FrameRec) (k : Nat) (b : List Byte) (m : SndMap), (s.awake = true) ∧ (s.ownerOf Cls.SND 0 = some q) ∧
      let u : State := (s.begin.sndNext q); (List.find? (fun (v : VisRun) => decide (v.cls = Cls.SND)) u.vis = some v) ∧ (u.quays[q].frame? v.frame =
      some f) ∧ (u.quays[q].jobOf v.idx = some (k, b)) ∧ (u.quays[q].sndMap = some m) ∧ (v.band = 0) ∧ let ps : List StageRun :=
      (u.quays[q].producersOf f v.idx); ((ps.all fun (r : StageRun) => r.status.isSome) = true) ∧ ((ps.any fun (r : StageRun) => decide (r.status ≠
      some St.OK)) = false) ∧ ((u.sndInputs q v f { bytes := b }).all fun (e : Want × JobIn) => u.inReady q v.idx e.2 e.1.off 128) = true :=
  ⟨(sndV (some 0)), 1, (vr 9 0), (sndF (some 0)), 0, (rec0 64 [(0, 5)]), ⟨mapB⟩, by decide +kernel, by decide +kernel, by decide +kernel, by
    decide +kernel, by decide +kernel, by decide +kernel, by decide +kernel, by decide +kernel⟩
theorem witness_EdgeGuardDecidesReleasesAndTests_1 :
    ∃ (s : State) (k r : Nat) (x : EdgeSrcSt) (e : EdgeSrc) (v : EdgeEval), (s.awake = true) ∧ (s.edge.srcs[k]? = some x) ∧ (s.edgeSources[k]? = some e) ∧ (List.find? (fun (v : EdgeEval) => match v.runs[r]? with | some u => u.before.isNone | none => false) x.evals = some v) ∧ v.tick + e.deadlineUs * 1000 ≤ s.time.now :=
  ⟨(egS 0), 0, 0, ⟨[⟨3#32, 0, 0, [⟨⟨[], 0, false⟩, none⟩]⟩], [⟨true, ⟨0,0⟩, ⟨0,0⟩⟩]⟩, ⟨rec0 192 [(7, 1), (0xC, 100)]⟩, ⟨3#32, 0, 0, [⟨⟨[], 0, false⟩,
    none⟩]⟩, by decide +kernel⟩
theorem witness_EdgeGuardDecidesReleasesAndTests_2 :
    ∃ (s : State) (k r : Nat) (x : EdgeSrcSt) (e : EdgeSrc) (v : EdgeEval), (s.awake = true) ∧ (s.edge.srcs[k]? = some x) ∧ (s.edgeSources[k]? = some e) ∧ (List.find? (fun (v : EdgeEval) => match v.runs[r]? with | some u => u.before.isNone | none => false) x.evals = some v) ∧ s.time.now < v.tick + e.deadlineUs * 1000 :=
  ⟨(egS 1000000000), 0, 0, ⟨[⟨3#32, 1000000000, 0, [⟨⟨[], 0, false⟩, none⟩]⟩], [⟨true, ⟨0,0⟩, ⟨0,0⟩⟩]⟩, ⟨rec0 192 [(7, 1), (0xC, 100)]⟩, ⟨3#32,
    1000000000, 0, [⟨⟨[], 0, false⟩, none⟩]⟩, by decide +kernel⟩
theorem witness_EdgeGuardDecidesReleasesAndTests_3 :
    ∃ (s : State) (ini : Initiator), (s.awake = true) ∧ ini ≠ Initiator.cg :=
  ⟨s0, .app, by decide +kernel⟩
theorem witness_EdgeGuardDecidesReleasesAndTests_4 :
    ∃ (s : State), s.awake = true :=
  ⟨s0, by decide +kernel⟩
theorem witness_EdgeGuardDecidesReleasesAndTests_5 :
    ∃ (s : State), s.awake = true :=
  ⟨s0, by decide +kernel⟩
theorem witness_ElvowCommandsIssueComputeAndMove_1 :
    ∃ (s : State) (inst : Fin 12) (j : Nat) (x : ElvXfer) (run : ProgRun) (cx0 : CmdCtx), (s.awake = true) ∧ ((s.prog.xfers.getD ↑inst [])[j]? = some
      x) ∧ (List.find? (fun (r : ProgRun) => decide (r.frame = x.frame ∧ r.idx = x.idx)) (s.begin.progRuns Cls.ELV ↑inst) = some run) ∧ (s.begin.cmdAt
      Cls.ELV (↑inst) run = some cx0) ∧ (∀ y ∈ List.take j (s.prog.xfers.getD ↑inst []), y.frame = x.frame → y.idx = x.idx → hazard x.refs x.cmd y =
      false) ∧ let cx : CmdCtx := ({ cx0 with c := x.cmd }); ((List.filterMap id [x.refs.a]).all (s.begin.refReady cx) = true) ∧ (x.cmd.final &&
      decide (x.cmd.op = 8)) = false :=
  ⟨xfS, 0, 0, xf, prun0, ((xfS.begin.cmdAt Cls.ELV 0 prun0).get someCx), by decide +kernel, by decide +kernel, by decide +kernel, (by simp),
    (by intro y hy; simp at hy), by decide +kernel⟩
theorem witness_ElvowCommandsIssueComputeAndMove_2 :
    ∃ (s : State) (inst : Fin 12) (j : Nat), (s.awake = true) ∧ (s.prog.xfers.getD ↑inst []).length ≤ j :=
  ⟨s0, 0, 0, by decide +kernel⟩
theorem witness_ElvowCommandsIssueComputeAndMove_3 :
    ∃ (s : State) (q : Fin 4) (n : FrameNo) (v : Nat), (s.awake = true) ∧ s.begin.voyageMet q n v = true :=
  ⟨(bolS true), 1, 3#32, 0, by decide +kernel⟩
theorem witness_ElvowCommandsIssueComputeAndMove_4 :
    ∃ (s : State) (q : Fin 4) (n : FrameNo) (v : Nat), (s.awake = true) ∧ s.begin.voyageMet q n v = false :=
  ⟨(bolS false), 1, 3#32, 0, by decide +kernel⟩
theorem witness_ElvowCommandsIssueComputeAndMove_5 :
    ∃ (s : State) (inst : Fin 12) (p cx : CmdCtx), (s.awake = true) ∧ (s.begin.cmdCtx Cls.ELV (↑inst) 0 = some p) ∧ s.begin.cmdCtx Cls.ELV (↑inst) 1 =
      some cx :=
  ⟨tanS, 0, ((tanS.begin.cmdCtx Cls.ELV 0 0).get p0), ((tanS.begin.cmdCtx Cls.ELV 0 1).get p1), by decide +kernel, (by simp), (by simp)⟩
theorem witness_CommandRingsAndNeuralDispatch_1 :
    ∃ (s : State) (q : Fin 4), (s.awake = true) ∧ s.quays[q].st.takesRequests = false :=
  ⟨s0, 1, by decide +kernel⟩
theorem witness_CommandRingsAndNeuralDispatch_2 :
    ∃ (s : State) (q : Fin 4) (v : Word), (s.awake = true) ∧ let k : Nat := (s.ringK (Reg.HM_CMDRING_BASE_HI ↑q)); (s.quays[q].st.takesRequests =
      true) ∧ (k = 0 ∨ 2 ^ k ≤ fld v 11 0) :=
  ⟨ldS, 1, 0, by decide +kernel, by decide +kernel, (by left; decide +kernel)⟩
theorem witness_CommandRingsAndNeuralDispatch_3 :
    ∃ (s : State) (q : Fin 4) (v : Word), (s.awake = true) ∧ let k : Nat := (s.ringK (Reg.HM_CMDRING_BASE_HI ↑q)); (s.quays[q].st.takesRequests =
      true) ∧ (k ≠ 0) ∧ fld v 11 0 < 2 ^ k :=
  ⟨(rgS ldS 0), 1, 5, by decide +kernel, by decide +kernel⟩
theorem witness_CommandRingsAndNeuralDispatch_4 :
    ∃ (s : State) (q : Fin 4), (s.awake = true) ∧ let k : Nat := (s.ringK (Reg.HM_CMDRING_BASE_HI ↑q)); let c : Nat := (fld (s.reg
      (Reg.HM_CMDRING_CONSUMER ↑q)) 11 0); (k ≠ 0) ∧ (s.quays[q].st.takesRequests = true) ∧ (s.quays[q].waitingRequests.length < 256) ∧ fld (s.reg
      (Reg.HM_CMDRING_PRODUCER ↑q)) 11 0 = c :=
  ⟨(rgS ldS 0), 1, by decide +kernel, by decide +kernel⟩
theorem witness_CommandRingsAndNeuralDispatch_5 :
    ∃ (s : State) (q : Fin 4), (s.awake = true) ∧ let k : Nat := (s.ringK (Reg.HM_CMDRING_BASE_HI ↑q)); let c : Nat := (fld (s.reg
      (Reg.HM_CMDRING_CONSUMER ↑q)) 11 0); (k ≠ 0) ∧ (s.quays[q].st.takesRequests = true) ∧ (s.quays[q].waitingRequests.length < 256) ∧ (fld (s.reg
      (Reg.HM_CMDRING_PRODUCER ↑q)) 11 0 ≠ c) ∧ let b : List Byte := (s.begin.bytesAt (s.ringBase (Reg.HM_CMDRING_BASE_LO ↑q) + 64 * c) 64); let u :
      State := (s.begin.put (Reg.HM_CMDRING_CONSUMER ↑q) ((c + 1) % 2 ^ k)); ∃ (st : Status), u.judgeEntryCmd q b = some st :=
  ⟨(rgS ldS 1), 1, by decide +kernel, by decide +kernel, by decide +kernel, by decide +kernel, by decide +kernel, St.REFUSED, by decide +kernel⟩
theorem witness_CommandRingsAndNeuralDispatch_6 :
    ∃ (s : State) (q : Fin 4), (s.awake = true) ∧ let k : Nat := (s.ringK (Reg.HM_CMDRING_BASE_HI ↑q)); let c : Nat := (fld (s.reg
      (Reg.HM_CMDRING_CONSUMER ↑q)) 11 0); (k ≠ 0) ∧ (s.quays[q].st.takesRequests = true) ∧ (s.quays[q].waitingRequests.length < 256) ∧ (fld (s.reg
      (Reg.HM_CMDRING_PRODUCER ↑q)) 11 0 ≠ c) ∧ let b : List Byte := (s.begin.bytesAt (s.ringBase (Reg.HM_CMDRING_BASE_LO ↑q) + 64 * c) 64); let u :
      State := (s.begin.put (Reg.HM_CMDRING_CONSUMER ↑q) ((c + 1) % 2 ^ k)); u.judgeEntryCmd q b = none :=
  ⟨reqS, 1, by decide +kernel, by decide +kernel, by decide +kernel, by decide +kernel, by decide +kernel, by decide +kernel⟩
theorem witness_CommandRingsAndNeuralDispatch_7 :
    ∃ (s : State) (q : Fin 4) (r : Request) (i : Nat) (n : FrameNo), (s.awake = true) ∧ (s.quays[q].st.active = true) ∧ (s.salv[q].phase ≠
      SalvPhase.replaying) ∧ (List.findSome? (fun (r : Request) => (s.begin.requestStage q r.stage).bind fun (i : Nat) => Option.map (fun (f :
      FrameRec) => (r, i, f.num)) (s.quays[q].openFor i)) s.quays[q].waitingRequests = some (r, i, n)) ∧ s.begin.freeVoyages q = [] :=
  ⟨(disS [] 0), 1, rq1, 0, 3#32, by decide +kernel⟩
theorem witness_CommandRingsAndNeuralDispatch_8 :
    ∃ (s : State) (q : Fin 4) (placed : Bool) (r : Request) (i : Nat) (n : FrameNo), (s.awake = true) ∧ (s.quays[q].st.active = true) ∧
      (s.salv[q].phase ≠ SalvPhase.replaying) ∧ (List.findSome? (fun (r : Request) => (s.begin.requestStage q r.stage).bind fun (i : Nat) =>
      Option.map (fun (f : FrameRec) => (r, i, f.num)) (s.quays[q].openFor i)) s.quays[q].waitingRequests = some (r, i, n)) ∧ ∃ (v : Nat) (l : List
      Nat), (s.begin.freeVoyages q = v :: l) ∧ placed = false :=
  ⟨(disS [] 2), 1, false, rq1, 0, 3#32, by decide +kernel, by decide +kernel, by decide +kernel, by decide +kernel, 0, [1], by decide +kernel⟩
theorem witness_CommandRingsAndNeuralDispatch_9 :
    ∃ (s : State) (q : Fin 4) (placed : Bool) (r : Request) (i : Nat) (n : FrameNo), (s.awake = true) ∧ (s.quays[q].st.active = true) ∧
      (s.salv[q].phase ≠ SalvPhase.replaying) ∧ (List.findSome? (fun (r : Request) => (s.begin.requestStage q r.stage).bind fun (i : Nat) =>
      Option.map (fun (f : FrameRec) => (r, i, f.num)) (s.quays[q].openFor i)) s.quays[q].waitingRequests = some (r, i, n)) ∧ ∃ (v : Nat) (l : List
      Nat), (s.begin.freeVoyages q = v :: l) ∧ placed = true :=
  ⟨(disS [] 2), 1, true, rq1, 0, 3#32, by decide +kernel, by decide +kernel, by decide +kernel, by decide +kernel, 0, [1], by decide +kernel⟩
theorem witness_CommandRingsAndNeuralDispatch_10 :
    ∃ (s : State) (q : Fin 4), (s.awake = true) ∧ s.quays[q].st.active = false :=
  ⟨s0, 1, by decide +kernel⟩
theorem witness_TenderCommandsFollowTheStateTable_1 :
    ∃ (s : State) (n : Fin 32), (s.awake = true) ∧ (s.chanOwner ↑n = none) ∧ let st : TState := ((s.chan ↑n).st); let cfg : ChanCfg := (s.chanCfg ↑n);
      let src : Nat := (s.addr48 (Reg.TENDER_CH_SRC_LO ↑n)); let dst : Nat := (s.addr48 (Reg.TENDER_CH_DST_LO ↑n)); let count : Nat := (BitVec.toNat
      (s.reg (Reg.TENDER_CH_COUNT ↑n))); (st = TState.idle ∨ st = TState.halted) ∧ cfg.ok (↑n) src dst count false = false :=
  ⟨(tenS (tch .idle)), 2, by decide +kernel, by decide +kernel, (by left; decide +kernel), by decide +kernel⟩
theorem witness_TenderCommandsFollowTheStateTable_2 :
    ∃ (s : State) (n : Fin 32), (s.awake = true) ∧ (s.chanOwner ↑n = none) ∧ let st : TState := ((s.chan ↑n).st); let cfg : ChanCfg := (s.chanCfg ↑n);
      let src : Nat := (s.addr48 (Reg.TENDER_CH_SRC_LO ↑n)); let dst : Nat := (s.addr48 (Reg.TENDER_CH_DST_LO ↑n)); let count : Nat := (BitVec.toNat
      (s.reg (Reg.TENDER_CH_COUNT ↑n))); (st = TState.idle ∨ st = TState.halted) ∧ cfg.ok (↑n) src dst count false = true :=
  ⟨(tenR (tch .idle)), 2, by decide +kernel, by decide +kernel, (by left; decide +kernel), by decide +kernel⟩
theorem witness_TenderCommandsFollowTheStateTable_3 :
    ∃ (s : State) (n : Fin 32), (s.awake = true) ∧ (s.chanOwner ↑n = none) ∧ let st : TState := ((s.chan ↑n).st); (st ≠ TState.idle) ∧ st ≠
      TState.halted :=
  ⟨(tenS (tch .running)), 2, by decide +kernel, by decide +kernel, by decide +kernel⟩
theorem witness_TenderCommandsFollowTheStateTable_4 :
    ∃ (s : State) (n : Fin 32), (s.awake = true) ∧ (s.chanOwner ↑n = none) ∧ let st : TState := ((s.chan ↑n).st); st = TState.armed :=
  ⟨(tenS (tch .armed)), 2, by decide +kernel, by decide +kernel, by decide +kernel⟩
theorem witness_TenderCommandsFollowTheStateTable_5 :
    ∃ (s : State) (n : Fin 32), (s.awake = true) ∧ (s.chanOwner ↑n = none) ∧ let st : TState := ((s.chan ↑n).st); st = TState.running :=
  ⟨(tenS (tch .running)), 2, by decide +kernel, by decide +kernel, by decide +kernel⟩
theorem witness_TenderCommandsFollowTheStateTable_6 :
    ∃ (s : State) (n : Fin 32), (s.awake = true) ∧ (s.chanOwner ↑n = none) ∧ let st : TState := ((s.chan ↑n).st); (st ≠ TState.armed) ∧ st ≠
      TState.running :=
  ⟨(tenS (tch .idle)), 2, by decide +kernel, by decide +kernel, by decide +kernel⟩
theorem witness_TenderCommandsFollowTheStateTable_7 :
    ∃ (s : State) (n : Fin 32), (s.awake = true) ∧ (s.chanOwner ↑n = none) ∧ let st : TState := ((s.chan ↑n).st); st = TState.paused :=
  ⟨(tenS (tch .paused)), 2, by decide +kernel, by decide +kernel, by decide +kernel⟩
theorem witness_TenderCommandsFollowTheStateTable_8 :
    ∃ (s : State) (n : Fin 32), (s.awake = true) ∧ (s.chanOwner ↑n = none) ∧ let st : TState := ((s.chan ↑n).st); st = TState.halted :=
  ⟨(tenS (tch .halted)), 2, by decide +kernel, by decide +kernel, by decide +kernel⟩
theorem witness_TenderCommandsFollowTheStateTable_9 :
    ∃ (s : State) (n : Fin 32), (s.awake = true) ∧ (s.chanOwner ↑n = none) ∧ let st : TState := ((s.chan ↑n).st); (st ≠ TState.paused) ∧ st ≠
      TState.halted :=
  ⟨(tenS (tch .armed)), 2, by decide +kernel, by decide +kernel, by decide +kernel⟩
theorem witness_TenderCommandsFollowTheStateTable_10 :
    ∃ (s : State) (n : Fin 32), (s.awake = true) ∧ (s.chanOwner ↑n = none) ∧ let st : TState := ((s.chan ↑n).st); (st = TState.idle ∨ st =
      TState.aborting) :=
  ⟨(tenS (tch .idle)), 2, by decide +kernel, by decide +kernel, (by left; decide +kernel)⟩
theorem witness_TenderCommandsFollowTheStateTable_11 :
    ∃ (s : State) (n : Fin 32), (s.awake = true) ∧ (s.chanOwner ↑n = none) ∧ let st : TState := ((s.chan ↑n).st); (st = TState.armed ∨ st =
      TState.paused ∨ st = TState.halted) :=
  ⟨(tenS (tch .armed)), 2, by decide +kernel, by decide +kernel, (by left; decide +kernel)⟩
theorem witness_TenderCommandsFollowTheStateTable_12 :
    ∃ (s : State) (n : Fin 32), (s.awake = true) ∧ (s.chanOwner ↑n = none) ∧ let st : TState := ((s.chan ↑n).st); (st = TState.running ∨ st =
      TState.pausing ∨ st = TState.halting) :=
  ⟨(tenS (tch .running)), 2, by decide +kernel, by decide +kernel, (by left; decide +kernel)⟩
theorem witness_TenderCommandsFollowTheStateTable_13 :
    ∃ (s : State) (n : Fin 32) (q : Fin 4), (s.awake = true) ∧ s.chanOwner ↑n = some q :=
  ⟨heldT, 2, 1, by decide +kernel⟩
theorem witness_TenderCommandsFollowTheStateTable_14 :
    ∃ (s : State) (n : Fin 32), (s.awake = true) ∧ ((s.chan ↑n).lines = []) ∧ ((s.chan ↑n).st = TState.halting) ∧ (s.chan ↑n).tag = none :=
  ⟨(tenS (tch .halting)), 2, by decide +kernel⟩
theorem witness_TenderCommandsFollowTheStateTable_15 :
    ∃ (s : State) (n : Fin 32), (s.awake = true) ∧ ((s.chan ↑n).lines = []) ∧ (s.chan ↑n).st = TState.pausing :=
  ⟨(tenS (tch .pausing)), 2, by decide +kernel⟩
theorem witness_TenderCommandsFollowTheStateTable_16 :
    ∃ (s : State) (n : Fin 32), (s.awake = true) ∧ ((s.chan ↑n).lines = []) ∧ (s.chan ↑n).st = TState.aborting :=
  ⟨(tenS (tch .aborting)), 2, by decide +kernel⟩
theorem witness_TenderCommandsFollowTheStateTable_17 :
    ∃ (s : State) (n : Fin 32), (s.awake = true) ∧ (s.chan ↑n).lines ≠ [] :=
  ⟨(tLn .halting (tl0 none)), 2, by decide +kernel⟩
theorem witness_TenderTriggersAndTransfers_1 :
    ∃ (s : State) (t : Fin 8), (s.awake = true) ∧ let period : Nat := (fld (s.reg (Reg.TENDER_TIMER_PERIOD ↑t)) 19 0); let due : Nat := (nextFiring
      period (fld (s.reg (Reg.TENDER_TIMER_CTRL ↑t)) 20 1) (s.timers.getD (↑t) 0)); (flag (s.reg (Reg.TENDER_TIMER_CTRL ↑t)) 0 = true) ∧ (period ≠ 0)
      ∧ due ≤ s.time.now :=
  ⟨(timS 1), 3, by decide +kernel, by decide +kernel⟩
theorem witness_TenderTriggersAndTransfers_2 :
    ∃ (s : State) (t : Fin 8), (s.awake = true) ∧ let period : Nat := (fld (s.reg (Reg.TENDER_TIMER_PERIOD ↑t)) 19 0); let due : Nat := (nextFiring
      period (fld (s.reg (Reg.TENDER_TIMER_CTRL ↑t)) 20 1) (s.timers.getD (↑t) 0)); (flag (s.reg (Reg.TENDER_TIMER_CTRL ↑t)) 0 = false ∨ s.time.now <
      due) :=
  ⟨(timS 0), 3, by decide +kernel, (by left; decide +kernel)⟩
theorem witness_TenderTriggersAndTransfers_3 :
    ∃ (s : State), s.awake = true :=
  ⟨(tenS (tch .armed)), by decide +kernel⟩
theorem witness_TenderTriggersAndTransfers_4 :
    ∃ (s : State) (m : Fin 32), (s.awake = true) ∧ (s.chan ↑m).pulses = 0 :=
  ⟨s0, 31, by decide +kernel⟩
theorem witness_TenderTriggersAndTransfers_5 :
    ∃ (s : State) (m : Fin 32), (s.awake = true) ∧ (s.chan ↑m).pulses ≠ 0 :=
  ⟨(tenS { tch .idle with pulses := 1 }), 2, by decide +kernel⟩
theorem witness_TenderTriggersAndTransfers_6 :
    ∃ (s : State) (n : Nat), (s.chan n).st = TState.armed :=
  ⟨(tenS (tch .armed)), 2, by decide +kernel⟩
theorem witness_TenderTriggersAndTransfers_7 :
    ∃ (s : State) (n : Nat), ((s.chan n).st = TState.running ∨ (s.chan n).st = TState.pausing ∨ (s.chan n).st = TState.paused) ∧ (s.chan n).trig =
      false :=
  ⟨(tenS (tch .running)), 2, (by left; decide +kernel), by decide +kernel⟩
theorem witness_TenderTriggersAndTransfers_8 :
    ∃ (s : State) (n : Nat), ((s.chan n).st = TState.running ∨ (s.chan n).st = TState.pausing ∨ (s.chan n).st = TState.paused) ∧ (s.chan n).trig =
      true :=
  ⟨(tenS { tch .running with trig := true }), 2, (by left; decide +kernel), by decide +kernel⟩
theorem witness_TenderTriggersAndTransfers_9 :
    ∃ (s : State) (n : Nat), (s.chan n).st = TState.idle ∨ (s.chan n).st = TState.halted :=
  ⟨(tenS (tch .idle)), 2, (by left; decide +kernel)⟩
theorem witness_TenderTriggersAndTransfers_10 :
    ∃ (s : State) (n : Fin 32) (off : Nat), (s.awake = true) ∧ List.find? (fun (l : TLine) => decide (l.off = off)) (s.chan ↑n).lines = none :=
  ⟨s0, 2, 0, by decide +kernel⟩
theorem witness_TenderTriggersAndTransfers_11 :
    ∃ (s : State) (n : Fin 32) (off : Nat), (s.awake = true) ∧ ∃ (l : TLine), (List.find? (fun (l : TLine) => decide (l.off = off)) (s.chan ↑n).lines
      = some l) ∧ ((s.chan ↑n).st.moving = true) ∧ (l.waiting = false) ∧ l.data = none :=
  ⟨(tLn .running (tl0 none)), 2, 0, by decide +kernel, (tl0 none), by decide +kernel⟩
theorem witness_TenderTriggersAndTransfers_12 :
    ∃ (s : State) (n : Fin 32) (off : Nat), (s.awake = true) ∧ ∃ (l : TLine), (List.find? (fun (l : TLine) => decide (l.off = off)) (s.chan ↑n).lines
      = some l) ∧ ((s.chan ↑n).st.moving = true) ∧ (l.waiting = false) ∧ ∃ (d : List Byte) (p : Bool), l.data = some (d, p) :=
  ⟨(tLn .running (tl0 (some (dd, false)))), 2, 0, by decide +kernel, (tl0 (some (dd, false))), by decide +kernel, by decide +kernel, by
    decide +kernel, dd, false, by decide +kernel⟩
theorem witness_TenderTriggersAndTransfers_13 :
    ∃ (s : State) (n : Fin 32) (off : Nat), (s.awake = true) ∧ ((s.chan ↑n).st.moving = true) ∧ ((s.chan ↑n).lines.any fun (l : TLine) => decide
      (l.off = off) && l.waiting) = true :=
  ⟨(tLn .running { tl0 none with waiting := true }), 2, 0, by decide +kernel⟩
theorem witness_TenderTriggersAndTransfers_14 :
    ∃ (s : State) (n : Fin 32), (s.awake = true) ∧ ((s.chan ↑n).st = TState.running) ∧ ((s.chan ↑n).lines = []) ∧ ((s.chan ↑n).count ≤ (s.chan
      ↑n).written) ∧ ((s.chanCfg ↑n).store = true → (s.chan ↑n).stored = true) ∧ (s.chan ↑n).tag = none :=
  ⟨(tenS { tch .running with written := 64 }), 2, by decide +kernel⟩
theorem witness_TenderTriggersAndTransfers_15 :
    ∃ (s : State) (n : Fin 32), (s.awake = true) ∧ (s.chan ↑n).lines ≠ [] :=
  ⟨(tLn .running (tl0 none)), 2, by decide +kernel⟩
theorem witness_OnnakMessagesAreJudgedAndApplied_1 :
    ∃ (s : State) (p : Nat) (frame : List Byte), s.onnakUp p = false ∨ (etherBody frame).1 ≠ 34997 :=
  ⟨s0, 0, [], (by left; decide +kernel)⟩
theorem witness_OnnakMessagesAreJudgedAndApplied_2 :
    ∃ (s : State) (p : Nat) (frame : List Byte) (fcs : Bool), (s.onnakUp p = true) ∧ ((etherBody frame).1 = 34997) ∧ fcs = false :=
  ⟨upS, 0, (eth0 []), false, by decide +kernel⟩
theorem witness_OnnakMessagesAreJudgedAndApplied_3 :
    ∃ (s u : State) (p : Fin 4) (f : List Byte) (fcs : Bool), (s.awake = true) ∧ s.begin.arrival Msg.ACK (↑p) f fcs = (u, none) :=
  ⟨upS, (uN 2 (eth0 [])), 0, (eth0 []), true, by decide +kernel, (arrN _ _ (by decide +kernel))⟩
theorem witness_OnnakMessagesAreJudgedAndApplied_4 :
    ∃ (s u : State) (p : Fin 4) (f : List Byte) (fcs : Bool), (s.awake = true) ∧ s.begin.arrival Msg.STREAM_END (↑p) f fcs = (u, none) :=
  ⟨upS, (uN 0x22 (eth0 [])), 0, (eth0 []), true, by decide +kernel, (arrN _ _ (by decide +kernel))⟩
theorem witness_OnnakMessagesAreJudgedAndApplied_5 :
    ∃ (s u : State) (p : Fin 4) (f : List Byte) (fcs : Bool) (n : Nat) (h : OHdr) (b : List Byte), (s.awake = true) ∧ s.begin.arrival Msg.ACK (↑p) f
      fcs = (u, some (n, h, b)) :=
  ⟨upS, (uN 2 fA), 0, fA, true, (oN 2 fA).1, (oN 2 fA).2.1, (oN 2 fA).2.2, by decide +kernel, (arr _ _ (by decide +kernel))⟩
theorem witness_OnnakMessagesAreJudgedAndApplied_6 :
    ∃ (s u : State) (p : Fin 4) (f : List Byte) (fcs : Bool) (n : Nat) (h : OHdr) (b : List Byte), (s.awake = true) ∧ (s.begin.arrival Msg.BIND (↑p) f
      fcs = (u, some (n, h, b))) ∧ quayOf? h.dstQuay = none :=
  ⟨upS, (uN 3 (fBd 9)), 0, (fBd 9), true, (oN 3 (fBd 9)).1, (oN 3 (fBd 9)).2.1, (oN 3 (fBd 9)).2.2, by decide +kernel, (arr _ _ (by decide +kernel)),
    by decide +kernel⟩
theorem witness_OnnakMessagesAreJudgedAndApplied_7 :
    ∃ (s u : State) (p : Fin 4) (f : List Byte) (fcs : Bool) (n : Nat) (h : OHdr) (b : List Byte), (s.awake = true) ∧ (s.begin.arrival Msg.BIND (↑p) f
      fcs = (u, some (n, h, b))) ∧ ∃ (q : Fin 4), quayOf? h.dstQuay = some q :=
  ⟨upS, (uN 3 (fBd 1)), 0, (fBd 1), true, (oN 3 (fBd 1)).1, (oN 3 (fBd 1)).2.1, (oN 3 (fBd 1)).2.2, by decide +kernel, (arr _ _ (by decide +kernel)),
    1, by decide +kernel⟩
theorem witness_OnnakMessagesAreJudgedAndApplied_8 :
    ∃ (s u : State) (p : Fin 4) (f : List Byte) (fcs : Bool) (n : Nat) (h : OHdr) (b : List Byte), (s.awake = true) ∧ s.begin.arrival Msg.READ (↑p) f
      fcs = (u, some (n, h, b)) :=
  ⟨upS, (uN 0x10 (fR 0x10)), 0, (fR 0x10), true, (oN 0x10 (fR 0x10)).1, (oN 0x10 (fR 0x10)).2.1, (oN 0x10 (fR 0x10)).2.2, by decide +kernel, (arr _ _
    (by decide +kernel))⟩
theorem witness_OnnakMessagesAreJudgedAndApplied_9 :
    ∃ (s u : State) (p : Fin 4) (f : List Byte) (fcs : Bool) (n : Nat) (h : OHdr) (b : List Byte), (s.awake = true) ∧ s.begin.arrival Msg.WRITE (↑p) f
      fcs = (u, some (n, h, b)) :=
  ⟨upS, (uN 0x12 (fR 0x12)), 0, (fR 0x12), true, (oN 0x12 (fR 0x12)).1, (oN 0x12 (fR 0x12)).2.1, (oN 0x12 (fR 0x12)).2.2, by decide +kernel, (arr _ _
    (by decide +kernel))⟩
theorem witness_OnnakMessagesAreJudgedAndApplied_10 :
    ∃ (s u : State) (p : Fin 4) (f : List Byte) (fcs : Bool) (n : Nat) (h : OHdr) (b : List Byte), (s.awake = true) ∧ s.begin.arrival Msg.SIGNAL (↑p)
      f fcs = (u, some (n, h, b)) :=
  ⟨upS, (uN 0x14 (fR 0x14)), 0, (fR 0x14), true, (oN 0x14 (fR 0x14)).1, (oN 0x14 (fR 0x14)).2.1, (oN 0x14 (fR 0x14)).2.2, by decide +kernel, (arr _ _
    (by decide +kernel))⟩
theorem witness_OnnakMessagesAreJudgedAndApplied_11 :
    ∃ (s u : State) (p : Fin 4) (f : List Byte) (fcs : Bool) (n : Nat) (h : OHdr) (b : List Byte), (s.awake = true) ∧ s.begin.arrival Msg.STREAM (↑p)
      f fcs = (u, some (n, h, b)) :=
  ⟨upS, (uN 0x20 (fR 0x20)), 0, (fR 0x20), true, (oN 0x20 (fR 0x20)).1, (oN 0x20 (fR 0x20)).2.1, (oN 0x20 (fR 0x20)).2.2, by decide +kernel, (arr _ _
    (by decide +kernel))⟩
theorem witness_OnnakMessagesAreJudgedAndApplied_12 :
    ∃ (u : State) (q : Fin 4), u.quays[q].st = QState.empty ∨ u.quays[q].st = QState.faulted ∨ u.quays[q].st = QState.resetting :=
  ⟨s0, 1, (by left; decide +kernel)⟩
theorem witness_TagOperationsAndFirmwareWrites_8 :
    ∃ (s : State) (q : Fin 4) (c : Chart), (s.awake = true) ∧ (s.quays[q].st = QState.loaded ∨ s.quays[q].st = QState.docked) ∧ (s.quays[q].chart =
      some c) ∧ let first : Nat := (fld (s.reg (Reg.QUAY_SPAD_TAG_FIRST ↑q)) 15 0); let count : Nat := (fld (s.reg (Reg.QUAY_SPAD_TAG_COUNT ↑q)) 15
      0); s.quays[q].tagRangeOk c first count = true :=
  ⟨(sT3 0 16), 1, cBt, by decide +kernel, (by right; rfl), by decide +kernel, by decide +kernel⟩
theorem witness_EngineRequestsTranslateAndReply_7 :
    ∃ (s : State) (i : Nat) (o : Outstanding), (s.awake = true) ∧ (s.mem.outstanding[i]? = some o) ∧ (∀ (n : Nat), regionOf o.pa ≠ Region.onnak n) ∧
      (s.staleTide o.req.tag = false) ∧ (s.staleGen o.req.tag = false) ∧ o.req.kind = ReqKind.write :=
  ⟨(sO (ou .write)), 0, (ou .write), by decide +kernel, by decide +kernel, region0, by decide +kernel⟩
theorem witness_EngineRequestsTranslateAndReply_8 :
    ∃ (s : State) (i : Nat) (o : Outstanding), (s.awake = true) ∧ (s.mem.outstanding[i]? = some o) ∧ (∀ (n : Nat), regionOf o.pa ≠ Region.onnak n) ∧
      (s.staleTide o.req.tag = false) ∧ (s.staleGen o.req.tag = false) ∧ (o.req.kind = ReqKind.read) ∧ s.marked (o.pa / 64 * 64) = false :=
  ⟨(sO (ou .read)), 0, (ou .read), by decide +kernel, by decide +kernel, region0, by decide +kernel⟩
theorem witness_EngineRequestsTranslateAndReply_9 :
    ∃ (s : State), s.awake = true :=
  ⟨s0, by decide +kernel⟩
theorem witness_EngineRequestsTranslateAndReply_10 :
    ∃ (s : State), s.awake = true :=
  ⟨s0, by decide +kernel⟩
theorem witness_EngineRequestsTranslateAndReply_11 :
    ∃ (s : State) (p : Probe), (s.awake = true) ∧ (s.mem.probe = some p) ∧ ∃ (pa kind leaf : Nat), s.walk (quayAt p.quay) p.va p.write = WalkRes.ok pa
      kind leaf :=
  ⟨(probeS ⟨1, 0x1000, true⟩), ⟨1, 0x1000, true⟩, by decide +kernel, by decide +kernel, (groupBase 1), 0, leaf0, by decide +kernel⟩
theorem witness_EngineRequestsTranslateAndReply_12 :
    ∃ (s : State) (p : Probe), (s.awake = true) ∧ (s.mem.probe = some p) ∧ ∃ (k : Nat), s.walk (quayAt p.quay) p.va p.write = WalkRes.fault k :=
  ⟨(probeS ⟨1, 0x2000, true⟩), ⟨1, 0x2000, true⟩, by decide +kernel, by decide +kernel, 1, by decide +kernel⟩
theorem witness_EngineRequestsTranslateAndReply_13 :
    ∃ (s : State) (q : Fin 4), (s.awake = true) ∧ s.quays[q].chart = none :=
  ⟨s0, 3, by decide +kernel⟩
theorem witness_EngineRequestsTranslateAndReply_14 :
    ∃ (s : State) (q : Fin 4) (va : Nat) (c : Chart) (e level table : Nat) (ok : Bool), (s.awake = true) ∧ (s.quays[q].chart = some c) ∧ (s.walkFrom
      va 4 1 (s.addr48 (Reg.XLT_QUAY_ROOT_LO ↑q)) true = some (some (e, level, table, ok))) ∧ (c.cfg.piloted = false ∨ bitOf e 6 = false) :=
  ⟨(mapC c5), 1, 0x1000, c5, leaf0, 4, 0x303000, true, by decide +kernel, by decide +kernel, by decide +kernel, (by left; decide +kernel)⟩
theorem witness_EngineRequestsTranslateAndReply_15 :
    ∃ (s : State) (q : Fin 4) (va : Nat) (c : Chart) (e level table : Nat) (ok : Bool), (s.awake = true) ∧ (s.quays[q].chart = some c) ∧ (s.walkFrom
      va 4 1 (s.addr48 (Reg.XLT_QUAY_ROOT_LO ↑q)) true = some (some (e, level, table, ok))) ∧ (c.cfg.piloted = true) ∧ bitOf e 6 = true :=
  ⟨mapS, 1, 0x1000, (chartP 5 0), leaf0, 4, 0x303000, true, by decide +kernel⟩
theorem witness_HbmLinesReadWriteAndPatrol_1 :
    ∃ (s : State) (a : Nat), (s.awake = true) ∧ groupOf a = none :=
  ⟨s0, Addr.spad, by decide +kernel⟩
theorem witness_HbmLinesReadWriteAndPatrol_2 :
    ∃ (s : State) (a : Nat), (s.awake = true) ∧ ∃ (g : Nat), groupOf a = some g :=
  ⟨s0, 0x40, by decide +kernel, 0, by decide +kernel⟩
theorem witness_HbmLinesReadWriteAndPatrol_3 :
    ∃ (s : State) (a g : Nat) (data : List Byte), (s.awake = true) ∧ (groupOf a = some g) ∧ data.length = 64 :=
  ⟨s0, 0x40, 0, (List.replicate 64 7), by decide +kernel⟩
theorem witness_HbmLinesReadWriteAndPatrol_4 :
    ∃ (s : State) (ch : Fin 64), (s.awake = true) ∧ flag (s.reg (Reg.HBMC_STATUS (↑ch / 32))) 3 = false :=
  ⟨(s0.put (Reg.HBMC_STATUS 1) 0), 63, by decide +kernel⟩
theorem witness_HbmLinesReadWriteAndPatrol_5 :
    ∃ (s : State) (ch : Fin 64) (err : List (Nat × Nat)), (s.awake = true) ∧ (flag (s.reg (Reg.HBMC_STATUS (↑ch / 32))) 3 = true) ∧ ((s.begin.hbmLine
      (pchLine (↑ch) (Tab.get nat0 s.mem.patrolAt ↑ch)) err).2.2.2 = false) ∧ Tab.get nat0 s.mem.patrolAt ↑ch + 1 < pchLines :=
  ⟨s0, 63, [], by decide +kernel⟩
theorem witness_HbmLinesReadWriteAndPatrol_6 :
    ∃ (s : State) (m : Fin 4) (bank errs : Nat), (s.awake = true) ∧ (bank < sramBanks ↑m) ∧ errs ≤ 1 :=
  ⟨s0, 3, 0, 1, by decide +kernel⟩
theorem witness_HbmLinesReadWriteAndPatrol_7 :
    ∃ (s : State), (s.awake = true) ∧ (∀ (q : Fin 4), s.quays[q].st = QState.empty) :=
  ⟨s0, by decide +kernel⟩
theorem witness_HbmLinesReadWriteAndPatrol_8 :
    ∃ (s : State), (s.awake = true) ∧ (∃ (q : Fin 4), s.quays[q].st ≠ QState.empty) :=
  ⟨(inSt s0 3 .docked none), by decide +kernel⟩
theorem witness_FramesStartEndAndDeadlinesMark_8 :
    ∃ (s : State) (c : Fin 24) (q : Fin 4) (r : StreamRec) (f : StreamFrame) (T : Nat), (s.awake = true) ∧ (s.streamRec? ↑c = some (q, r)) ∧ ((s.ctx
      ↑c).cur = some f) ∧ (s.tickOf q f.frame = some T) ∧ s.time.now < T + r.eofUs * 1000 :=
  ⟨camNext, 0, 1, rr, sf0, 2000000000, by decide +kernel⟩
theorem witness_FsyncPulsesFollowTheTick_4 :
    ∃ (s : State) (i : Fin 8) (q : Fin 4) (b : List Byte) (t : OpenTick), (s.awake = true) ∧ (s.ownerOf Cls.FSYNC ↑i = some q) ∧ (s.quays[q].paramOf
      Cls.FSYNC ↑i = some b) ∧ (List.find? (fun (t : OpenTick) => decide (t.quay = ↑q)) s.cam.ticks.reverse = some t) ∧ let due : Nat := (t.tick +
      leAt b 8 4 * 1000); (due ≤ s.time.now) ∧ (s.cam.edges.any fun (g : Nat × Nat × Nat) => decide (g.1 = ↑i) && decide (g.2.1 = t.tick)) = false :=
  ⟨fs0, 0, 1, fsb, ⟨1,0,3#32⟩, by decide +kernel, by decide +kernel, by decide +kernel, by decide +kernel, by decide +kernel⟩
theorem witness_SensorBusesCarryFirmwareAndSamples_7 :
    ∃ (s : State) (p : Fin 4), (s.awake = true) ∧ (s.spiEnabled ↑p = true) ∧ (s.spi ↑p).held.length = 1 :=
  ⟨(sp [1]), 3, by decide +kernel⟩
theorem witness_ExposureTicketsQueueAndReport_5 :
    ∃ (s : State) (i q : Fin 4) (rate c x : Nat) (t : Ticket) (w : FrameNo) (tick : Nat) (rest : List (Nat × Nat × Ticket × FrameNo × Nat)), (s.awake
      = true) ∧ (s.i3cRate ↑i = some (q, rate)) ∧ (s.i3cIdle ↑i = true) ∧ s.eligible q (↑i) rate = (x, c, t, w, tick) :: rest :=
  ⟨i3u, 0, 1, 10, 0, 1065526000, tk, 3#32, 999990000, [], by decide +kernel⟩
theorem witness_OnnakMessagesAreJudgedAndApplied_13 :
    ∃ (s u : State) (p : Fin 4) (f : List Byte) (fcs : Bool) (n : Nat) (h : OHdr) (b : List Byte) (q : Fin 4), (s.awake = true) ∧ (quayOf? h.srcQuay =
      some q) ∧ (BitVec.toNat u.quays[q].tide = h.srcTide) ∧ let sought : FleetKind → FleetReq → Bool := (fun (k : FleetKind) (r : FleetReq) => decide
      (r.peer = n) && decide (r.tag = h.tag) && decide (r.quay = ↑q) && List.elem r.kind [k]); (s.begin.arrival Msg.BIND_ACK (↑p) f fcs = (u, some (n,
      h, b))) ∧ ∃ (r : FleetReq), List.find? (sought FleetKind.bind) u.onnak.reqs = some r :=
  ⟨(ansS .bind), (uA (ansS .bind) 4 (ansF 4)), 0, (ansF 4), true, (oA (ansS .bind) 4 (ansF 4)).1, (oA (ansS .bind) 4 (ansF 4)).2.1, (oA (ansS .bind) 4
    (ansF 4)).2.2, 1, by decide +kernel, by decide +kernel, by decide +kernel, (arrA _ _ _ (by decide +kernel)), (fReq .bind), by decide +kernel⟩
theorem witness_OnnakMessagesAreJudgedAndApplied_14 :
    ∃ (s u : State) (p : Fin 4) (f : List Byte) (fcs : Bool) (n : Nat) (h : OHdr) (b : List Byte) (q : Fin 4), (s.awake = true) ∧ (quayOf? h.srcQuay =
      some q) ∧ (BitVec.toNat u.quays[q].tide = h.srcTide) ∧ let sought : FleetKind → FleetReq → Bool := (fun (k : FleetKind) (r : FleetReq) => decide
      (r.peer = n) && decide (r.tag = h.tag) && decide (r.quay = ↑q) && List.elem r.kind [k]); (s.begin.arrival Msg.READ_RESP (↑p) f fcs = (u, some
      (n, h, b))) ∧ ∃ (r : FleetReq), List.find? (sought FleetKind.read) u.onnak.reqs = some r :=
  ⟨(ansS .read), (uA (ansS .read) 0x11 (ansF 0x11)), 0, (ansF 0x11), true, (oA (ansS .read) 0x11 (ansF 0x11)).1, (oA (ansS .read) 0x11 (ansF
    0x11)).2.1, (oA (ansS .read) 0x11 (ansF 0x11)).2.2, 1, by decide +kernel, by decide +kernel, by decide +kernel, (arrA _ _ _ (by decide +kernel)),
    (fReq .read), by decide +kernel⟩
theorem witness_OnnakMessagesAreJudgedAndApplied_15 :
    ∃ (s u : State) (p : Fin 4) (f : List Byte) (fcs : Bool) (n : Nat) (h : OHdr) (b : List Byte) (q : Fin 4), (s.awake = true) ∧ (quayOf? h.srcQuay =
      some q) ∧ (BitVec.toNat u.quays[q].tide = h.srcTide) ∧ let sought : FleetKind → FleetReq → Bool := (fun (k : FleetKind) (r : FleetReq) => decide
      (r.peer = n) && decide (r.tag = h.tag) && decide (r.quay = ↑q) && List.elem r.kind [k]); (s.begin.arrival Msg.WRITE_ACK (↑p) f fcs = (u, some
      (n, h, b))) ∧ ∃ (r : FleetReq), List.find? (sought FleetKind.write) u.onnak.reqs = some r :=
  ⟨(ansS .write), (uA (ansS .write) 0x13 (ansF 0x13)), 0, (ansF 0x13), true, (oA (ansS .write) 0x13 (ansF 0x13)).1, (oA (ansS .write) 0x13 (ansF
    0x13)).2.1, (oA (ansS .write) 0x13 (ansF 0x13)).2.2, 1, by decide +kernel, by decide +kernel, by decide +kernel, (arrA _ _ _ (by decide +kernel)),
    (fReq .write), by decide +kernel⟩
theorem witness_OnnakMessagesAreJudgedAndApplied_16 :
    ∃ (s u : State) (p : Fin 4) (f : List Byte) (fcs : Bool) (n : Nat) (h : OHdr) (b : List Byte) (q : Fin 4), (s.awake = true) ∧ (quayOf? h.srcQuay =
      some q) ∧ (BitVec.toNat u.quays[q].tide = h.srcTide) ∧ let sought : FleetKind → FleetReq → Bool := (fun (k : FleetKind) (r : FleetReq) => decide
      (r.peer = n) && decide (r.tag = h.tag) && decide (r.quay = ↑q) && List.elem r.kind [k]); (s.begin.arrival Msg.SIGNAL_ACK (↑p) f fcs = (u, some
      (n, h, b))) ∧ ∃ (r : FleetReq), List.find? (sought FleetKind.signal) u.onnak.reqs = some r :=
  ⟨(ansS .signal), (uA (ansS .signal) 0x15 (ansF 0x15)), 0, (ansF 0x15), true, (oA (ansS .signal) 0x15 (ansF 0x15)).1, (oA (ansS .signal) 0x15 (ansF
    0x15)).2.1, (oA (ansS .signal) 0x15 (ansF 0x15)).2.2, 1, by decide +kernel, by decide +kernel, by decide +kernel, (arrA _ _ _ (by
    decide +kernel)), (fReq .signal), by decide +kernel⟩
theorem witness_OnnakMessagesAreJudgedAndApplied_17 :
    ∃ (s u : State) (p : Fin 4) (f : List Byte) (fcs : Bool) (n : Nat) (h : OHdr) (b : List Byte) (q : Fin 4), (s.awake = true) ∧ (quayOf? h.srcQuay =
      some q) ∧ (BitVec.toNat u.quays[q].tide = h.srcTide) ∧ let sought : FleetKind → FleetReq → Bool := (fun (k : FleetKind) (r : FleetReq) => decide
      (r.peer = n) && decide (r.tag = h.tag) && decide (r.quay = ↑q) && List.elem r.kind [k]); (s.begin.arrival Msg.STREAM_DATA (↑p) f fcs = (u, some
      (n, h, b))) ∧ ∃ (r : FleetReq), List.find? (sought FleetKind.stream) u.onnak.reqs = some r :=
  ⟨(ansS .stream), (uA (ansS .stream) 0x21 (ansF 0x21)), 0, (ansF 0x21), true, (oA (ansS .stream) 0x21 (ansF 0x21)).1, (oA (ansS .stream) 0x21 (ansF
    0x21)).2.1, (oA (ansS .stream) 0x21 (ansF 0x21)).2.2, 1, by decide +kernel, by decide +kernel, by decide +kernel, (arrA _ _ _ (by
    decide +kernel)), (fReq .stream), by decide +kernel⟩
theorem witness_OnnakMessagesAreJudgedAndApplied_18 :
    ∃ (s u : State) (p : Fin 4) (f : List Byte) (fcs : Bool) (n : Nat) (h : OHdr) (b : List Byte) (q : Fin 4), (s.awake = true) ∧ (quayOf? h.srcQuay =
      some q) ∧ (BitVec.toNat u.quays[q].tide = h.srcTide) ∧ let sought : FleetKind → FleetReq → Bool := (fun (k : FleetKind) (r : FleetReq) => decide
      (r.peer = n) && decide (r.tag = h.tag) && decide (r.quay = ↑q) && List.elem r.kind [k]); (s.begin.arrival Msg.STREAM_END (↑p) f fcs = (u, some
      (n, h, b))) ∧ ∃ (r : FleetReq), List.find? (sought FleetKind.stream) u.onnak.reqs = some r :=
  ⟨(ansS .stream), (uA (ansS .stream) 0x22 (ansF 0x22)), 0, (ansF 0x22), true, (oA (ansS .stream) 0x22 (ansF 0x22)).1, (oA (ansS .stream) 0x22 (ansF
    0x22)).2.1, (oA (ansS .stream) 0x22 (ansF 0x22)).2.2, 1, by decide +kernel, by decide +kernel, by decide +kernel, (arrA _ _ _ (by
    decide +kernel)), (fReq .stream), by decide +kernel⟩
theorem witness_OnnakMessagesAreJudgedAndApplied_19 :
    ∃ (s u : State) (p : Fin 4) (f : List Byte) (fcs : Bool) (n : Nat) (h : OHdr) (b : List Byte) (q : Fin 4), (s.awake = true) ∧ (quayOf? h.srcQuay =
      some q) ∧ (BitVec.toNat u.quays[q].tide = h.srcTide) ∧ let sought : FleetKind → FleetReq → Bool := (fun (k : FleetKind) (r : FleetReq) => decide
      (r.peer = n) && decide (r.tag = h.tag) && decide (r.quay = ↑q) && List.elem r.kind [k]); (s.begin.arrival Msg.READ_RESP (↑p) f fcs = (u, some
      (n, h, b))) ∧ List.find? (sought FleetKind.read) u.onnak.reqs = none :=
  ⟨(ansS .bind), (uA (ansS .bind) 0x11 (ansF 0x11)), 0, (ansF 0x11), true, (oA (ansS .bind) 0x11 (ansF 0x11)).1, (oA (ansS .bind) 0x11 (ansF
    0x11)).2.1, (oA (ansS .bind) 0x11 (ansF 0x11)).2.2, 1, by decide +kernel, by decide +kernel, by decide +kernel, (arrA _ _ _ (by decide +kernel)),
    by decide +kernel⟩
theorem witness_OnnakMessagesAreJudgedAndApplied_20 :
    ∃ (s : State) (p : Fin 4) (f : List Byte), (s.awake = true) ∧ (s.onnakUp ↑p = true) ∧ let body : List Byte := ((etherBody f).2); let h : OHdr :=
      (OHdr.ofBytes (List.take 64 body)); let r : List Byte := (List.drop 64 body); let n : Nat := (leAt r 10 1); ((etherBody f).1 = 34997) ∧ (128 =
      body.length) ∧ (h.length = 64) ∧ (h.type = Msg.HELLO) ∧ (n < 8) ∧ (h.version = 16) ∧ leAt r 6 4 ≠ BitVec.toNat (s.reg Reg.ONNAK_FLEET_ID) :=
  ⟨upS, 0, (helloF 5), by decide +kernel, by decide +kernel, by decide +kernel⟩
theorem witness_OnnakMessagesAreJudgedAndApplied_21 :
    ∃ (s : State) (p : Fin 4) (f : List Byte), (s.awake = true) ∧ (s.onnakUp ↑p = true) ∧ let body : List Byte := ((etherBody f).2); let h : OHdr :=
      (OHdr.ofBytes (List.take 64 body)); let r : List Byte := (List.drop 64 body); let n : Nat := (leAt r 10 1); ((etherBody f).1 = 34997) ∧ (128 =
      body.length) ∧ (h.length = 64) ∧ (h.type = Msg.HELLO) ∧ (n < 8) ∧ (h.version = 16) ∧ (leAt r 6 4 = BitVec.toNat (s.reg Reg.ONNAK_FLEET_ID)) ∧
      (List.take 6 f ≠ s.begin.helloMac) ∧ n ≠ s.begin.nodeId :=
  ⟨upS, 0, (helloF 0), by decide +kernel, by decide +kernel, by decide +kernel⟩
theorem witness_OnnakMessagesAreJudgedAndApplied_22 :
    ∃ (s : State) (p : Fin 5) (f : List Byte), (s.awake = true) ∧ (↑p < 4) ∧ ((s.port ↑p).up = true) ∧ ((etherBody f).1 ≠ 34997) ∧ (etherBody f).1 ≠
      35063 :=
  ⟨linkS, 0, [], by decide +kernel⟩
theorem witness_OnnakMessagesAreJudgedAndApplied_23 :
    ∃ (s : State) (p : Fin 5), (s.awake = true) ∧ (↑p < 4) ∧ (s.port ↑p).up = false :=
  ⟨s1, 3, by decide +kernel⟩
theorem witness_OnnakMessagesAreJudgedAndApplied_24 :
    ∃ (s : State) (p : Fin 5) (f : List Byte), (s.awake = true) ∧ (p = 4) ∧ (s.eth.up = true) ∧ (etherBody f).1 = 34997 :=
  ⟨ethUp, 4, (eth0 []), by decide +kernel⟩
theorem witness_OnnakTimersAndLinks_1 :
    ∃ (s : State), (s.awake = true) ∧ (flag (s.reg Reg.ONNAK_CTRL) 0 = true) ∧ s.onnak.helloAt + 10000000 ≤ s.time.now :=
  ⟨upS, by decide +kernel⟩
theorem witness_OnnakTimersAndLinks_2 :
    ∃ (s : State), (s.awake = true) ∧ (flag (s.reg Reg.ONNAK_CTRL) 0 = false ∨ s.time.now < s.onnak.helloAt + 10000000) :=
  ⟨s1, by decide +kernel⟩
theorem witness_OnnakTimersAndLinks_3 :
    ∃ (s : State) (n : Fin 8) (p : Nat), (s.awake = true) ∧ ((s.peer ↑n).st = PeerSt.up) ∧ (s.lanePort (↑n) 0 = some p) ∧ (s.peer ↑n).lastTx + 20000 ≤
      s.time.now :=
  ⟨upS, 3, 0, by decide +kernel⟩
theorem witness_OnnakTimersAndLinks_4 :
    ∃ (s : State) (n : Fin 8), (s.awake = true) ∧ ((s.peer ↑n).st = PeerSt.up) ∧ s.time.now < (s.peer ↑n).lastTx + 20000 :=
  ⟨(early upS), 3, by decide +kernel⟩
theorem witness_OnnakTimersAndLinks_5 :
    ∃ (s : State) (n : Fin 8) (p : Nat), (s.awake = true) ∧ ((s.peer ↑n).st = PeerSt.up) ∧ ∃ (e : Nat), ((s.peer ↑n).ackDue = [(0, e)]) ∧ (s.lanePort
      (↑n) 1 = some p) ∧ e + 2000 ≤ s.time.now :=
  ⟨dueS, 3, 0, by decide +kernel, by decide +kernel, 5, by decide +kernel⟩
theorem witness_OnnakTimersAndLinks_6 :
    ∃ (s : State) (n : Fin 8), (s.awake = true) ∧ ((s.peer ↑n).st = PeerSt.up) ∧ (∀ e ∈ (s.peer ↑n).ackDue, s.time.now < e.2 + 2000) :=
  ⟨(early dueS), 3, by decide +kernel⟩
theorem witness_OnnakTimersAndLinks_7 :
    ∃ (s : State) (n : Fin 8) (l : Fin 6), (s.awake = true) ∧ let t : LaneTx := ((s.peer ↑n).tx.getD (↑l) LaneTx.idle); let rto : Nat := (fld (s.reg
      Reg.ONNAK_RTO) 9 0 * 1000); ((s.peer ↑n).st = PeerSt.up) ∧ (t.unacked ≠ []) ∧ t.since + rto ≤ s.time.now :=
  ⟨dueS, 3, 2, by decide +kernel, by decide +kernel⟩
theorem witness_OnnakTimersAndLinks_8 :
    ∃ (s : State) (n : Fin 8) (l : Fin 6), (s.awake = true) ∧ let t : LaneTx := ((s.peer ↑n).tx.getD (↑l) LaneTx.idle); let rto : Nat := (fld (s.reg
      Reg.ONNAK_RTO) 9 0 * 1000); ((s.peer ↑n).st ≠ PeerSt.up ∨ t.unacked = [] ∨ s.time.now < t.since + rto) :=
  ⟨(early dueS), 3, 2, by decide +kernel, by decide +kernel⟩
theorem witness_OnnakTimersAndLinks_9 :
    ∃ (s : State) (n : Fin 8), (s.awake = true) ∧ let limit : Nat := (fld (s.reg Reg.ONNAK_PEER_TIMEOUT) 16 0 * 1000); ((s.peer ↑n).st = PeerSt.up) ∧
      (s.peer ↑n).lastRx + limit ≤ s.time.now :=
  ⟨dueS, 3, by decide +kernel, by decide +kernel⟩
theorem witness_OnnakTimersAndLinks_10 :
    ∃ (s : State) (n : Fin 8), (s.awake = true) ∧ (s.peer ↑n).st ≠ PeerSt.up :=
  ⟨dueS, 2, by decide +kernel⟩
theorem witness_OnnakTimersAndLinks_11 :
    ∃ (s : State) (n : Fin 8), (s.awake = true) ∧ let limit : Nat := (fld (s.reg Reg.ONNAK_PEER_TIMEOUT) 16 0 * 1000); (s.time.now < (s.peer
      ↑n).lastRx + limit) ∧ (∀ t ∈ (s.peer ↑n).tx, t.unacked = []) :=
  ⟨(early upS), 3, by decide +kernel, by decide +kernel⟩
theorem witness_OnnakTimersAndLinks_12 :
    ∃ (s : State) (q : Fin 4) (n : Fin 8) (f : FleetE), (s.awake = true) ∧ (s.quays[q].fleetE ↑n = some f) ∧ (s.quays[q].st.active = true) ∧
      ((s.binding ↑q ↑n).st ≠ BindSt.bound) ∧ ((s.binding ↑q ↑n).sentAt + f.timeoutNs ≤ s.time.now) ∧ (s.peer ↑n).st = PeerSt.up :=
  ⟨(bindS upS), 1, 3, ⟨3, 0x10, 0, 100⟩, by decide +kernel⟩
theorem witness_OnnakTimersAndLinks_13 :
    ∃ (s : State) (q : Fin 4) (n : Fin 8) (f : FleetE), (s.awake = true) ∧ (s.quays[q].fleetE ↑n = some f) ∧ (s.quays[q].st.active = false ∨
      (s.binding ↑q ↑n).st = BindSt.bound ∨ s.time.now < (s.binding ↑q ↑n).sentAt + f.timeoutNs) :=
  ⟨(bindS (early upS)), 1, 3, ⟨3, 0x10, 0, 100⟩, by decide +kernel⟩
theorem witness_OnnakTimersAndLinks_14 :
    ∃ (s : State) (n : Fin 8) (tag : Nat) (r : FleetReq), (s.awake = true) ∧ (List.find? (fun (r : FleetReq) => decide (r.peer = ↑n) && decide (r.tag
      = tag)) s.onnak.reqs = some r) ∧ r.deadline ≤ s.time.now :=
  ⟨{ (ansS .read) with time := { s1.time with now := 3000000000 } }, 3, 9, (fReq .read), by decide +kernel⟩
theorem witness_OnnakTimersAndLinks_15 :
    ∃ (s : State) (n : Fin 8) (tag : Nat) (r : FleetReq), (s.awake = true) ∧ (List.find? (fun (r : FleetReq) => decide (r.peer = ↑n) && decide (r.tag
      = tag)) s.onnak.reqs = some r) ∧ s.time.now < r.deadline :=
  ⟨(ansS .read), 3, 9, (fReq .read), by decide +kernel⟩
theorem witness_OnnakTimersAndLinks_16 :
    ∃ (s : State) (i : Nat), (s.awake = true) ∧ ∃ (w : WritePack), (s.onnak.packs[i]? = some w) ∧ 64 ≤ s.begin.cyclesSince 0 w.since :=
  ⟨packS, 0, by decide +kernel, ⟨3, tg, 0, 0x1000, [1], 0, false⟩, by decide +kernel⟩
theorem witness_OnnakTimersAndLinks_17 :
    ∃ (s : State) (i : Nat), (s.awake = true) ∧ ∃ (w : WritePack), (s.onnak.packs[i]? = some w) ∧ s.begin.cyclesSince 0 w.since < 64 :=
  ⟨(early packS), 0, by decide +kernel, ⟨3, tg, 0, 0x1000, [1], 0, false⟩, by decide +kernel⟩
theorem witness_OnnakTimersAndLinks_18 :
    ∃ (s : State) (i : Nat), (s.awake = true) ∧ s.onnak.packs[i]? = none :=
  ⟨upS, 0, by decide +kernel⟩
theorem witness_OnnakTimersAndLinks_19 :
    ∃ (s : State) (p : Fin 4), (s.awake = true) ∧ ((s.port ↑p).up = false) ∧ (flag (s.reg (Reg.ONNAK_PORT_CTRL ↑p)) 0 = true) ∧ flag (s.reg
      Reg.PMC_SERVICE_ACTIVE) 4 = false :=
  ⟨portS, 0, by decide +kernel⟩
theorem witness_OnnakTimersAndLinks_20 :
    ∃ (s : State) (p : Fin 4), (s.awake = true) ∧ ((s.port ↑p).up = true ∨ flag (s.reg (Reg.ONNAK_PORT_CTRL ↑p)) 0 = false) :=
  ⟨linkS, 0, by decide +kernel⟩
theorem witness_OnnakTimersAndLinks_21 :
    ∃ (s : State) (p : Fin 4), (s.awake = true) ∧ ((s.port ↑p).up = true) ∧ (s.port ↑p).helloed = false :=
  ⟨linkS, 0, by decide +kernel⟩
theorem witness_OnnakTimersAndLinks_22 :
    ∃ (s : State) (p : Fin 4), (s.awake = true) ∧ (s.port ↑p).up = false :=
  ⟨s1, 3, by decide +kernel⟩
theorem witness_CoastguardDecidesAndReleases_1 :
    ∃ (s : State), (s.awake = true) ∧ s.cg.signals = [] :=
  ⟨s0, by decide +kernel⟩
theorem witness_CoastguardDecidesAndReleases_2 :
    ∃ (s : State), (s.awake = true) ∧ ∃ (c : Nat) (n : FrameNo) (rest : List (Nat × FrameNo)), s.cg.signals = (c, n) :: rest :=
  ⟨(cgM (fun c => { c with signals := [(7, 3#32)] }) s0), by decide +kernel, 7, 3#32, [], by decide +kernel⟩
theorem witness_CoastguardDecidesAndReleases_3 :
    ∃ (s : State), (s.awake = true) ∧ s.quays[0].chart = none :=
  ⟨s0, by decide +kernel⟩
theorem witness_CoastguardDecidesAndReleases_4 :
    ∃ (s : State), (s.awake = true) ∧ ∃ (c : Chart), s.quays[0].chart = some c :=
  ⟨q0S, by decide +kernel, ageC, by decide +kernel⟩
theorem witness_CoastguardDecidesAndReleases_5 :
    ∃ (s : State) (i limit v : Nat), (s.cg.ages.getD i none = some v) ∧ v + 1 ≤ limit / 10 :=
  ⟨(cgM (fun c => { c with ages := [some 9] }) q0S), 0, 100, 9, by decide +kernel⟩
theorem witness_CoastguardDecidesAndReleases_6 :
    ∃ (s : State) (i limit v : Nat), (s.cg.ages.getD i none = some v) ∧ (limit / 10 < v + 1) ∧ i ∉ s.cg.overAge :=
  ⟨(cgM (fun c => { c with ages := [some 10] }) q0S), 0, 100, 10, by decide +kernel⟩
theorem witness_CoastguardDecidesAndReleases_7 :
    ∃ (s : State) (c : Chart) (p : MirrorPub) (rest : List MirrorPub), (s.awake = true) ∧ (s.cg.mirror = p :: rest) ∧ (s.quays[0].chart = some c) ∧
      let u : State := (s.begin.checkPoint c p rest); (u.pointClean p = true) ∧ (u.cg.safe = true) ∧ u.cg.selfFault = false :=
  ⟨(mpS 0), ageC, mp0, [], by decide +kernel, by decide +kernel, by decide +kernel, by decide +kernel⟩
theorem witness_CoastguardDecidesAndReleases_8 :
    ∃ (s : State) (c : Chart) (p : MirrorPub) (rest : List MirrorPub), (s.awake = true) ∧ (s.cg.mirror = p :: rest) ∧ (s.quays[0].chart = some c) ∧
      let u : State := (s.begin.checkPoint c p rest); (u.pointClean p = false ∨ u.cg.safe = false ∨ u.cg.selfFault = true) :=
  ⟨(mpS 3), ageC, mp0, [], by decide +kernel, by decide +kernel, by decide +kernel, by decide +kernel⟩
theorem witness_CoastguardDecidesAndReleases_9 :
    ∃ (s : State), (s.awake = true) ∧ let due : Nat := (s.cg.noticeAt + fld (s.reg Reg.CG_NOTICE_PERIOD) 16 0 * 1000); (s.cg.safe = true) ∧ due ≤
      s.time.now :=
  ⟨s1, by decide +kernel, by decide +kernel⟩
theorem witness_CoastguardDecidesAndReleases_10 :
    ∃ (s : State), (s.awake = true) ∧ let due : Nat := (s.cg.noticeAt + fld (s.reg Reg.CG_NOTICE_PERIOD) 16 0 * 1000); (s.cg.safe = false ∨ s.time.now
      < due) :=
  ⟨s0, by decide +kernel, by decide +kernel⟩
theorem witness_CoastguardDecidesAndReleases_11 :
    ∃ (s : State) (v : Word), (s.awake = true) ∧ (flag v 0 = true) ∧ s.releaseBarred = true :=
  ⟨s0, 1, by decide +kernel⟩
theorem witness_CoastguardDecidesAndReleases_12 :
    ∃ (s : State) (v : Word), (s.awake = true) ∧ (flag v 0 = true) ∧ s.releaseBarred = false :=
  ⟨q0S, 1, by decide +kernel⟩
theorem witness_CoastguardDecidesAndReleases_13 :
    ∃ (s : State) (v : Word), (s.awake = true) ∧ flag v 0 = true :=
  ⟨s0, 1, by decide +kernel⟩
theorem witness_CoastguardDecidesAndReleases_14 :
    ∃ (s : State), s.awake = true :=
  ⟨s0, by decide +kernel⟩
theorem witness_CoastguardDecidesAndReleases_15 :
    ∃ (s : State) (ini : Initiator), (s.awake = true) ∧ ini ≠ Initiator.cg :=
  ⟨s0, .app, by decide +kernel⟩
theorem witness_CoastguardDecidesAndReleases_16 :
    ∃ (s : State), (s.awake = true) ∧ (s.cg.selfFault = false) ∧ let due : Nat := (s.cg.kickedAt + fld (s.reg Reg.CG_WDT_PERIOD) 13 0 * 1000); (true ∈
      s.cg.pairs) ∧ due ≤ s.time.now :=
  ⟨(cgM (fun c => { c with pairs := [true] }) s1), by decide +kernel, by decide +kernel, by decide +kernel⟩
theorem witness_CoastguardDecidesAndReleases_17 :
    ∃ (s : State), (s.awake = true) ∧ (s.cg.selfFault = false) ∧ let due : Nat := (s.cg.kickedAt + fld (s.reg Reg.CG_WDT_PERIOD) 13 0 * 1000);
      s.time.now < due :=
  ⟨s0, by decide +kernel, by decide +kernel, by decide +kernel⟩
theorem witness_CoastguardDecidesAndReleases_18 :
    ∃ (s : State), (s.awake = true) ∧ (s.cg.selfFault = false) ∧ ∃ (k : SelfFault), k ≠ SelfFault.copies :=
  ⟨s0, by decide +kernel, by decide +kernel, .clock, by decide +kernel⟩
theorem witness_CoastguardDecidesAndReleases_19 :
    ∃ (s : State) (entry : Nat) (c : Chart), (s.awake = true) ∧ (s.quays[0].chart = some c) ∧ List.find? (fun (r : LhRun) => decide (r.entry = entry))
      s.cg.runs = none :=
  ⟨q0S, 0, ageC, by decide +kernel⟩
theorem witness_CoastguardDecidesAndReleases_20 :
    ∃ (s : State) (entry : Nat) (st : Status) (c : Chart), (s.awake = true) ∧ (s.quays[0].chart = some c) ∧ let instOf : LhRun → Nat × Nat := (fun (r
      : LhRun) => have g := c.engineAt (c.lights.getD r.entry { engine := 0, window := 0, input := 0, reference := 0, bound := 0 }).engine; (g.cls,
      g.inst)); ∃ (r : LhRun) (j : Nat), (List.find? (fun (r : LhRun) => decide (r.entry = entry)) s.cg.runs = some r) ∧ (List.find? (fun (x : LhRun)
      => decide (instOf x = instOf r)) s.cg.runs = some r) ∧ (st = St.POISON ∨ st = St.TIMEOUT) ∧ (lhSlot (instOf r).1 (instOf r).2 = some j) ∧ let u
      : State := ((have __src := s.begin; { __src with cg := have __src := s.cg; { __src with runs := s.cg.runs.erase r } }).verdict j r.frame 3);
      (u.lh j).fenced = false :=
  ⟨lhS, 0, St.POISON, ageC, by decide +kernel, by decide +kernel, lh0, 8, by decide +kernel, by decide +kernel, by decide +kernel, by decide +kernel,
    by decide +kernel⟩
theorem witness_SalvageDetectsDumpsAndReplays_1 :
    ∃ (s : State), s.awake = true :=
  ⟨s0, by decide +kernel⟩
theorem witness_SalvageDetectsDumpsAndReplays_2 :
    ∃ (s : State) (q : Fin 4) (sp : List (Nat × Nat)) (c : Chart), (s.awake = true) ∧ (s.quays[q].chart = some c) ∧ (c.cfg.noProgressUs ≠ 0) ∧
      List.filter (fun (w : WaitRec) => decide (w.kind ≠ 4)) (s.begin.waits q sp) = [] :=
  ⟨(quay1 .running npC []), 1, [], npC, by decide +kernel⟩
theorem witness_SalvageDetectsDumpsAndReplays_3 :
    ∃ (s : State) (q : Fin 4) (ini : Initiator), (s.awake = true) ∧ (ini = Initiator.cg ∨ ini = Initiator.mc) ∧ s.quays[q].st.active = true :=
  ⟨(quay1 .running c5 []), 1, .cg, by decide +kernel⟩
theorem witness_SalvageDetectsDumpsAndReplays_4 :
    ∃ (s : State) (q : Fin 4) (ini : Initiator), (s.awake = true) ∧ (ini = Initiator.cg ∨ ini = Initiator.mc) ∧ (s.quays[q].st.active = true) ∧
      s.salv[q].dump = none :=
  ⟨(quay1 .running c5 []), 1, .cg, by decide +kernel⟩
theorem witness_SalvageDetectsDumpsAndReplays_5 :
    ∃ (s : State) (q : Fin 4) (ini : Initiator), (s.awake = true) ∧ (ini = Initiator.cg ∨ ini = Initiator.mc) ∧ s.quays[q].st.active = false :=
  ⟨s0, 1, .mc, by decide +kernel⟩
theorem witness_SalvageDetectsDumpsAndReplays_6 :
    ∃ (s : State) (ini : Initiator), (s.awake = true) ∧ (ini ≠ Initiator.cg) ∧ ini ≠ Initiator.mc :=
  ⟨s0, .app, by decide +kernel⟩
theorem witness_SalvageDetectsDumpsAndReplays_7 :
    ∃ (s : State) (q : Fin 4) (cls inst : Nat), (s.awake = true) ∧ List.elem (cls, inst) (s.begin.quayUnits q) = true :=
  ⟨s0, 1, 0x13, 1, by decide +kernel⟩
theorem witness_SalvageDetectsDumpsAndReplays_8 :
    ∃ (s : State) (q : Fin 4) (cls inst : Nat), (s.awake = true) ∧ List.elem (cls, inst) (s.begin.quayUnits q) = false :=
  ⟨s0, 1, 0x13, 2, by decide +kernel⟩
theorem witness_SalvageDetectsDumpsAndReplays_9 :
    ∃ (s : State) (q : Fin 4), (s.awake = true) ∧ s.salv[q].dump = none :=
  ⟨s0, 1, by decide +kernel⟩
theorem witness_SalvageDetectsDumpsAndReplays_10 :
    ∃ (s : State) (q : Fin 4) (d : Dump) (u : UnitId) (rest : List UnitId), (s.awake = true) ∧ (s.salv[q].dump = some d) ∧ (s.begin.ringTaken q d =
      false) ∧ (d.todo = u :: rest) ∧ d.overtaken = false :=
  ⟨dumpS, 1, dump0, (0x10, 0), [], by decide +kernel⟩
theorem witness_SalvageDetectsDumpsAndReplays_11 :
    ∃ (s : State), s.awake = true :=
  ⟨s0, by decide +kernel⟩
theorem witness_SalvageDetectsDumpsAndReplays_12 :
    ∃ (s : State) (q : Fin 4), (s.awake = true) ∧ (s.salv[q].phase = SalvPhase.replaying) ∧ (s.salv[q].replay = none) ∧ (s.quays[q].st.active = true)
      ∧ s.salv[q].suspects = [] :=
  ⟨(repS []), 1, by decide +kernel⟩
theorem witness_SalvageDetectsDumpsAndReplays_13 :
    ∃ (s : State) (q : Fin 4), (s.awake = true) ∧ (s.salv[q].phase = SalvPhase.replaying) ∧ (s.salv[q].replay = none) ∧ (s.quays[q].st.active = true)
      ∧ ∃ (r : Request) (rest : List Request) (i : Nat) (n : FrameNo), (s.salv[q].suspects = r :: rest) ∧ ((s.begin.requestStage q r.stage).bind fun
      (i : Nat) => Option.map (fun (f : FrameRec) => (i, f.num)) (s.quays[q].openFor i)) = some (i, n) :=
  ⟨(repS [rq1]), 1, by decide +kernel, by decide +kernel, by decide +kernel, by decide +kernel, rq1, [], 0, 3#32, by decide +kernel⟩
theorem witness_SalvageDetectsDumpsAndReplays_14 :
    ∃ (s : State) (q : Fin 4), (s.awake = true) ∧ (s.salv[q].replay = none ∨ s.time.now < s.salv[q].replayAt + 1000000) :=
  ⟨s0, 1, by decide +kernel⟩
theorem witness_SalvageDetectsDumpsAndReplays_15 :
    ∃ (s : State) (q : Fin 4), (s.awake = true) ∧ ∃ (r : Request) (i : Nat), (s.salv[q].replay = some r) ∧ (s.salv[q].replayAt + 1000000 ≤ s.time.now)
      ∧ let u : State := ((s.begin.replayEnded q false).culprit q r); u.requestStage q r.stage = some i :=
  ⟨(repT 0), 1, by decide +kernel, rq1, 0, by decide +kernel, by decide +kernel, by decide +kernel⟩
theorem witness_OnnakMessagesAreJudgedAndApplied_25 :
    ∃ (s : State) (p : Fin 4) (f : List Byte), (s.awake = true) ∧ (s.onnakUp ↑p = true) ∧ let body : List Byte := ((etherBody f).2); let h : OHdr :=
      (OHdr.ofBytes (List.take 64 body)); let r : List Byte := (List.drop 64 body); let n : Nat := (leAt r 10 1); ((etherBody f).1 = 34997) ∧ (128 =
      body.length) ∧ (h.length = 64) ∧ (h.type = Msg.HELLO) ∧ (n < 8) ∧ (h.version = 16) ∧ leAt r 6 4 ≠ BitVec.toNat (s.reg Reg.ONNAK_FLEET_ID) :=
  ⟨upS, 0, (helloF 5), by decide +kernel, by decide +kernel, by decide +kernel⟩
theorem witness_SalvageDetectsDumpsAndReplays_16 :
    ∃ (s : State) (q : Fin 4) (sp : List (Nat × Nat)) (c : Chart) (w : WaitRec), (s.awake = true) ∧ (s.quays[q].chart = some c) ∧ (c.cfg.noProgressUs
      ≠ 0) ∧ (List.filter (fun (w : WaitRec) => decide (w.kind ≠ 4)) (s.begin.waits q sp) = [w]) ∧ let due : Nat := (max s.salv[q].progressAt w.since
      + c.cfg.noProgressUs * 1000); (s.quays[q].st = QState.running ∨ s.quays[q].st = QState.docking) ∧ due ≤ s.time.now :=
  ⟨(npS 0), 1, [], npC, (np0 0), by decide +kernel, by decide +kernel, by decide +kernel, by decide +kernel, by decide +kernel⟩
theorem witness_SalvageDetectsDumpsAndReplays_17 :
    ∃ (s : State) (q : Fin 4) (sp : List (Nat × Nat)) (c : Chart) (w : WaitRec), (s.awake = true) ∧ (s.quays[q].chart = some c) ∧ (c.cfg.noProgressUs
      ≠ 0) ∧ (List.filter (fun (w : WaitRec) => decide (w.kind ≠ 4)) (s.begin.waits q sp) = [w]) ∧ let due : Nat := (max s.salv[q].progressAt w.since
      + c.cfg.noProgressUs * 1000); s.time.now < due :=
  ⟨(npS 1000000000), 1, [], npC, (np0 1000000000), by decide +kernel, by decide +kernel, by decide +kernel, by decide +kernel, by decide +kernel⟩
theorem witness_BootMailboxAndRecoveryPath_1 :
    ∃ (s : State) (rec sound : Bool), (s.coldHeld = true) ∧ (s.pmc.tripHold = false) ∧ (sound = true) ∧ rec = false :=
  ⟨held0, false, true, by decide +kernel⟩
theorem witness_BootMailboxAndRecoveryPath_2 :
    ∃ (s : State) (rec sound : Bool), (s.coldHeld = true) ∧ (s.pmc.tripHold = false) ∧ (sound = true) ∧ rec = true :=
  ⟨held0, true, true, by decide +kernel⟩
theorem witness_BootMailboxAndRecoveryPath_3 :
    ∃ (s : State) (sound : Bool), (s.coldHeld = true) ∧ (s.pmc.tripHold = false) ∧ sound = false :=
  ⟨held0, false, by decide +kernel⟩
theorem witness_BootMailboxAndRecoveryPath_4 :
    ∃ (s : State) (k : Fin 2), (s.awake = true) ∧ (s.customs.phase ≠ BootPhase.held) ∧ (s.customs.phase ≠ BootPhase.halted) ∧ s.customs.trained.getD
      (↑k) none = none :=
  ⟨(waitB [none, none]), 1, by decide +kernel⟩
theorem witness_BootMailboxAndRecoveryPath_5 :
    ∃ (s : State) (k : Fin 2), (s.awake = true) ∧ (s.customs.phase ≠ BootPhase.held) ∧ (s.customs.phase ≠ BootPhase.halted) ∧ (s.customs.trained.getD
      (↑k) none).isSome = true :=
  ⟨(waitB [some true, none]), 0, by decide +kernel⟩
theorem witness_BootMailboxAndRecoveryPath_6 :
    ∃ (s : State), s.awake = true :=
  ⟨s0, by decide +kernel⟩
theorem witness_BootMailboxAndRecoveryPath_7 :
    ∃ (s : State), (s.awake = true) ∧ (s.customs.phase = BootPhase.recovery) ∧ s.customs.lastAnnounce + 1000000000 ≤ s.time.now :=
  ⟨recS, by decide +kernel⟩
theorem witness_BootMailboxAndRecoveryPath_8 :
    ∃ (s : State), (s.awake = true) ∧ (s.customs.phase ≠ BootPhase.recovery ∨ s.time.now < s.customs.lastAnnounce + 1000000000) :=
  ⟨(early recS), by decide +kernel⟩
theorem witness_BootMailboxAndRecoveryPath_9 :
    ∃ (s : State) (off : Nat) (bs : List Byte), (s.awake = true) ∧ let next : Nat := (s.customs.received.length); (s.customs.phase =
      BootPhase.recovery) ∧ (bs.length ≤ 1024) ∧ off = next :=
  ⟨recS, 0, [1], by decide +kernel, by decide +kernel⟩
theorem witness_BootMailboxAndRecoveryPath_10 :
    ∃ (s : State) (off : Nat) (bs : List Byte), (s.awake = true) ∧ let next : Nat := (s.customs.received.length); (s.customs.phase =
      BootPhase.recovery) ∧ (bs.length ≤ 1024) ∧ off ≠ next :=
  ⟨recS, 7, [1], by decide +kernel, by decide +kernel⟩
theorem witness_BootMailboxAndRecoveryPath_11 :
    ∃ (s : State), (s.awake = true) ∧ s.customs.phase ≠ BootPhase.recovery :=
  ⟨s1, by decide +kernel⟩
theorem witness_BootMailboxAndRecoveryPath_12 :
    ∃ (s : State), (s.awake = true) ∧ (s.customs.phase = BootPhase.recovery) ∧ let code : Status := (s.begin.imageCheck s.customs.received); code ≠
      St.OK :=
  ⟨recS, by decide +kernel, by decide +kernel, by decide +kernel⟩
theorem witness_BootMailboxAndRecoveryPath_13 :
    ∃ (s : State), (s.awake = true) ∧ s.customs.mailbox.isSome = true :=
  ⟨mbS, by decide +kernel⟩
theorem witness_BootMailboxAndRecoveryPath_14 :
    ∃ (s : State), (s.awake = true) ∧ s.customs.mailbox = none :=
  ⟨s1, by decide +kernel⟩
theorem witness_BootMailboxAndRecoveryPath_15 :
    ∃ (s : State), (s.awake = true) ∧ (s.customs.mailbox = none) ∧ let u : State := (s.begin); (u.mbArg ≤ s.customs.imageVersion) ∧ (u.mbArg ≤ 64) ∧
      s.customs.fuses.rollback ≤ u.mbArg :=
  ⟨s1, by decide +kernel, by decide +kernel, by decide +kernel⟩
theorem witness_BootMailboxAndRecoveryPath_16 :
    ∃ (s : State), (s.awake = true) ∧ (s.customs.mailbox = none) ∧ let u : State := (s.begin); (s.customs.imageVersion < u.mbArg ∨ u.mbArg <
      s.customs.fuses.rollback) :=
  ⟨(s1.put Reg.CUSTOMS_MB_ARG 65), by decide +kernel, by decide +kernel, by decide +kernel⟩
theorem witness_BootMailboxAndRecoveryPath_17 :
    ∃ (s : State), (s.awake = true) ∧ (s.customs.mailbox = none) ∧ let u : State := (s.begin); (u.mbArg = 4) ∧ s.customs.fuses.sigRequired = false :=
  ⟨(s1.put Reg.CUSTOMS_MB_ARG 4), by decide +kernel, by decide +kernel, by decide +kernel⟩
theorem witness_BootMailboxAndRecoveryPath_18 :
    ∃ (s : State), (s.awake = true) ∧ (s.customs.mailbox = none) ∧ let u : State := (s.begin); (u.mbArg = 4) ∧ s.customs.fuses.sigRequired = true :=
  ⟨(cuS (fun c => { c with fuses := { c.fuses with sigRequired := true } }) (s1.put Reg.CUSTOMS_MB_ARG 4)), by decide +kernel, by decide +kernel, by
    decide +kernel⟩
theorem witness_BootMailboxAndRecoveryPath_19 :
    ∃ (s : State) (m : Mailbox), (s.awake = true) ∧ s.customs.mailbox = some m :=
  ⟨mbS, ⟨1, St.OK⟩, by decide +kernel⟩
theorem witness_BootMailboxAndRecoveryPath_20 :
    ∃ (s : State), s.awake = true :=
  ⟨s1, by decide +kernel⟩
theorem witness_ResetsClocksAndSupplies_1 :
    ∃ (ns : Nat), ns < 10000 :=
  ⟨9999, by decide +kernel⟩
theorem witness_ResetsClocksAndSupplies_2 :
    ∃ (ns : Nat), 10000 ≤ ns :=
  ⟨10000, by decide +kernel⟩
theorem witness_ResetsClocksAndSupplies_3 :
    ∃ (s : State) (n : Nat), (s.coldHeld = false) ∧ n < 25 :=
  ⟨s1, 24, by decide +kernel⟩
theorem witness_ResetsClocksAndSupplies_4 :
    ∃ (s : State) (n : Nat), (s.coldHeld = false) ∧ 25 ≤ n :=
  ⟨s1, 25, by decide +kernel⟩
theorem witness_ResetsClocksAndSupplies_5 :
    ∃ (s : State), (s.coldHeld = false) ∧ s.pmc.tripHold = true :=
  ⟨(pmS (fun p => { p with tripHold := true }) s1), by decide +kernel⟩
theorem witness_ResetsClocksAndSupplies_6 :
    ∃ (s : State), (s.coldHeld = false) ∧ s.pmc.tripHold = false :=
  ⟨s1, by decide +kernel⟩
theorem witness_ResetsClocksAndSupplies_7 :
    ∃ (s : State), s.awake = true :=
  ⟨s1, by decide +kernel⟩
theorem witness_ResetsClocksAndSupplies_8 :
    ∃ (s : State) (rails : List Nat), (s.coldHeld = false) ∧ (12 ∈ rails ∨ 13 ∈ rails) :=
  ⟨s1, [12], by decide +kernel⟩
theorem witness_ResetsClocksAndSupplies_9 :
    ∃ (s : State) (rails : List Nat), (s.coldHeld = false) ∧ (rails ≠ []) ∧ (∀ r ∈ rails, r ≤ 11) :=
  ⟨s1, [0, 11], by decide +kernel⟩
theorem witness_ResetsClocksAndSupplies_10 :
    ∃ (s : State) (rails : List Nat), (s.coldHeld = false) ∧ (rails ≠ []) ∧ (∀ r ∈ rails, r = 14 ∨ r = 15) :=
  ⟨s1, [14, 15], by decide +kernel⟩
theorem witness_ResetsClocksAndSupplies_11 :
    ∃ (s : State) (temps : List ℤ), (s.coldHeld = false) ∧ (s.pmc.tripHold = false) ∧ (s.pmc.emergency = false) ∧ (s.pmc.hotStacks = []) ∧ (∀ t ∈
      temps, t < 95) :=
  ⟨s1, [94, -40], by decide +kernel⟩
theorem witness_ResetsClocksAndSupplies_12 :
    ∃ (s : State), (s.awake = true) ∧ let due : Nat := ((s.pmc.epochAt / 1000000 + 1) * 1000000); s.time.now < due :=
  ⟨s0, by decide +kernel, by decide +kernel⟩
theorem witness_ResetsClocksAndSupplies_13 :
    ∃ (s : State), (s.awake = true) ∧ let due : Nat := ((s.pmc.epochAt / 1000000 + 1) * 1000000); due ≤ s.time.now :=
  ⟨s1, by decide +kernel, by decide +kernel⟩
theorem witness_ResetsClocksAndSupplies_14 :
    ∃ (s : State), (s.awake = true) ∧ s.time.now < s.pmc.epochAt + 2000 :=
  ⟨s0, by decide +kernel⟩
theorem witness_ResetsClocksAndSupplies_15 :
    ∃ (s : State), (s.awake = true) ∧ s.pmc.epochAt + 2000 ≤ s.time.now :=
  ⟨s1, by decide +kernel⟩
theorem witness_ResetsClocksAndSupplies_16 :
    ∃ (s : State) (r : Fin 6), (s.awake = true) ∧ s.pmc.voutTries.getD (↑r) 0 = 0 :=
  ⟨s1, 5, by decide +kernel⟩
theorem witness_ResetsClocksAndSupplies_17 :
    ∃ (s : State) (r : Fin 6), (s.awake = true) ∧ s.pmc.voutTries.getD (↑r) 0 ≠ 0 :=
  ⟨(pmS (fun p => { p with voutTries := [1, 1, 1, 1, 1, 1] }) s1), 5, by decide +kernel⟩
theorem witness_ResetsClocksAndSupplies_18 :
    ∃ (s : State), s.awake = true :=
  ⟨s1, by decide +kernel⟩
theorem witness_ResetsClocksAndSupplies_19 :
    ∃ (s : State) (x : Word), (s.awake = true) ∧ 12 ≤ fld x 4 1 :=
  ⟨s1, 0x18, by decide +kernel⟩
theorem witness_ResetsClocksAndSupplies_20 :
    ∃ (s : State) (x : Word), (s.awake = true) ∧ (fld x 4 1 < 12) ∧ flag x 0 = false :=
  ⟨s1, 0x16, by decide +kernel⟩
theorem witness_ResetsClocksAndSupplies_21 :
    ∃ (s : State) (x : Word), (s.awake = true) ∧ (fld x 4 1 < 12) ∧ flag x 0 = true :=
  ⟨s1, 0x17, by decide +kernel⟩
theorem witness_ResetsClocksAndSupplies_22 :
    ∃ (s : State) (a n : Nat), (s.awake = true) ∧ (0 < n) ∧ (s.begin.inSystemGroup a = true) ∧ s.begin.inSystemGroup (a + n - 1) = true :=
  ⟨s1, (groupBase 7), 4, by decide +kernel⟩
theorem witness_ResetsClocksAndSupplies_23 :
    ∃ (s : State) (a : Nat) (bs : List Byte), (s.awake = true) ∧ (bs ≠ []) ∧ (s.begin.inSystemGroup a = true) ∧ s.begin.inSystemGroup (a + bs.length -
      1) = true :=
  ⟨s1, (groupBase 7), [1], by decide +kernel⟩
theorem witness_ResetsClocksAndSupplies_24 :
    ∃ (s : State) (a : Nat), (s.awake = true) ∧ s.begin.inSystemGroup a = false :=
  ⟨s1, Addr.spad, by decide +kernel⟩
theorem witness_ManagementEthernetGatesAndRings_1 :
    ∃ (s : State) (v : Word), (s.awake = true) ∧ (flag v 0 = true) ∧ let cycle : Nat := (BitVec.toNat (s.reg Reg.ETH_MGMT_GCL_CYCLE)); let len : Nat
      := (fld (s.reg Reg.ETH_MGMT_GCL_LEN) 6 0); let ok : Prop := (1000 ≤ cycle ∧ cycle ≤ 200000000 ∧ 1 ≤ len ∧ len ≤ 64); ok :=
  ⟨gclR, 1, by decide +kernel, by decide +kernel, by decide +kernel⟩
theorem witness_ManagementEthernetGatesAndRings_2 :
    ∃ (s : State) (v : Word), (s.awake = true) ∧ (flag v 0 = true) ∧ let cycle : Nat := (BitVec.toNat (s.reg Reg.ETH_MGMT_GCL_CYCLE)); let len : Nat
      := (fld (s.reg Reg.ETH_MGMT_GCL_LEN) 6 0); let ok : Prop := (1000 ≤ cycle ∧ cycle ≤ 200000000 ∧ 1 ≤ len ∧ len ≤ 64); ¬ok :=
  ⟨s1, 1, by decide +kernel, by decide +kernel, by decide +kernel⟩
theorem witness_ManagementEthernetGatesAndRings_3 :
    ∃ (s : State) (v : Word), (s.awake = true) ∧ (flag v 0 = true) ∧ ∃ (ini : Initiator), ini ≠ Initiator.cg :=
  ⟨s1, 1, by decide +kernel, by decide +kernel, .app, by decide +kernel⟩
theorem witness_ManagementEthernetGatesAndRings_4 :
    ∃ (s : State) (g : Gcl), (s.awake = true) ∧ (s.eth.pending = some g) ∧ s.time.now < g.base :=
  ⟨(gclP 1000000001), (gl0 1000000001), by decide +kernel⟩
theorem witness_ManagementEthernetGatesAndRings_5 :
    ∃ (s : State) (g : Gcl), (s.awake = true) ∧ (s.eth.pending = some g) ∧ g.base ≤ s.time.now :=
  ⟨(gclP 0), (gl0 0), by decide +kernel⟩
theorem witness_ManagementEthernetGatesAndRings_6 :
    ∃ (s : State) (g : Gcl), (s.awake = true) ∧ (s.eth.active = some g) ∧ s.time.now < s.eth.entryEnds :=
  ⟨(gclA 1000000001), (gl0 0), by decide +kernel⟩
theorem witness_ManagementEthernetGatesAndRings_7 :
    ∃ (s : State) (g : Gcl), (s.awake = true) ∧ (s.eth.active = some g) ∧ s.eth.entryEnds ≤ s.time.now :=
  ⟨(gclA 0), (gl0 0), by decide +kernel⟩
theorem witness_ManagementEthernetGatesAndRings_8 :
    ∃ (s : State) (f : List Byte), (s.awake = true) ∧ (s.eth.up = true) ∧ (etherBody f).1 = 34997 :=
  ⟨ethUp, (eth0 []), by decide +kernel⟩
theorem witness_ManagementEthernetGatesAndRings_9 :
    ∃ (s : State) (f : List Byte), (s.awake = true) ∧ (s.eth.up = true) ∧ ((etherBody f).1 ≠ 34997) ∧ ((etherBody f).1 ≠ 35063) ∧ s.begin.ethRing
      Reg.ETH_MGMT_RX_BASE_HI = none :=
  ⟨ethUp, [], by decide +kernel⟩
theorem witness_ManagementEthernetGatesAndRings_10 :
    ∃ (s : State) (f : List Byte), (s.awake = true) ∧ (s.eth.up = true) ∧ ((etherBody f).1 ≠ 34997) ∧ ((etherBody f).1 ≠ 35063) ∧ fld (s.reg
      Reg.ETH_MGMT_RX_BUF_SIZE) 13 0 < f.length :=
  ⟨ethUp, (List.replicate 9217 0), by decide +kernel⟩
theorem witness_ManagementEthernetGatesAndRings_11 :
    ∃ (s : State), s.awake = true :=
  ⟨s1, by decide +kernel⟩
theorem witness_ManagementEthernetGatesAndRings_12 :
    ∃ (s : State), (s.awake = true) ∧ s.begin.txHead = none :=
  ⟨ethUp, by decide +kernel⟩
theorem witness_ManagementEthernetGatesAndRings_13 :
    ∃ (s : State), (s.awake = true) ∧ ∃ (a buf len cls : Nat), (s.begin.txHead = some (a, buf, len, cls)) ∧ (s.eth.up = true) ∧ (s.begin.gateOpen cls
      = true) ∧ (cls < 7) ∧ (60 ≤ len) ∧ len ≤ 9216 :=
  ⟨(txS 0 none), by decide +kernel, 0, 0x1000, 60, 0, by decide +kernel⟩
theorem witness_ManagementEthernetGatesAndRings_14 :
    ∃ (s : State), (s.awake = true) ∧ ∃ (a buf len cls : Nat), (s.begin.txHead = some (a, buf, len, cls)) ∧ s.begin.gateOpen cls = false :=
  ⟨(txS 0 (some (gl0 0))), by decide +kernel, 0, 0x1000, 60, 0, by decide +kernel⟩
theorem witness_CommandsThatSpareMemoryQuaysAndRegisters_1 :
    ∃ (c : Instr), c.sparesMemory = true :=
  ⟨(.tenderPause 5), by decide +kernel⟩
theorem witness_CommandsThatSpareMemoryQuaysAndRegisters_2 :
    ∃ (c : Instr), c = Instr.verify ∨ c = Instr.announce ∨ (∃ (u : Bool) (o : Nat) (b : List Byte), c = Instr.data u o b) ∨ (∃ (q : Fin 4), c =
      Instr.dumpRelease q) ∨ c = Instr.ticketResultPop ∨ c = Instr.cgWdtKick Initiator.cg :=
  ⟨.verify, Or.inl rfl⟩
theorem witness_CommandsThatSpareMemoryQuaysAndRegisters_3 :
    ∃ (s : State) (n : Fin 32) (c : Instr), (s.chanOwner ↑n = none) ∧ (c = Instr.tenderPause n ∨ c = Instr.tenderResume n) :=
  ⟨s0, 5, (.tenderPause 5), by decide +kernel⟩
theorem witness_BootMailboxAndRecoveryPath_21 :
    ∃ (s : State), (s.awake = true) ∧ (s.customs.phase = BootPhase.recovery) ∧ let code : Status := (s.begin.imageCheck s.customs.received); code =
      St.OK :=
  ⟨imgS, by decide +kernel, by decide +kernel, by decide +kernel⟩
theorem witness_OnnakMessagesAreJudgedAndApplied_26 :
    ∃ (s u : State) (p : Fin 4) (f : List Byte) (fcs : Bool), (s.awake = true) ∧ s.begin.arrival Msg.BIND (↑p) f fcs = (u, none) :=
  ⟨upS, (uN 3 (eth0 [])), 0, (eth0 []), true, by decide +kernel, (arrN _ _ (by decide +kernel))⟩
theorem witness_OnnakMessagesAreJudgedAndApplied_27 :
    ∃ (s u : State) (p : Fin 4) (f : List Byte) (fcs : Bool), (s.awake = true) ∧ s.begin.arrival Msg.BIND_ACK (↑p) f fcs = (u, none) :=
  ⟨upS, (uN 4 (eth0 [])), 0, (eth0 []), true, by decide +kernel, (arrN _ _ (by decide +kernel))⟩
theorem witness_OnnakMessagesAreJudgedAndApplied_28 :
    ∃ (s u : State) (p : Fin 4) (f : List Byte) (fcs : Bool), (s.awake = true) ∧ s.begin.arrival Msg.READ (↑p) f fcs = (u, none) :=
  ⟨upS, (uN 16 (eth0 [])), 0, (eth0 []), true, by decide +kernel, (arrN _ _ (by decide +kernel))⟩
theorem witness_OnnakMessagesAreJudgedAndApplied_29 :
    ∃ (s u : State) (p : Fin 4) (f : List Byte) (fcs : Bool), (s.awake = true) ∧ s.begin.arrival Msg.READ_RESP (↑p) f fcs = (u, none) :=
  ⟨upS, (uN 17 (eth0 [])), 0, (eth0 []), true, by decide +kernel, (arrN _ _ (by decide +kernel))⟩
theorem witness_OnnakMessagesAreJudgedAndApplied_30 :
    ∃ (s u : State) (p : Fin 4) (f : List Byte) (fcs : Bool), (s.awake = true) ∧ s.begin.arrival Msg.WRITE (↑p) f fcs = (u, none) :=
  ⟨upS, (uN 18 (eth0 [])), 0, (eth0 []), true, by decide +kernel, (arrN _ _ (by decide +kernel))⟩
theorem witness_OnnakMessagesAreJudgedAndApplied_31 :
    ∃ (s u : State) (p : Fin 4) (f : List Byte) (fcs : Bool), (s.awake = true) ∧ s.begin.arrival Msg.WRITE_ACK (↑p) f fcs = (u, none) :=
  ⟨upS, (uN 19 (eth0 [])), 0, (eth0 []), true, by decide +kernel, (arrN _ _ (by decide +kernel))⟩
theorem witness_OnnakMessagesAreJudgedAndApplied_32 :
    ∃ (s u : State) (p : Fin 4) (f : List Byte) (fcs : Bool), (s.awake = true) ∧ s.begin.arrival Msg.SIGNAL (↑p) f fcs = (u, none) :=
  ⟨upS, (uN 20 (eth0 [])), 0, (eth0 []), true, by decide +kernel, (arrN _ _ (by decide +kernel))⟩
theorem witness_OnnakMessagesAreJudgedAndApplied_33 :
    ∃ (s u : State) (p : Fin 4) (f : List Byte) (fcs : Bool), (s.awake = true) ∧ s.begin.arrival Msg.SIGNAL_ACK (↑p) f fcs = (u, none) :=
  ⟨upS, (uN 21 (eth0 [])), 0, (eth0 []), true, by decide +kernel, (arrN _ _ (by decide +kernel))⟩
theorem witness_OnnakMessagesAreJudgedAndApplied_34 :
    ∃ (s u : State) (p : Fin 4) (f : List Byte) (fcs : Bool), (s.awake = true) ∧ s.begin.arrival Msg.STREAM (↑p) f fcs = (u, none) :=
  ⟨upS, (uN 32 (eth0 [])), 0, (eth0 []), true, by decide +kernel, (arrN _ _ (by decide +kernel))⟩
theorem witness_OnnakMessagesAreJudgedAndApplied_35 :
    ∃ (s u : State) (p : Fin 4) (f : List Byte) (fcs : Bool), (s.awake = true) ∧ s.begin.arrival Msg.STREAM_DATA (↑p) f fcs = (u, none) :=
  ⟨upS, (uN 33 (eth0 [])), 0, (eth0 []), true, by decide +kernel, (arrN _ _ (by decide +kernel))⟩

end Sys2Proof.Tests
end

section
/-! Bus accesses (R10, R11): what a command that reads or writes a register answers, and an access that is not one aligned word. -/
namespace Sys2Proof.Machine

/-! What the bus commands answer. -/

theorem exec_registerWrite (s : State) (ini : Initiator) (a n : Nat) (v same : Word) (h : s.awake = true) :
    exec (.registerWrite ini a n v same) s = .next (s.after (s.begin.busWrite ini a n v same)) :=
  actBus_eq ini a _ s h

theorem exec_hiWriteCommit (s : State) (ini : Initiator) (a : Nat) (v : Word) (h : s.awake = true) :
    exec (.hiWriteCommit ini a v) s = .next (s.after (s.begin.busWrite ini a 4 v 0#32)) :=
  actBus_eq ini a _ s h

theorem exec_rcRead (s : State) (ini : Initiator) (a n : Nat) (same : Word) (h : s.awake = true) :
    exec (.rcRead ini a n same) s = .next (s.after (s.begin.busRead a n same)) :=
  actBus_eq ini a _ s h

theorem exec_loCaptureRead (s : State) (ini : Initiator) (a : Nat) (h : s.awake = true) :
    exec (.loCaptureRead ini a) s = .next (s.after (s.begin.busRead a 4 0#32)) :=
  actBus_eq ini a _ s h

/-! An access that is not one naturally aligned word (R10). -/

theorem State.busWrite_of_odd (s : State) (ini : Initiator) (a n : Nat) (v same : Word) (hb : blockOf a < 23) (h : n ≠ 4 ∨ a % 4 ≠ 0) :
    s.busWrite ini a n v same = (s.ignoredWrite a).answer St.OK := by
  rw [State.busWrite, if_neg (Nat.not_le.mpr hb), if_pos h]

theorem State.busRead_of_odd (s : State) (a n : Nat) (same : Word) (hb : blockOf a < 23) (h : n ≠ 4 ∨ a % 4 ≠ 0) :
    s.busRead a n same = (s.ignoredWrite a).answer St.OK := by
  rw [State.busRead, if_neg (Nat.not_le.mpr hb), if_pos h]

end Sys2Proof.Machine

open Sys2Proof Sys2Proof.Machine

/-- Settles O8: both kinds of access take the branch that counts an ignored write. -/
theorem oddAccessReadsZeroAndCounts : Obligations.OddAccessReadsZeroAndCounts := by
  intro s ini a n v same hs hb h t
  refine ⟨?_, ?_, fun ha => ⟨?_, ?_⟩⟩
  · rw [exec_registerWrite s ini a n v same hs, State.busWrite_of_odd _ ini a n v same hb h]
    rfl
  · rw [exec_rcRead s ini a n same hs, State.busRead_of_odd _ a n same hb h]
    rfl
  · rw [exec_loCaptureRead s ini a hs, State.busRead_of_odd _ a 4 _ hb (.inr ha)]
    rfl
  · rw [exec_hiWriteCommit s ini a v hs, State.busWrite_of_odd _ ini a 4 v _ hb (.inr ha)]
    rfl
end

section
/-! What raising a source, setting an event and raising a service code leave in the registers (R14, R518, R550). -/
namespace Sys2Proof.Machine

/-- A source has its pending bit in one of the first three TOP_MSI_PENDING registers (R518, R519). -/
theorem State.reg_raiseMsi_ne (s : State) (v r : Nat) (h : ∀ w < 3, r ≠ Reg.TOP_MSI_PENDING w) : (s.raiseMsi v).reg r = s.reg r := by
  unfold State.raiseMsi
  split_ifs with hv
  · rfl
  · rfl
  · exact State.reg_setReg_ne s _ _ r (h _ (by omega))

/-- No register of block 0, where TOP_MSI_PENDING stands, is an event register (R14). -/
theorem isEventReg_blockOf_ne_zero {a : Nat} (h : isEventReg a = true) : blockOf a ≠ 0 := by
  unfold isEventReg at h
  split at h
  · simp only [decide_eq_true_eq] at h
    obtain ⟨_, hb, _⟩ := h
    exact hb
  · cases h

/-- An address outside block 0 is no TOP_MSI_PENDING register. -/
theorem ne_topMsiPending_of_blockOf {a : Nat} (h : blockOf a ≠ 0) : ∀ w < 3, a ≠ Reg.TOP_MSI_PENDING w := by
  rintro w hw rfl
  unfold blockOf Reg.TOP_MSI_PENDING at h
  omega

/-- The collision counter is the one register at offset 8 of its block's window (R14). -/
theorem collideCount_ne (b : Nat) {r : Nat} (h : offOf r ≠ 8) : Reg.COLLIDE_COUNT b ≠ r := by
  rintro rfl
  unfold offOf Reg.COLLIDE_COUNT at h
  omega

theorem collideCount_ne_topMsiPending (b : Nat) : ∀ w < 3, Reg.COLLIDE_COUNT b ≠ Reg.TOP_MSI_PENDING w := by
  intro w hw
  refine collideCount_ne b ?_
  unfold offOf Reg.TOP_MSI_PENDING
  omega

/-- The bits set read as set: the MSI that an event may raise has its pending bit in block 0. -/
@[simp] theorem State.reg_setEvent_same (s : State) (a bits : Nat) : (s.setEvent a bits).reg a = s.reg a ||| w32 bits := by
  unfold State.setEvent
  dsimp only
  split_ifs with h
  · obtain ⟨_, _, he⟩ := h
    rw [State.reg_raiseMsi_ne _ _ _ (ne_topMsiPending_of_blockOf (isEventReg_blockOf_ne_zero he)), State.reg_setReg_same]
  · rw [State.reg_setReg_same]

theorem State.reg_setEvent_ne (s : State) (a bits r : Nat) (ha : r ≠ a) (h : ∀ w < 3, r ≠ Reg.TOP_MSI_PENDING w) :
    (s.setEvent a bits).reg r = s.reg r := by
  rcases s.setEvent_cases a bits with e | e
  · rw [e, State.reg_setReg_ne _ _ _ _ ha]
  · rw [e, State.reg_raiseMsi_ne _ _ _ h, State.reg_setReg_ne _ _ _ _ ha]

theorem State.reg_serviceLevel_ne (s : State) (was : Word) (r : Nat) (hr : r ≠ Reg.PMC_EVENT) (h : ∀ w < 3, r ≠ Reg.TOP_MSI_PENDING w) :
    (s.serviceLevel was).reg r = s.reg r := by
  rcases s.serviceLevel_cases was with e | ⟨o, e⟩
  · rw [e]
  · rw [e, State.reg_setEvent_ne _ _ _ _ hr h, State.reg_raiseMsi_ne _ _ _ h, State.emit_reg]

/-- A code is latched when it is raised, unless it names a condition (R550). -/
def latches (code : Nat) : Bool := !decide (code = 4 ∨ code = 5 ∨ code = 0x0A)

/-- PMC_SERVICE_LATCHED stands in block 20. -/
theorem serviceLatched_ne_topMsiPending : ∀ w < 3, Reg.PMC_SERVICE_LATCHED ≠ Reg.TOP_MSI_PENDING w :=
  ne_topMsiPending_of_blockOf (by decide)

theorem State.reg_service_latched (s : State) (code : Nat) :
    (s.service code).reg Reg.PMC_SERVICE_LATCHED =
      if latches code then s.reg Reg.PMC_SERVICE_LATCHED ||| w32 (2 ^ code) else s.reg Reg.PMC_SERVICE_LATCHED := by
  have hlast : Reg.PMC_SERVICE_LATCHED ≠ Reg.PMC_SERVICE_LAST := by decide
  have hactive : Reg.PMC_SERVICE_LATCHED ≠ Reg.PMC_SERVICE_ACTIVE := by decide
  unfold State.service
  rw [State.reg_serviceLevel_ne _ _ _ (by decide) serviceLatched_ne_topMsiPending, State.reg_put, if_neg hlast]
  by_cases h : code = 4 ∨ code = 5 ∨ code = 0x0A
  · simp [latches, h, State.reg_setReg_ne _ _ _ _ hactive]
  · simp [latches, h, State.reg_setReg_ne _ _ _ _ hactive]

theorem State.reg_service_collideCount (s : State) (code b : Nat) :
    (s.service code).reg (Reg.COLLIDE_COUNT b) = s.reg (Reg.COLLIDE_COUNT b) := by
  have hactive : Reg.COLLIDE_COUNT b ≠ Reg.PMC_SERVICE_ACTIVE := collideCount_ne b (by decide)
  unfold State.service
  rw [State.reg_serviceLevel_ne _ _ _ (collideCount_ne b (by decide)) (collideCount_ne_topMsiPending b), State.reg_put,
    if_neg (collideCount_ne b (by decide))]
  split_ifs
  · rw [State.reg_setReg_ne _ _ _ _ hactive]
  · rw [State.reg_setReg_ne _ _ _ _ (collideCount_ne b (by decide)), State.reg_setReg_ne _ _ _ _ hactive]

end Sys2Proof.Machine
end

section
/-! A write of 1 to a W1C flag that hardware sets in the same cycle (R16). -/
namespace Sys2Proof.Machine

theorem State.reg_collide (s : State) (a r : Nat) :
    (s.collide a).reg r = if r = Reg.COLLIDE_COUNT (blockOf a) then satInc (s.reg r) 1 else s.reg r := by
  rw [State.collide, State.reg_bump]
  split_ifs with h
  · rw [h]
  · rfl

/-- The collision counter is read-only (R14), so no W1C register is it. -/
theorem w1c_ne_collideCount {a : Nat} {r : RegRow} {i : Nat} (h : regRow a = some (r, i)) (hw : r.acc = .w1c) (b : Nat) :
    a ≠ Reg.COLLIDE_COUNT b := by
  rintro rfl
  have ho : offOf (Reg.COLLIDE_COUNT b) = 8 := by unfold offOf Reg.COLLIDE_COUNT; omega
  unfold regRow at h
  rw [ho] at h
  split at h
  · have hr := (Prod.mk.inj (Option.some.inj h)).1
    rw [← hr] at hw
    cases hw
  · cases h

/-- A register of the table stands in a block window. -/
theorem blockOf_lt_of_regRow {a : Nat} {x : RegRow × Nat} (h : regRow a = some x) : blockOf a < 23 := by
  unfold regRow at h
  split at h
  · assumption
  · cases h

/-- Who may write does not depend on the outputs and the reply of the last command. -/
theorem State.mayWrite_begin (s : State) (ini : Initiator) (a : Nat) (r : RegRow) (i : Nat) :
    s.begin.mayWrite ini a r i = s.mayWrite ini a r i := rfl

theorem State.busWrite_w1c (s : State) (ini : Initiator) (a : Nat) (v same : Word) (r : RegRow) (i : Nat) (ha : a % 4 = 0)
    (hr : regRow a = some (r, i)) (hw : r.acc = .w1c) (hne : a ≠ Reg.PMC_SERVICE_LATCHED) (hm : s.mayWrite ini a r i = true) :
    s.busWrite ini a 4 v same = s.writeW1c a (w32 r.mask) (v &&& w32 r.mask) same := by
  have hb := blockOf_lt_of_regRow hr
  unfold State.busWrite
  rw [if_neg (Nat.not_le.mpr hb), if_neg (by omega)]
  simp [hr, hm, hw, hne]

theorem word_mask_twice (v mask same : Word) : v &&& mask &&& same &&& mask = v &&& mask &&& same := by
  rw [BitVec.and_assoc, BitVec.and_comm same, ← BitVec.and_assoc, BitVec.and_assoc v, BitVec.and_self]

theorem word_or_and_right (x y : Word) : (x ||| y) &&& y = y := by
  ext j hj
  rw [BitVec.getElem_and, BitVec.getElem_or]
  cases y[j] <;> simp

theorem State.reg_writeW1c_same (s : State) (a : Nat) (mask v same : Word) (h : a ≠ Reg.COLLIDE_COUNT (blockOf a)) :
    (s.writeW1c a mask v same).reg a = (s.reg a &&& ~~~(v &&& ~~~(v &&& same &&& mask))) ||| (v &&& same &&& mask) := by
  unfold State.writeW1c
  dsimp only
  rw [State.answer_reg]
  split_ifs
  · simp [w32]
  · rw [State.reg_collide, if_neg h]
    simp [w32]

theorem State.reg_writeW1c_collideCount (s : State) (a : Nat) (mask v same : Word) (h : a ≠ Reg.COLLIDE_COUNT (blockOf a)) :
    (s.writeW1c a mask v same).reg (Reg.COLLIDE_COUNT (blockOf a)) =
      if v &&& same &&& mask = 0#32 then s.reg (Reg.COLLIDE_COUNT (blockOf a)) else satInc (s.reg (Reg.COLLIDE_COUNT (blockOf a))) 1 := by
  have hset : ∀ (x : Word) (bits : Nat),
      ((s.setReg a x).setEvent a bits).reg (Reg.COLLIDE_COUNT (blockOf a)) = s.reg (Reg.COLLIDE_COUNT (blockOf a)) := by
    intro x bits
    rw [State.reg_setEvent_ne _ _ _ _ h.symm (collideCount_ne_topMsiPending _), State.reg_setReg_ne _ _ _ _ h.symm]
  unfold State.writeW1c
  dsimp only
  rw [State.answer_reg]
  split_ifs
  · exact hset _ _
  · rw [State.reg_collide, if_pos rfl, hset]

/-! The service register (R550, R552). -/

/-- The codes of a list that hardware raises in the cycle of a write. -/
def State.raiseHits (s : State) (hit : Word) (codes : List Nat) : State :=
  codes.foldl (fun (s : State) k => if flag hit k then s.service k else s) s

theorem State.raiseHits_nil (s : State) (hit : Word) : s.raiseHits hit [] = s := rfl

theorem State.raiseHits_cons (s : State) (hit : Word) (k : Nat) (ks : List Nat) :
    s.raiseHits hit (k :: ks) = (if flag hit k then s.service k else s).raiseHits hit ks := rfl

theorem State.reg_raiseHits_collideCount (hit : Word) (codes : List Nat) (b : Nat) : ∀ s : State,
    (s.raiseHits hit codes).reg (Reg.COLLIDE_COUNT b) = s.reg (Reg.COLLIDE_COUNT b) := by
  induction codes with
  | nil => intro s; rfl
  | cons k ks ih =>
    intro s
    rw [State.raiseHits_cons, ih]
    split_ifs
    · exact State.reg_service_collideCount s k b
    · rfl

/-- The bit of one code. -/
theorem flag_w32_two_pow (k j : Nat) : flag (w32 (2 ^ k)) j = (decide (j < 32) && decide (k = j)) := by
  unfold flag w32
  rw [BitVec.getLsbD_ofNat, Nat.testBit_two_pow]

theorem flag_or (x y : Word) (j : Nat) : flag (x ||| y) j = (flag x j || flag y j) := BitVec.getLsbD_or

/-- Raising a code keeps every latched bit, and latches its own unless it names a condition. -/
theorem State.flag_service_latched (s : State) (code j : Nat) :
    flag ((s.service code).reg Reg.PMC_SERVICE_LATCHED) j =
      (flag (s.reg Reg.PMC_SERVICE_LATCHED) j || (latches code && decide (j < 32) && decide (code = j))) := by
  rw [State.reg_service_latched]
  cases latches code with
  | false => simp
  | true => rw [if_pos rfl, flag_or, flag_w32_two_pow, Bool.true_and]

/-- What is latched once the codes of a list are raised: what was, and those of them that latch. -/
theorem State.flag_raiseHits_latched (hit : Word) (codes : List Nat) (j : Nat) (hj : j < 32) : ∀ s : State,
    flag ((s.raiseHits hit codes).reg Reg.PMC_SERVICE_LATCHED) j =
      (flag (s.reg Reg.PMC_SERVICE_LATCHED) j || (latches j && flag hit j && decide (j ∈ codes))) := by
  induction codes with
  | nil => intro s; simp [State.raiseHits_nil]
  | cons k ks ih =>
    intro s
    rw [State.raiseHits_cons, ih]
    by_cases hk : k = j
    · subst hk
      cases hf : flag hit k with
      | false => simp
      | true => cases hl : latches k <;> simp [State.flag_service_latched, hj, hl]
    · have hjk : j ≠ k := Ne.symm hk
      split_ifs
      · simp [State.flag_service_latched, hk, hjk]
      · simp [hjk]

/-- The bits of 0x3CE are codes that latch. -/
theorem hitMask_latches : ∀ j < 32, flag (w32 0x3CE) j = true → latches j = true ∧ j ∈ List.range 11 := by decide

/-- The codes raised in the cycle of the write are latched once they are raised. -/
theorem State.raiseHits_latched_and (s : State) (x : Word) :
    let hit := x &&& w32 0x3CE
    (s.raiseHits hit (List.range 11)).reg Reg.PMC_SERVICE_LATCHED &&& hit = hit := by
  intro hit
  apply BitVec.eq_of_getLsbD_eq
  intro j hj
  rw [BitVec.getLsbD_and]
  cases hb : hit.getLsbD j with
  | false => simp
  | true =>
    have hm : flag (w32 0x3CE) j = true := by
      rw [BitVec.getLsbD_and, Bool.and_eq_true] at hb
      exact hb.2
    obtain ⟨hl, hr⟩ := hitMask_latches j hj hm
    have := s.flag_raiseHits_latched hit (List.range 11) j hj
    rw [hl, show flag hit j = true from hb, decide_eq_true hr] at this
    simpa [flag] using this

/-- Every initiator may write the service register, its row is no half of a pair and every value may stand in it (R552). -/
theorem State.busWrite_serviceLatched (s : State) (ini : Initiator) (v same : Word) :
    s.busWrite ini Reg.PMC_SERVICE_LATCHED 4 v same = s.writeServiceLatched (v &&& w32 0xFFFFFFFF) same := by
  rfl

/-- A write to the service register by its parts: raise the codes hit, clear what is cleared, count, and settle the level. -/
theorem State.reg_writeServiceLatched (s : State) (v same : Word) (r : Nat) (hr : r ≠ Reg.PMC_EVENT)
    (hp : ∀ w < 3, r ≠ Reg.TOP_MSI_PENDING w) (ha : r ≠ Reg.PMC_SERVICE_ACTIVE) :
    let hit := v &&& same &&& w32 0x3CE
    let clear := (v &&& ~~~ same) &&& ~~~ (w32 0b1010)
    let raised := s.raiseHits hit (List.range 11)
    let cleared := raised.setReg Reg.PMC_SERVICE_LATCHED (raised.reg Reg.PMC_SERVICE_LATCHED &&& ~~~ clear)
    (s.writeServiceLatched v same).reg r = (if hit = 0#32 then cleared else cleared.collide Reg.PMC_SERVICE_LATCHED).reg r := by
  intro hit clear raised cleared
  unfold State.writeServiceLatched
  rw [State.answer_reg, State.reg_serviceLevel_ne _ _ _ hr hp]
  change (if hit = 0#32 then cleared.setReg Reg.PMC_SERVICE_ACTIVE _ else
    (cleared.setReg Reg.PMC_SERVICE_ACTIVE _).collide Reg.PMC_SERVICE_LATCHED).reg r = _
  split_ifs
  · rw [State.reg_setReg_ne _ _ _ _ ha]
  · simp only [State.reg_collide, State.reg_setReg_ne _ _ _ _ ha]

/-- No code raised in the cycle of the write is cleared by it. -/
theorem hit_and_not_clear (v same mask keep : Word) : ~~~((v &&& ~~~same) &&& keep) &&& (v &&& same &&& mask) = v &&& same &&& mask := by
  ext j hj
  simp only [BitVec.getElem_and, BitVec.getElem_not]
  cases same[j] <;> simp

/-- Each code raised in the cycle of the write stays latched (R16, R552). -/
theorem State.writeServiceLatched_latched (s : State) (v same : Word) :
    let hit := v &&& same &&& w32 0x3CE
    (s.writeServiceLatched v same).reg Reg.PMC_SERVICE_LATCHED &&& hit = hit := by
  intro hit
  have hc : Reg.PMC_SERVICE_LATCHED ≠ Reg.COLLIDE_COUNT (blockOf Reg.PMC_SERVICE_LATCHED) := by decide
  have hraised := s.raiseHits_latched_and (v &&& same)
  rw [State.reg_writeServiceLatched s v same _ (by decide) serviceLatched_ne_topMsiPending (by decide)]
  split_ifs
  · rw [State.reg_setReg_same, BitVec.and_assoc, hit_and_not_clear]
    exact hraised
  · rw [State.reg_collide, if_neg hc, State.reg_setReg_same, BitVec.and_assoc, hit_and_not_clear]
    exact hraised

/-- A collision with a code raised in the cycle of the write is counted once (R16). -/
theorem State.writeServiceLatched_collideCount (s : State) (v same : Word) :
    (s.writeServiceLatched v same).reg (Reg.COLLIDE_COUNT 20) =
      if v &&& same &&& w32 0x3CE = 0#32 then s.reg (Reg.COLLIDE_COUNT 20) else satInc (s.reg (Reg.COLLIDE_COUNT 20)) 1 := by
  have hl : Reg.COLLIDE_COUNT 20 ≠ Reg.PMC_SERVICE_LATCHED := collideCount_ne 20 (by decide)
  have hb : Reg.COLLIDE_COUNT (blockOf Reg.PMC_SERVICE_LATCHED) = Reg.COLLIDE_COUNT 20 := by decide
  rw [State.reg_writeServiceLatched s v same _ (by decide) (collideCount_ne_topMsiPending 20) (by decide)]
  split_ifs
  · rw [State.reg_setReg_ne _ _ _ _ hl, State.reg_raiseHits_collideCount]
  · rw [State.reg_collide, hb, if_pos rfl, State.reg_setReg_ne _ _ _ _ hl, State.reg_raiseHits_collideCount]

end Sys2Proof.Machine

open Sys2Proof Sys2Proof.Machine

/-- Settles O12: the W1C write sets the bits hit after it clears, and the service register raises the codes hit before it clears the others. -/
theorem setWinsOverClearOfW1c : Obligations.SetWinsOverClearOfW1c := by
  refine ⟨?_, ?_⟩
  · intro s ini a v same r i hs ha hr hw hne hm hit
    have hc : a ≠ Reg.COLLIDE_COUNT (blockOf a) := w1c_ne_collideCount hr hw _
    have hset : v &&& w32 r.mask &&& same &&& w32 r.mask = hit := word_mask_twice v (w32 r.mask) same
    have hwrite := s.begin.busWrite_w1c ini a v same r i ha hr hw hne ((s.mayWrite_begin ini a r i).trans hm)
    have hflag : (s.begin.busWrite ini a 4 v same).reg a = (s.reg a &&& ~~~(v &&& w32 r.mask &&& ~~~hit)) ||| hit := by
      rw [hwrite, State.reg_writeW1c_same _ _ _ _ _ hc, hset, State.begin_reg]
    refine ⟨_, exec_registerWrite s ini a 4 v same hs, hflag, ?_, ?_⟩
    · rw [State.after_reg, hflag, word_or_and_right]
    · rw [State.after_reg, hwrite, State.reg_writeW1c_collideCount _ _ _ _ _ hc, hset, State.begin_reg]
  · intro s ini v same hs hit
    have hv : v &&& w32 0xFFFFFFFF = v := BitVec.and_allOnes
    refine ⟨_, exec_registerWrite s ini _ 4 v same hs, ?_, ?_⟩
    · rw [State.after_reg, State.busWrite_serviceLatched, hv]
      exact s.begin.writeServiceLatched_latched v same
    · rw [State.after_reg, State.busWrite_serviceLatched, hv, State.writeServiceLatched_collideCount, State.begin_reg]
end

section
/-! A bus write of an aligned word, by the branch it takes (R11, R20): refused, held, a command of its own, or stored. -/
namespace Sys2Proof.Machine

section
variable {a i : Nat} {r : RegRow} (ha : a % 4 = 0) (hr : regRow a = some (r, i))
include ha hr

/-- A write that the access code, the initiator or the state does not allow is ignored and counted. -/
theorem State.busWrite_of_not_mayWrite (s : State) (ini : Initiator) (v same : Word) (hm : s.mayWrite ini a r i = false) :
    s.busWrite ini a 4 v same = (s.ignoredWrite a).answer St.OK := by
  have hb := blockOf_lt_of_regRow hr
  unfold State.busWrite
  rw [if_neg (Nat.not_le.mpr hb), if_neg (by omega)]
  simp [hr, hm]

/-- A write to a _LO register is held. -/
theorem State.busWrite_lo (s : State) (ini : Initiator) (v same : Word) (hm : s.mayWrite ini a r i = true) (hw : r.acc ≠ .w1c)
    (hl : isLo a = true) : s.busWrite ini a 4 v same = (s.holdLo a (v &&& w32 r.mask)).answer St.OK := by
  have hb := blockOf_lt_of_regRow hr
  unfold State.busWrite
  rw [if_neg (Nat.not_le.mpr hb), if_neg (by omega)]
  simp [hr, hm, hw, hl]

/-- A write to a _HI register that only stores its value stores it over the held low half. -/
theorem State.busWrite_hi (s : State) (ini : Initiator) (v same : Word) (hm : s.mayWrite ini a r i = true) (hw : r.acc = .rw)
    (hl : isLo a = false) (hh : isHi a = true) (hv : s.mayHold a i (v &&& w32 r.mask) = true)
    (hs : (s.commitLo (a - 4)).writeSpecial ini a i (v &&& w32 r.mask) same = none) :
    s.busWrite ini a 4 v same = ((s.commitLo (a - 4)).setReg a (v &&& w32 r.mask)).answer St.OK := by
  have hb := blockOf_lt_of_regRow hr
  unfold State.busWrite
  rw [if_neg (Nat.not_le.mpr hb), if_neg (by omega)]
  simp [hr, hm, hw, hl, hh, hv, hs]

/-- A write to a command register, no half of a pair, does what the command does. -/
theorem State.busWrite_special (s : State) {t : State} (ini : Initiator) (v same : Word) (hm : s.mayWrite ini a r i = true) (hw : r.acc ≠ .w1c)
    (hl : isLo a = false) (hh : isHi a = false) (hv : s.mayHold a i (v &&& w32 r.mask) = true)
    (hs : s.writeSpecial ini a i (v &&& w32 r.mask) same = some t) : s.busWrite ini a 4 v same = t := by
  have hb := blockOf_lt_of_regRow hr
  unfold State.busWrite
  rw [if_neg (Nat.not_le.mpr hb), if_neg (by omega)]
  simp [hr, hm, hw, hl, hh, hv, hs]

end

end Sys2Proof.Machine
end

section
/-! HM_TICK_ORIGIN (R44). -/
namespace Sys2Proof.Machine

theorem exec_tickOriginWrite (s : State) (ini : Initiator) (val : BitVec 64) (h : s.awake = true) :
    exec (.tickOriginWrite ini val) s = .next (s.after (doTickOriginWrite ini val s.begin)) :=
  act_eq _ s h

theorem QState.active_iff (st : QState) : st.active = true ↔ st = .running ∨ st = .docking ∨ st = .docked := by
  cases st <;> simp [QState.active]

theorem State.anyQuay_iff (s : State) (p : Quay → Bool) : s.anyQuay p = true ↔ ∃ q : Fin 4, p s.quays[q] = true := by
  have hall : ∀ q : Fin 4, q ∈ allQuays := by decide
  unfold State.anyQuay
  rw [List.any_eq_true]
  exact ⟨fun ⟨q, _, h⟩ => ⟨q, h⟩, fun ⟨q, h⟩ => ⟨q, hall q, h⟩⟩

/-- Some quay is RUNNING, DOCKING or DOCKED. -/
def State.anyActive (s : State) : Bool := s.anyQuay (fun x => x.st.active)

theorem State.anyActive_begin (s : State) : s.begin.anyActive = s.anyActive := rfl

theorem State.anyActive_iff (s : State) :
    s.anyActive = true ↔ ∃ q : Fin 4, s.quays[q].st = .running ∨ s.quays[q].st = .docking ∨ s.quays[q].st = .docked := by
  rw [State.anyActive, State.anyQuay_iff]
  exact exists_congr fun q => QState.active_iff _

theorem State.not_anyActive_iff (s : State) :
    s.anyActive = false ↔ ∀ q : Fin 4, s.quays[q].st ≠ .running ∧ s.quays[q].st ≠ .docking ∧ s.quays[q].st ≠ .docked := by
  rw [← Bool.not_eq_true, State.anyActive_iff]
  simp only [not_exists, not_or, ne_eq]

theorem doTickOriginWrite_eq (ini : Initiator) (val : BitVec 64) (s : State) :
    doTickOriginWrite ini val s = if s.anyActive then (s.ignoredWrite Reg.HM_TICK_ORIGIN_LO).answer St.OK
      else (s.setReg64 Reg.HM_TICK_ORIGIN_LO val.toNat).answer St.OK := rfl

/-- Both halves are RW registers with index 0 and without reserved bits. -/
theorem regRow_tickOrigin {a : Nat} (h : a = Reg.HM_TICK_ORIGIN_LO ∨ a = Reg.HM_TICK_ORIGIN_HI) :
    a % 4 = 0 ∧ ∃ r, regRow a = some (r, 0) ∧ r.acc = .rw ∧ r.mask = 0xFFFFFFFF := by
  rcases h with rfl | rfl
  · exact ⟨rfl, _, rfl, rfl, rfl⟩
  · exact ⟨rfl, _, rfl, rfl, rfl⟩

/-- Whoever writes it, a half of HM_TICK_ORIGIN is written only while no quay is active. -/
theorem State.mayWrite_tickOrigin (s : State) (ini : Initiator) {a : Nat} {r : RegRow}
    (h : a = Reg.HM_TICK_ORIGIN_LO ∨ a = Reg.HM_TICK_ORIGIN_HI) (hr : r.acc = .rw) : s.mayWrite ini a r 0 = !s.anyActive := by
  unfold State.mayWrite
  rw [hr]
  rcases h with rfl | rfl
  · rfl
  · rfl

theorem State.busWrite_tickOrigin_ignored (s : State) (ini : Initiator) (a : Nat) (v same : Word)
    (h : a = Reg.HM_TICK_ORIGIN_LO ∨ a = Reg.HM_TICK_ORIGIN_HI) (hq : s.anyActive = true) :
    s.busWrite ini a 4 v same = (s.ignoredWrite a).answer St.OK := by
  obtain ⟨ha, r, hr, hw, _⟩ := regRow_tickOrigin h
  exact s.busWrite_of_not_mayWrite ha hr ini v same (by rw [s.mayWrite_tickOrigin ini h hw, hq]; rfl)

theorem State.busWrite_tickOriginLo (s : State) (ini : Initiator) (v same : Word) (hq : s.anyActive = false) :
    s.busWrite ini Reg.HM_TICK_ORIGIN_LO 4 v same = (s.holdLo Reg.HM_TICK_ORIGIN_LO v).answer St.OK := by
  have hv : v &&& w32 0xFFFFFFFF = v := BitVec.and_allOnes
  obtain ⟨ha, r, hr, hw, hmask⟩ := regRow_tickOrigin (.inl rfl)
  have hm : s.mayWrite ini Reg.HM_TICK_ORIGIN_LO r 0 = true := by rw [s.mayWrite_tickOrigin ini (.inl rfl) hw, hq]; rfl
  rw [s.busWrite_lo ha hr ini v same hm (by simp [hw]) (by decide), hmask, hv]

theorem State.busWrite_tickOriginHi (s : State) (ini : Initiator) (v same : Word) (hq : s.anyActive = false) :
    s.busWrite ini Reg.HM_TICK_ORIGIN_HI 4 v same =
      ((s.commitLo Reg.HM_TICK_ORIGIN_LO).setReg Reg.HM_TICK_ORIGIN_HI v).answer St.OK := by
  have hv : v &&& w32 0xFFFFFFFF = v := BitVec.and_allOnes
  obtain ⟨ha, r, hr, hw, hmask⟩ := regRow_tickOrigin (.inr rfl)
  have hm : s.mayWrite ini Reg.HM_TICK_ORIGIN_HI r 0 = true := by rw [s.mayWrite_tickOrigin ini (.inr rfl) hw, hq]; rfl
  rw [s.busWrite_hi ha hr ini v same hm hw (by decide) (by decide) rfl rfl, hmask, hv]
  rfl

end Sys2Proof.Machine

open Sys2Proof Sys2Proof.Machine

/-- Settles O15: whether some quay is active decides both the command and who may write a half. -/
theorem tickOriginOnlyWhileNoQuayIsActive : Obligations.TickOriginOnlyWhileNoQuayIsActive := by
  refine ⟨?_, ?_⟩
  · intro s ini val hs hq
    have hact : s.begin.anyActive = true := s.anyActive_iff.mpr hq
    refine ⟨?_, fun a v same ha => ⟨?_, ?_⟩⟩
    · rw [exec_tickOriginWrite s ini val hs, doTickOriginWrite_eq, if_pos hact]
    · rw [exec_registerWrite s ini a 4 v same hs, State.busWrite_tickOrigin_ignored _ ini a v same ha hact]
    · rw [exec_hiWriteCommit s ini a v hs, State.busWrite_tickOrigin_ignored _ ini a v _ ha hact]
  · intro s ini val hs hq
    have hact : s.begin.anyActive = false := s.not_anyActive_iff.mpr hq
    refine ⟨?_, fun v same => ⟨?_, ?_⟩⟩
    · rw [exec_tickOriginWrite s ini val hs, doTickOriginWrite_eq, hact]
      rfl
    · rw [exec_registerWrite s ini _ 4 v same hs, State.busWrite_tickOriginLo _ ini v same hact]
    · rw [exec_hiWriteCommit s ini _ v hs, State.busWrite_tickOriginHi _ ini v _ hact]
end

section
/-! HM_QUAY_CMD: the opcodes that name no command (R81). -/
namespace Sys2Proof.Machine

/-- An opcode that names none of the six commands is refused, whatever the quay's state. -/
theorem State.writeQuayCmd_undefined (s : State) (ini : Initiator) (q : Fin 4) (op : Nat) (h : op = 0 ∨ 7 ≤ op) :
    s.writeQuayCmd ini q op = s.answer St.REFUSED := by
  have hne : ∀ k, 1 ≤ k → k ≤ 6 → op ≠ k := by omega
  unfold State.writeQuayCmd
  split
  case h_7 => rfl
  all_goals exact absurd rfl (hne _ (by decide) (by decide))

/-- The opcode field of a written value, once its reserved bits are gone. -/
theorem fld_opcode_unreserved (v : Word) : fld (v &&& w32 0xF) 3 0 = v.toNat % 16 := by
  have hand : v.toNat &&& 15 = v.toNat % 16 := Nat.and_two_pow_sub_one_eq_mod v.toNat 4
  unfold fld bitsOf w32
  rw [BitVec.toNat_and, BitVec.toNat_ofNat, Nat.shiftRight_zero, show 15 % 2 ^ 32 = 15 from rfl, hand]
  exact Nat.mod_mod v.toNat 16

/-- HM_QUAY_CMD[q] is a write-only register whose opcode field alone is not reserved. -/
theorem regRow_quayCmd (q : Fin 4) :
    Reg.HM_QUAY_CMD q % 4 = 0 ∧ ∃ r, regRow (Reg.HM_QUAY_CMD q) = some (r, q.val) ∧ r.acc = .wo ∧ r.mask = 0xF := by
  fin_cases q <;> exact ⟨rfl, _, rfl, rfl, rfl⟩

theorem quayCmd_no_half : ∀ q : Fin 4, isLo (Reg.HM_QUAY_CMD q) = false ∧ isHi (Reg.HM_QUAY_CMD q) = false := by decide

/-- Every initiator may write HM_QUAY_CMD. -/
theorem State.mayWrite_quayCmd (s : State) (ini : Initiator) (q : Fin 4) {r : RegRow} (hr : r.acc = .wo) :
    s.mayWrite ini (Reg.HM_QUAY_CMD q) r q = true := by
  unfold State.mayWrite
  rw [hr]
  fin_cases q <;> rfl

/-- A write of HM_QUAY_CMD[q] gives quay q the command in bits [3:0]. -/
theorem State.busWrite_quayCmd (s : State) (ini : Initiator) (q : Fin 4) (v same : Word) :
    s.busWrite ini (Reg.HM_QUAY_CMD q) 4 v same = s.writeQuayCmd ini q (v.toNat % 16) := by
  obtain ⟨ha, r, hr, hw, hmask⟩ := regRow_quayCmd q
  obtain ⟨hlo, hhi⟩ := quayCmd_no_half q
  have hspecial : ∀ w : Word, s.writeSpecial ini (Reg.HM_QUAY_CMD q) q w same = some (s.writeQuayCmd ini q (fld w 3 0)) := by
    intro w
    fin_cases q <;> rfl
  rw [s.busWrite_special ha hr ini v same (s.mayWrite_quayCmd ini q hw) (by simp [hw]) hlo hhi
    (by fin_cases q <;> rfl) (hspecial _), hmask, fld_opcode_unreserved]

end Sys2Proof.Machine

open Sys2Proof Sys2Proof.Machine

/-- Settles O16: an opcode of 0 or from 7 on falls in no command's case. -/
theorem undefinedQuayOpcodesAreRefused : Obligations.UndefinedQuayOpcodesAreRefused := by
  intro s q ini v same hs hop
  rw [exec_registerWrite s ini _ 4 v same hs, State.busWrite_quayCmd, State.writeQuayCmd_undefined _ ini q _ hop]
end

section
/-! Judging a quay command (R51, R70): the order of its verdicts, and the commands of quay 0. -/
namespace Sys2Proof.Machine

/-- The command needs HM_Q0_GUARD.cmd_enable, which is 0 (R51). -/
def State.fencedCmd (s : State) (q : Fin 4) (ini : Initiator) (c : QCmd) : Prop :=
  q = 0 ∧ ini ≠ .cg ∧ ini ≠ .salvage ∧ c ≠ .load ∧ c ≠ .start ∧ flag (s.reg Reg.CG_Q0_GUARD) 0 = false

/-- A command is judged FENCED just when the state accepts it and the guard does not let it through. -/
theorem State.judgeCmd_fenced_iff (s : State) (q : Fin 4) (ini : Initiator) (c : QCmd) :
    s.judgeCmd q ini c = some St.FENCED ↔ s.quays[q].st.accepts c = true ∧ s.fencedCmd q ini c := by
  have hbad : (some St.BAD_STATE : Option Status) ≠ some St.FENCED := by decide
  have hbusy : (some St.BUSY : Option Status) ≠ some St.FENCED := by decide
  unfold State.judgeCmd State.fencedCmd
  dsimp only
  split_ifs with hacc hfence
  · simp only [hbad, false_iff]
    rintro ⟨h, _⟩
    rw [h] at hacc
    cases hacc
  · simpa using ⟨by simpa using hacc, by simpa using hfence⟩
  · simpa [hbusy] using fun _ => by simpa using hfence
  · simpa using fun _ => by simpa using hfence

/-- What an accepted command does (R73-R76, R506). -/
def State.acceptCmd (s : State) (q : Fin 4) : QCmd → State
  | .load => s.acceptLoad q (s.addr48 (Reg.HM_QUAY_CHART_LO q)) (min ((s.reg (Reg.HM_QUAY_CHART_SIZE q)).toNat % 2 ^ 25) storeLimit)
  | .start => s.acceptStart q
  | .dock => s.acceptDock q
  | .undock => s.acceptUndock q
  | .unload => s.enterResetting q .unload false
  | .reset => s.enterResetting q .reset false

/-- The six commands differ only in what they do once accepted. -/
theorem exec_quayCmd (s : State) (q : Fin 4) (ini : Initiator) (c : QCmd) (h : s.awake = true) :
    exec (c.instr q ini) s = .next (s.after (s.begin.quayCmd q ini c (fun t => t.acceptCmd q c))) := by
  cases c <;> exact act_eq _ s h

theorem State.quayCmd_rejected (s : State) (q : Fin 4) (ini : Initiator) (c : QCmd) (go : State → State) (st : Status)
    (h : s.judgeCmd q ini c = some st) : s.quayCmd q ini c go = s.rejectCmd q st := by
  rw [State.quayCmd, h]

/-- A rejected command other than BAD_STATE changes nothing but the answer. -/
theorem State.rejectCmd_of_ne (s : State) (q : Fin 4) (st : Status) (h : st ≠ St.BAD_STATE) : s.rejectCmd q st = s.answer st := by
  rw [State.rejectCmd, if_neg h]

end Sys2Proof.Machine

open Sys2Proof Sys2Proof.Machine

/-- Settles O21: the guard is judged after the state and before a command in progress. -/
theorem quayZeroCommandsAreFenced : Obligations.QuayZeroCommandsAreFenced := by
  refine ⟨?_, ?_⟩
  · intro s ini c hs hc hcg hsalv hguard hacc
    have hneeds : c ≠ .load ∧ c ≠ .start := by rcases hc with rfl | rfl | rfl | rfl <;> simp
    have hjudge : s.begin.judgeCmd 0 ini c = some St.FENCED :=
      (s.judgeCmd_fenced_iff 0 ini c).mpr ⟨hacc, rfl, hcg, hsalv, hneeds.1, hneeds.2, hguard⟩
    rw [exec_quayCmd s 0 ini c hs, State.quayCmd_rejected _ 0 ini c _ _ hjudge, State.rejectCmd_of_ne _ 0 _ (by decide)]
  · intro s ini c hfree hjudge
    obtain ⟨_, _, hcg, hsalv, _, _, hguard⟩ := (s.judgeCmd_fenced_iff 0 ini c).mp hjudge
    rcases hfree with h | h | h
    · rw [hguard] at h
      cases h
    · exact hcg h
    · exact hsalv h
end

section
/-! The forms of the commands' meanings (R536, R557): all but the commands of the resets, the time base and Coastguard are one effect that a reset
absorbs, and every command answers a next state with the queue as it was. -/
namespace Sys2Proof

/-- A command that leaves the cold reset and harbour time alone: all but the cold reset's own, a loss of rails and the held step. -/
def Instr.keepsReset : Instr → Bool
  | .coldReset _ => false
  | .coldResetRelease _ _ _ _ _ => false
  | .railFault _ => false
  | .harbourTimeStep => false
  | _ => true

end Sys2Proof

namespace Sys2Proof.Machine

/-- A bus access that is not Coastguard's own is absorbed like any other command. -/
theorem actBus_of_not_cgAccess {ini : Initiator} {a : Nat} (h : cgAccess ini a = false) (f : State → State) (s : State) :
    actBus ini a f s = act f s := by
  have : ¬(ini = .cg ∧ blockOf a = 18) := of_decide_eq_false h
  rw [actBus, if_neg this]

/-- What a command answers that no reset absorbs, once its effect is known. -/
theorem act_eq_of {f : State → State} {s t : State} (hs : s.awake = true) (h : f s.begin = t) : act f s = .next (s.after t) := by
  rw [act_eq f s hs, h]

/-- The same for a command that a device warm reset does not stop. -/
theorem actAlive_eq_of {f : State → State} {s t : State} (hs : s.coldHeld = false) (h : f s.begin = t) :
    actAlive f s = .next (s.after t) := by
  rw [actAlive_eq f s hs, h]

/-- A command that does not act in a warm reset is one effect under `act`. -/
theorem exec_eq_act (c : Instr) (h : c.actsInWarmReset = false) : ∃ f, ∀ s, exec c s = act f s := by
  cases c
  case registerWrite ini a n v same => exact ⟨_, actBus_of_not_cgAccess h _⟩
  case loCaptureRead ini a => exact ⟨_, actBus_of_not_cgAccess h _⟩
  case hiWriteCommit ini a v => exact ⟨_, actBus_of_not_cgAccess h _⟩
  case rcRead ini a n same => exact ⟨_, actBus_of_not_cgAccess h _⟩
  case harbourTimeStep | ageTick | descriptorCheck | decision | noticeTimer | cgRelease | cgSwRequest | cgWdtKick | watchdogExpiry
    | selfFault | coldReset | coldResetRelease | warmRstN | warmRstNRelease | railFault | sensorSample => cases h
  all_goals exact ⟨_, fun s => by rw [exec]; rfl⟩

/-- What a bus access answers has harbour time, the cold reset and the queue as they were. -/
theorem actBus_eq_after (ini : Initiator) (a : Nat) (f : State → State) (s : State) : ∃ t, actBus ini a f s = .next (s.after t) := by
  unfold actBus
  split
  · exact ⟨_, rfl⟩
  · exact ⟨_, rfl⟩

/-- Such a command answers some state with harbour time, the cold reset and the queue as they were. -/
theorem exec_eq_after (c : Instr) (h : c.keepsReset = true) (s : State) : ∃ t, exec c s = .next (s.after t) := by
  by_cases hw : c.actsInWarmReset = false
  · obtain ⟨f, hf⟩ := exec_eq_act c hw
    exact ⟨_, hf s⟩
  · cases c
    case registerWrite ini a n v same => exact actBus_eq_after ini a _ s
    case loCaptureRead ini a => exact actBus_eq_after ini a _ s
    case hiWriteCommit ini a v => exact actBus_eq_after ini a _ s
    case rcRead ini a n same => exact actBus_eq_after ini a _ s
    case ageTick | descriptorCheck | decision | noticeTimer | cgRelease | cgSwRequest | cgWdtKick | watchdogExpiry | selfFault
      | warmRstN | warmRstNRelease | sensorSample => exact ⟨_, rfl⟩
    case harbourTimeStep | coldReset | coldResetRelease | railFault => cases h
    all_goals exact absurd rfl hw

/-- While PORST_N is low an effect that a warm reset does not stop is absorbed too. -/
theorem actAlive_held (f : State → State) (s : State) (h : s.coldHeld = true) : actAlive f s = .next s.begin := by
  simp only [actAlive, h, if_true]
  rfl

theorem actBus_held (ini : Initiator) (a : Nat) (f : State → State) (s : State) (h : s.coldHeld = true) :
    actBus ini a f s = .next s.begin := by
  unfold actBus
  split
  · exact actAlive_held f s h
  · exact act_held f s (by simp [State.awake, h])

/-- While PORST_N is low a command other than the resets', the rails' and the sensors' is absorbed (R557). -/
theorem exec_of_coldHeld (c : Instr) (s : State) (hs : s.coldHeld = true) (h : c.actsInColdReset = false) :
    exec c s = .next s.begin := by
  by_cases hw : c.actsInWarmReset = false
  · obtain ⟨f, hf⟩ := exec_eq_act c hw
    rw [hf, act_held f s (by simp [State.awake, hs])]
  · cases c
    case registerWrite ini a n v same => exact actBus_held ini a _ s hs
    case loCaptureRead ini a => exact actBus_held ini a _ s hs
    case hiWriteCommit ini a v => exact actBus_held ini a _ s hs
    case rcRead ini a n same => exact actBus_held ini a _ s hs
    case ageTick | descriptorCheck | decision | noticeTimer | cgRelease | cgSwRequest | cgWdtKick | watchdogExpiry | selfFault =>
      exact actAlive_held _ s hs
    case harbourTimeStep =>
      rw [exec, execHarbourTimeStep, if_pos hs]
      rfl
    case warmRstN | warmRstNRelease | sensorSample | coldReset | coldResetRelease | railFault => cases h
    all_goals exact absurd rfl hw

/-- A loss of rails answers some state with the queue as it was. -/
theorem execRailFault_eq_done (rails : List Nat) (s : State) : ∃ t, execRailFault rails s = done s t := by
  unfold execRailFault
  split
  · exact ⟨_, rfl⟩
  · exact ⟨_, rfl⟩

/-- Every command answers some state with the queue as it was. -/
theorem exec_eq_done (c : Instr) (s : State) : ∃ t, exec c s = done s t := by
  by_cases h : c.keepsReset = true
  · obtain ⟨t, ht⟩ := exec_eq_after c h s
    exact ⟨s.after t, ht⟩
  · cases c
    case coldReset ns => exact ⟨_, rfl⟩
    case coldResetRelease => exact ⟨_, rfl⟩
    case harbourTimeStep => exact ⟨_, rfl⟩
    case railFault rails => exact execRailFault_eq_done rails s
    all_goals exact absurd rfl h

end Sys2Proof.Machine

open Sys2Proof Sys2Proof.Machine

/-- Settles O1: the step takes the front command off the queue. -/
theorem stepRunsFrontCommand : Obligations.StepRunsFrontCommand := by
  intro c rest s h
  rw [step, h]

/-- Settles O2: every command answers through `done`, which puts the queue back. -/
theorem commandsAnswerAndKeepQueue : Obligations.CommandsAnswerAndKeepQueue := by
  intro c s
  obtain ⟨t, ht⟩ := exec_eq_done c s
  exact ⟨_, ht, rfl⟩

/-- Settles O4: the reset state lists no register and no byte, so each reads as what an unlisted key reads as. -/
theorem resetStateIsAsColdReset : Obligations.ResetStateIsAsColdReset := by
  refine ⟨fun _ => rfl, fun q => ?_, rfl, rfl, rfl, rfl, rfl, rfl, fun _ => rfl, rfl, rfl, rfl⟩
  simp [State.reset]

/-- Settles O7: such a command is one effect under `act`, which a reset absorbs. -/
theorem resetsAbsorbCommands : Obligations.ResetsAbsorbCommands := by
  refine ⟨?_, ?_⟩
  · intro c s hc hw h
    obtain ⟨f, hf⟩ := exec_eq_act c h
    rw [hf, act_held f s (by simp [State.awake, hw])]
  · intro c s hc h
    exact exec_of_coldHeld c s hc h

end

section
/-! Harbour time (R40, R41): one cycle of the time base, and the held step. -/
namespace Sys2Proof.Machine

theorem TimeState.tick_of_settled (t : TimeState) (h : t.slew = 0) :
    t.tick = { t with now := t.now + 2, slewFrac := 0, slewing := false } := by
  rw [TimeState.tick, if_pos h]

/-- A cycle moves harbour time by 1 to 3 ns, and by 2 ns less what is left to slew changes. -/
theorem TimeState.tick_now (t : TimeState) :
    t.now + 1 ≤ t.tick.now ∧ t.tick.now ≤ t.now + 3 ∧ (t.tick.now : Int) - t.now - 2 = t.slew - t.tick.slew := by
  unfold TimeState.tick
  dsimp only
  split_ifs with h0 hf hup
  · simp
  · simp
  · simp
  · simp only [Nat.cast_add]
    omega

theorem TimeState.tick_keeps (t : TimeState) : t.tick.locked = t.locked ∧ t.tick.step = t.step := by
  unfold TimeState.tick
  dsimp only
  split_ifs
  all_goals exact ⟨rfl, rfl⟩

theorem step_of_idle (s : State) (h : s.pending = []) : step s = .next s.idle := by
  rw [step, h]

theorem State.idle_of_running (s : State) (h : s.coldHeld = false) : s.idle = { s.begin with time := s.time.tick } := by
  rw [State.idle, if_neg (by simp [h])]

theorem State.idle_of_coldHeld (s : State) (h : s.coldHeld = true) : s.idle = s.begin := by
  rw [State.idle, if_pos h]

theorem doHarbourTimeStep_of_none (s : State) (h : s.time.step = none) : doHarbourTimeStep s = s := by
  rw [doHarbourTimeStep, h]

/-- A step waits while a quay is RUNNING or DOCKING (R41). -/
theorem doHarbourTimeStep_of_held (s : State) (h : s.stepHeld = true) : doHarbourTimeStep s = s := by
  unfold doHarbourTimeStep
  split
  · rfl
  · exact if_pos h

/-- The record of the time base once a step of `d` ns is applied. -/
def TimeState.stepped (t : TimeState) (d : Int) : TimeState :=
  { t with now := t.now + d.toNat, step := none, slew := min d 0, slewing := decide (d < 0), locked := decide (0 ≤ d) }

/-- A step that is applied changes the time base and the epoch alone. -/
theorem doHarbourTimeStep_applied (s : State) (d : Int) (h : s.time.step = some d) (hq : s.stepHeld = false) :
    ∃ e, doHarbourTimeStep s = { s with time := s.time.stepped d, pmc := { s.pmc with epochAt := e } } := by
  rw [doHarbourTimeStep, h]
  exact ⟨_, if_neg (by simp [hq])⟩

/-- A held step never moves harbour time back (R40), and leaves the cold reset alone. -/
theorem doHarbourTimeStep_now (s : State) :
    s.time.now ≤ (doHarbourTimeStep s).time.now ∧ (doHarbourTimeStep s).coldHeld = s.coldHeld := by
  cases hd : s.time.step with
  | none =>
    rw [doHarbourTimeStep_of_none s hd]
    exact ⟨le_rfl, rfl⟩
  | some d =>
    cases hq : s.stepHeld with
    | true =>
      rw [doHarbourTimeStep_of_held s hq]
      exact ⟨le_rfl, rfl⟩
    | false =>
      obtain ⟨e, he⟩ := doHarbourTimeStep_applied s d hd hq
      rw [he]
      exact ⟨Nat.le_add_right _ _, rfl⟩

/-- A cold reset holds the device. -/
theorem State.coldReset_coldHeld (s : State) : s.coldReset.coldHeld = true := by
  unfold State.coldReset
  dsimp only
  split_ifs
  · rfl
  · rfl

theorem State.railReset_coldHeld (s : State) (rails : List Nat) : (s.railReset rails).coldHeld = true := by
  unfold State.railReset
  dsimp only
  split_ifs
  · exact s.coldReset_coldHeld
  · exact s.coldReset_coldHeld

/-- What a command answers is held in cold reset, or is no earlier. -/
theorem exec_now (c : Instr) (s t : State) (h : exec c s = .next t) : t.coldHeld = true ∨ s.time.now ≤ t.time.now := by
  by_cases hk : c.keepsReset = true
  · obtain ⟨u, hu⟩ := exec_eq_after c hk s
    cases hu.symm.trans h
    exact .inr le_rfl
  · cases c
    case coldReset ns =>
      cases h
      dsimp only
      split_ifs
      · exact .inr le_rfl
      · exact .inl s.begin.coldReset_coldHeld
    case coldResetRelease =>
      cases h
      exact .inr le_rfl
    case harbourTimeStep =>
      cases h
      dsimp only
      split_ifs
      · exact .inr le_rfl
      · exact .inr (doHarbourTimeStep_now s.begin).1
    case railFault rails =>
      rw [exec, execRailFault] at h
      split_ifs at h
      · cases h
        exact .inl (s.begin.railReset_coldHeld rails)
      · cases h
        exact .inr le_rfl
      · cases h
        exact .inr le_rfl
    all_goals exact absurd rfl hk

end Sys2Proof.Machine

open Sys2Proof Sys2Proof.Machine

/-- Settles O3: the idle step is one cycle of the time base, or nothing while PORST_N is low. -/
theorem idleCycleAdvancesHarbourTime : Obligations.IdleCycleAdvancesHarbourTime := by
  refine ⟨fun s hp hc => ?_, fun s hp hc => ?_⟩
  · obtain ⟨hlo, hhi, hslew⟩ := s.time.tick_now
    obtain ⟨hlock, hstep⟩ := s.time.tick_keeps
    refine ⟨s.time.tick, ?_, fun h0 => ?_, hlo, hhi, hslew, hlock, hstep⟩
    · rw [step_of_idle s hp, s.idle_of_running hc]
      rfl
    · rw [TimeState.tick_of_settled _ h0]
      exact ⟨rfl, h0⟩
  · rw [step_of_idle s hp, s.idle_of_coldHeld hc]
    rfl

/-- Settles O6: an idle step ticks on, and a command keeps harbour time but for the resets and the held step. -/
theorem harbourTimeNeverDecreases : Obligations.HarbourTimeNeverDecreases := by
  intro s t h
  unfold step at h
  split at h
  next c rest _ => exact exec_now c { s with pending := rest } t h
  next =>
    cases h
    obtain ⟨hlo, _, _⟩ := s.time.tick_now
    cases hc : s.coldHeld with
    | true => exact .inl (by rw [s.idle_of_coldHeld hc]; exact hc)
    | false =>
      rw [s.idle_of_running hc]
      exact .inr (Nat.le_of_succ_le hlo)

end

section
/-! The cold reset (R21, R557, R562): what holds the device, what lets it go, and that it stands as reset meanwhile. -/
namespace Sys2Proof.Machine

/-! The boot steps leave PORST_N's hold alone. -/

@[simp] theorem State.draw_coldHeld (s : State) : s.draw.2.coldHeld = s.coldHeld := (rfl)

@[simp] theorem State.freshNonce_coldHeld (s : State) : s.freshNonce.coldHeld = s.coldHeld := (rfl)

@[simp] theorem State.bootFail_coldHeld (s : State) (n : Nat) (code : Status) : (s.bootFail n code).coldHeld = s.coldHeld := (rfl)

@[simp] theorem State.bootStep9_coldHeld (s : State) : s.bootStep9.coldHeld = s.coldHeld := by
  unfold State.bootStep9
  dsimp only
  split
  · exact s.bootFail_coldHeld 9 _
  · split
    · exact s.bootFail_coldHeld 9 _
    · rfl

@[simp] theorem State.bootResume_coldHeld (s : State) : s.bootResume.coldHeld = s.coldHeld := by
  unfold State.bootResume
  split
  · exact s.bootStep9_coldHeld
  · rfl

@[simp] theorem State.bootFrom6_coldHeld (s : State) (bs : List Byte) (cold : Bool) : (s.bootFrom6 bs cold).coldHeld = s.coldHeld := by
  unfold State.bootFrom6
  dsimp only
  split
  · rfl
  · split
    · rfl
    · cases cold
      · split
        · rfl
        · simp
      · split
        · rfl
        · simp

@[simp] theorem State.bootFrom4_coldHeld (s : State) (cold : Bool) : (s.bootFrom4 cold).coldHeld = s.coldHeld := by
  unfold State.bootFrom4
  dsimp only
  split
  · rfl
  · split
    · rfl
    · exact s.bootFrom6_coldHeld _ cold

/-- PORST_N's rise changes nothing, or lets the device go. -/
theorem doColdResetRelease_cases (src recovery : Bool) (node : Nat) (medium : List Byte) (sound : Bool) (s : State) :
    doColdResetRelease src recovery node medium sound s = s ∨ (doColdResetRelease src recovery node medium sound s).coldHeld = false := by
  unfold doColdResetRelease
  dsimp only
  split_ifs
  · exact .inl rfl
  · exact .inr rfl
  · exact .inr rfl
  · exact .inr (by simp)

/-! The device as a cold reset leaves it. -/

/-- What no reset touches is all that the image depends on, so it is its own image. -/
theorem State.coldImage_coldImage (s : State) : s.coldImage.coldImage = s.coldImage := rfl

theorem State.coldWf_iff (s : State) : s.coldWf = true ↔ (s.coldHeld = true → s = s.coldImage) := by
  unfold State.coldWf
  cases s.coldHeld
  · simp
  · simp

theorem State.coldWf_of_released (s : State) (h : s.coldHeld = false) : s.coldWf = true :=
  s.coldWf_iff.mpr fun hc => by rw [h] at hc; cases hc

theorem State.coldWf_of_image {s x : State} (h : s = x.coldImage) : s.coldWf = true :=
  s.coldWf_iff.mpr fun _ => by rw [h, x.coldImage_coldImage]

/-- A cold reset is the image of the device with Coastguard, the rails' record and the outputs as after reset. -/
theorem State.coldReset_eq_coldImage (s : State) :
    s.coldReset = ({ s with out := [], reply := none, cg := CgState.reset, pmc := PmcState.reset } : State).coldImage := by
  unfold State.coldReset State.coldImage
  dsimp only
  split_ifs
  · rfl
  · rfl

/-- A loss of rails 12 or 13 is such an image too, with the trip's hold and a self-fault that are not reset. -/
theorem State.railReset_eq_coldImage (s : State) (rails : List Nat) : ∃ x : State, s.railReset rails = x.coldImage := by
  unfold State.railReset
  dsimp only
  rw [s.coldReset_eq_coldImage]
  split_ifs
  · exact ⟨{ s with out := [], reply := none, pmc := { PmcState.reset with tripHold := s.pmc.tripHold }
                    cg := { CgState.reset with selfFault := true, active := Nat.lor CgState.reset.active (2 ^ Cause.CG_SELF) } }, rfl⟩
  · exact ⟨{ s with out := [], reply := none, pmc := { PmcState.reset with tripHold := s.pmc.tripHold }, cg := CgState.reset }, rfl⟩

/-- A sample of the die sensors while a trip's hold outlives the cold reset changes what a cold reset leaves alone. -/
theorem doSensorSample_coldImage (temps : List Int) (s : State) (hh : s.pmc.tripHold = true) :
    ∃ x : State, doSensorSample temps s.coldImage = x.coldImage ∧ x.pending = s.pending := by
  unfold doSensorSample
  dsimp only
  generalize (List.range 32).map (fun k => temps.getD k 0) = ts
  generalize (enum ts).filterMap _ = over'
  let u := s.modPmc (fun p => { p with temps := ts.map some, tripOnce := over' })
  have hu : s.coldImage.modPmc (fun p => { p with temps := ts.map some, tripOnce := over' }) = u.coldImage := rfl
  have hcold : u.coldImage.coldHeld = true := rfl
  have htrip : u.coldImage.trip = u.coldImage := if_pos hh
  have hend : ∃ x : State, u.coldImage.tripEnd = x.coldImage ∧ x.pending = s.pending :=
    ⟨(u.modPmc (fun p => { p with tripHold := false, tripOnce := [] })).emit (.pin "THERMTRIP_N" true), rfl, rfl⟩
  rw [hu, if_pos hcold, htrip]
  split_ifs
  · exact ⟨u, rfl, rfl⟩
  · exact hend
  · exact ⟨u, rfl, rfl⟩

theorem State.coldImage_begin (s : State) : s.coldImage.begin = s.begin.coldImage := rfl

/-- A sample of the die sensors keeps the image: the sensors' record is no part of it. -/
theorem execSensorSample_coldWf (temps : List Int) (s t : State) (h : execSensorSample temps s.coldImage = .next t) : t.coldWf = true := by
  have hcold : s.coldImage.coldHeld = true := rfl
  unfold execSensorSample at h
  cases hh : s.coldImage.pmc.tripHold with
  | false =>
    rw [hcold, hh] at h
    cases h
    exact State.coldWf_of_image (x := s.begin) rfl
  | true =>
    rw [hcold, hh] at h
    obtain ⟨x, hx, hp⟩ := doSensorSample_coldImage temps s.begin hh
    change keep s.coldImage (doSensorSample temps s.begin.coldImage) = _ at h
    rw [hx] at h
    cases h
    exact State.coldWf_of_image (x := { x with pending := s.pending }) rfl

/-- While PORST_N is low, every command leaves the device as a cold reset does, or lets it go. -/
theorem exec_coldImage_coldWf (c : Instr) (s t : State) (h : exec c s.coldImage = .next t) : t.coldWf = true := by
  have hcold : s.coldImage.coldHeld = true := rfl
  cases hc : c.actsInColdReset with
  | false =>
    rw [exec_of_coldHeld c _ hcold hc] at h
    cases h
    exact State.coldWf_of_image s.coldImage_begin
  | true =>
    cases c
    case coldReset ns =>
      rw [exec, execColdReset] at h
      split_ifs at h
      · cases h
        exact State.coldWf_of_image (x := s.begin) rfl
      · rw [State.coldReset_eq_coldImage] at h
        cases h
        exact State.coldWf_of_image (x := { s with out := [], reply := none, cg := CgState.reset, pmc := PmcState.reset }) rfl
    case coldResetRelease src recovery node medium sound =>
      rcases doColdResetRelease_cases src recovery node medium sound s.coldImage.begin with e | e
      · rw [exec, execColdResetRelease, e] at h
        cases h
        exact State.coldWf_of_image s.coldImage_begin
      · cases h
        exact State.coldWf_of_released _ e
    case warmRstN samples =>
      rw [exec, execWarmRstN, if_pos (.inl hcold)] at h
      cases h
      exact State.coldWf_of_image s.coldImage_begin
    case warmRstNRelease =>
      rw [exec, execWarmRstNRelease, if_pos hcold] at h
      cases h
      exact State.coldWf_of_image s.coldImage_begin
    case railFault rails =>
      rw [exec, execRailFault, if_neg (by simp [hcold]), if_pos hcold] at h
      cases h
      exact State.coldWf_of_image s.coldImage_begin
    case sensorSample temps => exact execSensorSample_coldWf temps s t h
    all_goals cases hc

/-- While PORST_N is high, a command that asserts the cold reset leaves the device as it must. -/
theorem exec_released_coldWf (c : Instr) (s t : State) (hs : s.coldHeld = false) (h : exec c s = .next t) : t.coldWf = true := by
  by_cases hk : c.keepsReset = true
  · obtain ⟨u, hu⟩ := exec_eq_after c hk s
    cases hu.symm.trans h
    exact State.coldWf_of_released _ hs
  · cases c
    case coldReset ns =>
      rw [exec, execColdReset] at h
      split_ifs at h
      · cases h
        exact State.coldWf_of_released _ hs
      · rw [State.coldReset_eq_coldImage] at h
        cases h
        exact State.coldWf_of_image (x := { s with out := [], reply := none, cg := CgState.reset, pmc := PmcState.reset }) rfl
    case coldResetRelease src recovery node medium sound =>
      cases h
      refine State.coldWf_of_released _ ?_
      rcases doColdResetRelease_cases src recovery node medium sound s.begin with e | e
      · exact (congrArg State.coldHeld e).trans hs
      · exact e
    case harbourTimeStep =>
      rw [exec, execHarbourTimeStep, if_neg (by simp [hs])] at h
      cases h
      exact State.coldWf_of_released _ ((doHarbourTimeStep_now s.begin).2.trans hs)
    case railFault rails =>
      rw [exec, execRailFault] at h
      split_ifs at h
      · obtain ⟨x, hx⟩ := s.begin.railReset_eq_coldImage rails
        rw [hx] at h
        cases h
        exact State.coldWf_of_image (x := { x with pending := s.pending }) rfl
      · cases h
        exact State.coldWf_of_released _ hs
      · cases h
        exact State.coldWf_of_released _ hs
    all_goals exact absurd rfl hk

/-- Every command keeps the device as a cold reset leaves it while PORST_N is low. -/
theorem exec_coldWf (c : Instr) (s t : State) (hs : s.coldWf = true) (h : exec c s = .next t) : t.coldWf = true := by
  cases hc : s.coldHeld with
  | false => exact exec_released_coldWf c s t hc h
  | true =>
    rw [s.coldWf_iff.mp hs hc] at h
    exact exec_coldImage_coldWf c s t h

/-- So does an idle cycle. -/
theorem State.idle_coldWf (s : State) (hs : s.coldWf = true) : s.idle.coldWf = true := by
  cases hc : s.coldHeld with
  | false =>
    rw [s.idle_of_running hc]
    exact State.coldWf_of_released _ hc
  | true =>
    rw [s.idle_of_coldHeld hc, s.coldWf_iff.mp hs hc]
    exact State.coldWf_of_image s.coldImage_begin

end Sys2Proof.Machine

open Sys2Proof Sys2Proof.Machine

/-- Settles O5: by the commands that act while PORST_N is low and those that assert it, with the queue as `done` answers it. -/
theorem coldResetHoldsTheDevice : Obligations.ColdResetHoldsTheDevice := by
  intro s t hs hp h
  unfold step at h
  split at h
  next c rest hq =>
    have hs' : ({ s with pending := rest } : State).coldWf = true := by
      refine State.coldWf_iff _ |>.mpr fun hc => ?_
      exact congrArg (fun x : State => { x with pending := rest }) (s.coldWf_iff.mp hs hc)
    refine ⟨exec_coldWf c _ t hs' h, ?_⟩
    obtain ⟨u, hu⟩ := exec_eq_done c { s with pending := rest }
    cases hu.symm.trans h
    rw [State.pendingWf, hq] at hp
    exact (Bool.and_eq_true _ _ ▸ hp).2
  next hq =>
    cases h
    refine ⟨s.idle_coldWf hs, ?_⟩
    cases hc : s.coldHeld with
    | false => rw [s.idle_of_running hc]; exact hp
    | true => rw [s.idle_of_coldHeld hc]; exact hp

end

section
/-! Bus accesses of aligned words: what each branch of a read and of a write answers (R11, R13, R17, R20, R150). -/
namespace Sys2Proof.Machine

/-! What an access reads of the state does not depend on the outputs and the reply of the last command. -/

theorem State.view_begin (s : State) (a : Nat) : s.begin.view a = s.view a := rfl

theorem State.mayHold_begin (s : State) (a i : Nat) (v : Word) : s.begin.mayHold a i v = s.mayHold a i v := rfl

/-- A reserved offset: a write is ignored and counted. -/
theorem State.busWrite_of_reserved (s : State) (ini : Initiator) (a : Nat) (v same : Word) (hb : blockOf a < 23) (ha : a % 4 = 0)
    (hr : regRow a = none) : s.busWrite ini a 4 v same = (s.ignoredWrite a).answer St.OK := by
  unfold State.busWrite
  rw [if_neg (Nat.not_le.mpr hb), if_neg (by omega)]
  simp only [hr]

/-- A reserved offset reads zero. -/
theorem State.busRead_of_reserved (s : State) (a : Nat) (same : Word) (hb : blockOf a < 23) (ha : a % 4 = 0) (hr : regRow a = none) :
    s.busRead a 4 same = s.answer St.OK := by
  unfold State.busRead
  rw [if_neg (Nat.not_le.mpr hb), if_neg (by omega)]
  simp only [hr]

section
variable {a i : Nat} {r : RegRow} (ha : a % 4 = 0) (hr : regRow a = some (r, i))
include ha hr

/-- A write that only stores its value, outside the pairs, stores it. -/
theorem State.busWrite_plain (s : State) (ini : Initiator) (v same : Word) (hm : s.mayWrite ini a r i = true) (hw : r.acc = .rw ∨ r.acc = .rwd)
    (hl : isLo a = false) (hh : isHi a = false) (hv : s.mayHold a i (v &&& w32 r.mask) = true)
    (hs : s.writeSpecial ini a i (v &&& w32 r.mask) same = none) :
    s.busWrite ini a 4 v same = (s.setReg a (v &&& w32 r.mask)).answer St.OK := by
  have hb := blockOf_lt_of_regRow hr
  have h1 : r.acc ≠ .w1c := by rcases hw with h | h <;> simp [h]
  have h2 : r.acc ≠ .wo := by rcases hw with h | h <;> simp [h]
  unfold State.busWrite
  rw [if_neg (Nat.not_le.mpr hb), if_neg (by omega)]
  simp [hr, hm, h1, h2, hl, hh, hv, hs]

/-- A read of a _LO register captures the pair. -/
theorem State.busRead_lo (s : State) (same : Word) (hc : ctxFrame? a = none) (hl : isLo a = true) : s.busRead a 4 same = s.captureLo a := by
  have hb := blockOf_lt_of_regRow hr
  unfold State.busRead
  rw [if_neg (Nat.not_le.mpr hb), if_neg (by omega)]
  simp [hr, hc, hl]

/-- A read of a _HI register returns the captured high half or the live one. -/
theorem State.busRead_hi (s : State) (same : Word) (hc : ctxFrame? a = none) (hl : isLo a = false) (hh : isHi a = true) :
    s.busRead a 4 same = s.answer St.OK (s.readHi a) := by
  have hb := blockOf_lt_of_regRow hr
  unfold State.busRead
  rw [if_neg (Nat.not_le.mpr hb), if_neg (by omega)]
  simp [hr, hc, hl, hh]

/-- A read of any other register that no read clears returns its value. -/
theorem State.busRead_plain (s : State) (same : Word) (hc : ctxFrame? a = none) (hl : isLo a = false) (hh : isHi a = false)
    (hw : r.acc ≠ .rc) : s.busRead a 4 same = s.answer St.OK (s.view a).toNat := by
  have hb := blockOf_lt_of_regRow hr
  unfold State.busRead
  rw [if_neg (Nat.not_le.mpr hb), if_neg (by omega)]
  simp [hr, hc, hl, hh, hw]

end

/-! Whom the access code turns away (R11). -/

theorem State.mayWrite_of_readOnly (s : State) (ini : Initiator) (a i : Nat) (r : RegRow) (h : r.acc = .ro ∨ r.acc = .rc) :
    s.mayWrite ini a r i = false := if_pos h

theorem State.mayWrite_of_rwd (s : State) (ini : Initiator) (a i : Nat) (r : RegRow) (h : r.acc = .rwd) :
    s.mayWrite ini a r i = match s.regOwner a with
      | some q => s.quays[q].st.rwdOpen
      | none => false :=
  (if_neg (by simp [h])).trans (if_pos h)

theorem QState.rwdOpen_of_ne (st : QState) (h1 : st ≠ .docked) (h2 : st ≠ .empty) : st.rwdOpen = false := by
  cases st
  case docked => exact absurd rfl h1
  case empty => exact absurd rfl h2
  all_goals rfl

/-- An RWD register whose owning quay is neither DOCKED nor EMPTY takes no write. -/
theorem State.mayWrite_of_rwd_closed (s : State) (ini : Initiator) (a i : Nat) (r : RegRow) (h : r.acc = .rwd)
    (hq : ∀ q, s.regOwner a = some q → s.quays[q].st ≠ .docked ∧ s.quays[q].st ≠ .empty) : s.mayWrite ini a r i = false := by
  rw [s.mayWrite_of_rwd ini a i r h]
  cases ho : s.regOwner a with
  | none => rfl
  | some q => exact QState.rwdOpen_of_ne _ (hq q ho).1 (hq q ho).2

/-! The register table. -/

theorem mem_of_findRow {o i : Nat} {r : RegRow} {rows : List RegRow} (h : findRow o rows = some (r, i)) : r ∈ rows := by
  induction rows with
  | nil => cases h
  | cons x rows ih =>
    rw [findRow] at h
    split at h
    · cases h
      exact List.mem_cons_self
    · exact List.mem_cons_of_mem _ (ih h)

/-- A register's row stands in its block's table or in the common header. -/
theorem mem_of_regRow {a i : Nat} {r : RegRow} (h : regRow a = some (r, i)) :
    blockOf a < 23 ∧ (r ∈ headerRows (blockOf a) ∨ r ∈ blockRows (blockOf a)) := by
  refine ⟨blockOf_lt_of_regRow h, ?_⟩
  unfold regRow at h
  split_ifs at h
  · exact .inl (mem_of_findRow h)
  · exact .inr (mem_of_findRow h)

/-- A row with the access code RWD names its owner. -/
def RegRow.ownedIfRwd (r : RegRow) : Bool := !decide (r.acc = .rwd) || !decide (r.own = .none)

theorem headerRows_owned : ∀ b < 23, (headerRows b).all RegRow.ownedIfRwd = true := by decide
theorem blockRows_owned : ∀ b < 23, (blockRows b).all RegRow.ownedIfRwd = true := by decide

/-! Pairs. -/

/-- CAMRX_CTX_FRAME is no half of a pair. -/
theorem ctxFrame_not_lo : ∀ c ∈ List.range 24, isLo (Reg.CAMRX_CTX_FRAME c) = false := by decide

theorem ctxFrame?_of_isLo {a : Nat} (h : isLo a = true) : ctxFrame? a = none := by
  unfold ctxFrame?
  rw [List.find?_eq_none]
  rintro c hc ha
  rw [of_decide_eq_true ha, ctxFrame_not_lo c hc] at h
  cases h

/-- A held low half takes effect: its register holds it, every other is as before, and nothing is held for the pair. -/
theorem State.commitLo_of_held (s : State) (a : Nat) (w : Word) (h : s.heldLo.get noHeld a = some w) :
    s.commitLo a = { (s.setReg a w) with heldLo := s.heldLo.set noHeld a none } := by
  rw [State.commitLo, h]

theorem four_le_of_isHi {a : Nat} (h : isHi a = true) : 4 ≤ a := by
  unfold isHi at h
  rw [Bool.and_eq_true] at h
  exact of_decide_eq_true h.1

theorem isHi_add_four (a : Nat) : isHi (a + 4) = isLo a := by
  rw [isHi, Nat.add_sub_cancel, decide_eq_true (Nat.le_add_left 4 a), Bool.true_and]

theorem exec_ctxFrameRead (s : State) (c : Fin 24) (h : s.awake = true) :
    exec (.ctxFrameRead c) s = .next (s.after (doCtxFrameRead c s.begin)) := act_eq _ s h

end Sys2Proof.Machine

open Sys2Proof Sys2Proof.Machine

/-- Settles O9: a reserved offset has no row, and the access code turns the other writes away. -/
theorem reservedAndForbiddenWritesAreCounted : Obligations.ReservedAndForbiddenWritesAreCounted := by
  refine ⟨fun s ini a v same hs hb ha hr => ⟨?_, ?_⟩, fun s ini a v same r i hs ha hr hacc => ?_⟩
  · rw [exec_rcRead s ini a 4 same hs, State.busRead_of_reserved _ a same hb ha hr]
  · rw [exec_registerWrite s ini a 4 v same hs, State.busWrite_of_reserved _ ini a v same hb ha hr]
  · have hm : s.begin.mayWrite ini a r i = false := by
      rw [s.mayWrite_begin]
      rcases hacc with h | h | ⟨h, hq⟩
      · exact s.mayWrite_of_readOnly ini a i r (.inl h)
      · exact s.mayWrite_of_readOnly ini a i r (.inr h)
      · exact s.mayWrite_of_rwd_closed ini a i r h hq
    rw [exec_registerWrite s ini a 4 v same hs, State.busWrite_of_not_mayWrite ha hr _ ini v same hm]

/-- Settles O10: such a write takes the last branch of the bus write. -/
theorem plainWriteStoresUnreservedBits : Obligations.PlainWriteStoresUnreservedBits := by
  intro s ini a v same r i hs ha hr hacc hm hl hh hv hspecial
  have hwrite := State.busWrite_plain ha hr s.begin ini v same ((s.mayWrite_begin ini a r i).trans hm) hacc hl hh
    ((s.mayHold_begin a i _).trans hv) hspecial
  refine ⟨_, exec_registerWrite s ini a 4 v same hs, by rw [hwrite], ?_, fun b hb => ?_⟩
  · rw [State.after_reg, hwrite, State.answer_reg, State.reg_setReg_same]
  · rw [State.after_reg, hwrite, State.answer_reg, State.reg_setReg_ne _ _ _ _ hb, State.begin_reg]

/-- Settles O11: every row of the tables with the access code RWD names its owner. -/
theorem rwdRegistersBelongToQuays : Obligations.RwdRegistersBelongToQuays := by
  intro a r i hr hacc
  obtain ⟨hb, hrow⟩ := mem_of_regRow hr
  have hown : r.ownedIfRwd = true := by
    rcases hrow with h | h
    · exact List.all_eq_true.mp (headerRows_owned _ hb) r h
    · exact List.all_eq_true.mp (blockRows_owned _ hb) r h
  intro hn
  simp [RegRow.ownedIfRwd, hacc, hn] at hown

/-- Settles O13: the four branches of the accesses that see halves. -/
theorem pairsCaptureHoldAndCommit : Obligations.PairsCaptureHoldAndCommit := by
  refine ⟨?_, ?_, ?_, ?_⟩
  · intro s ini a r i hs ha hr hl v t
    refine ⟨?_, ?_⟩
    · rw [exec_loCaptureRead s ini a hs, State.busRead_lo ha hr _ _ (ctxFrame?_of_isLo hl) hl]
      rfl
    · rw [exec_rcRead s ini a 4 _ hs, State.busRead_lo ha hr _ _ (ctxFrame?_of_isLo hl) hl]
      rfl
  · intro s ini a r i same hs ha hr hlo hl hc
    have hh : isHi (a + 4) = true := (isHi_add_four a).trans hlo
    rw [exec_rcRead s ini (a + 4) 4 same hs, State.busRead_hi (by omega) hr _ _ hc hl hh]
    rfl
  · intro s ini a v same r i hs ha hr hw hm hl
    rw [exec_registerWrite s ini a 4 v same hs,
      State.busWrite_lo ha hr _ ini v same ((s.mayWrite_begin ini a r i).trans hm) (by simp [hw]) hl]
    rfl
  · intro s ini a v w r i hs ha hr hw hm hl hh hv hheld hspecial
    have h4 := four_le_of_isHi hh
    have hne : a - 4 ≠ a := by omega
    have hwrite := State.busWrite_hi ha hr s.begin ini v 0#32 ((s.mayWrite_begin ini a r i).trans hm) hw hl hh
      ((s.mayHold_begin a i _).trans hv) hspecial
    rw [State.commitLo_of_held s.begin _ w hheld] at hwrite
    have hreg : ∀ b, ((s.begin.busWrite ini a 4 v 0#32)).reg b =
        if b = a then v &&& w32 r.mask else if b = a - 4 then w else s.reg b := by
      intro b
      rw [hwrite, State.answer_reg, State.reg_setReg]
      exact congrArg _ (State.reg_setReg s.begin (a - 4) w b)
    refine ⟨_, exec_hiWriteCommit s ini a v hs, ?_, ?_, fun b h1 h2 => ?_, ?_⟩
    · rw [State.after_reg, hreg, if_neg hne, if_pos rfl]
    · rw [State.after_reg, hreg, if_pos rfl]
    · rw [State.after_reg, hreg, if_neg h1, if_neg h2]
    · rw [State.after_heldLo, hwrite]
      exact Tab.get_set_same noHeld s.heldLo (a - 4) none

/-- Settles O14: the read's last branch, and the capture of a context's frame. -/
theorem readsReturnTheValueAndChangeNoRegister : Obligations.ReadsReturnTheValueAndChangeNoRegister := by
  refine ⟨fun s ini a same r i hs ha hr hw hl hh hc => ?_, fun s c hs => ?_⟩
  · rw [exec_rcRead s ini a 4 same hs, State.busRead_plain ha hr _ same hc hl hh hw, s.view_begin]
  · exact exec_ctxFrameRead s c hs

/-- Settles O17: the opcodes 1 to 6 name the six commands in their order. -/
theorem quayCommandRegisterRunsTheCommands : Obligations.QuayCommandRegisterRunsTheCommands := by
  intro s q ini same hs
  have hwrite : ∀ v : Word, exec (.registerWrite ini (Reg.HM_QUAY_CMD q) 4 v same) s =
      act (fun t => t.writeQuayCmd ini q (v.toNat % 16)) s := by
    intro v
    rw [exec_registerWrite s ini _ 4 v same hs, State.busWrite_quayCmd, act_eq _ s hs]
  exact ⟨hwrite _, hwrite _, hwrite _, hwrite _, hwrite _, hwrite _⟩
end

section
/-! gPTP and held steps (R40, R41, R461, R462). -/
namespace Sys2Proof.Machine

theorem exec_gptpMessage (s : State) (port : Fin 5) (b : List Byte) (sent : Nat) (h : s.awake = true) :
    exec (.gptpMessage port b sent) s = .next (s.after (doGptpMessage port b sent s.begin)) := act_eq _ s h

section
variable {b : List Byte} (hlen : 44 ≤ b.length) (hdom : beAt b 4 1 = 0)
include hlen hdom

/-- A message of domain 0 long enough to hold its fields is not turned away. -/
theorem gptp_sound (port : Fin 5) : ¬(b.length < 44 ∨ beAt b 4 1 ≠ 0 ∨ port.val > 4) := by
  have := port.isLt
  omega

theorem doGptpMessage_sync (s : State) (port : Fin 5) (sent : Nat) (ht : beAt b 0 1 % 16 = 0) (hm : s.gptp.master.isSome = true)
    (hp : s.gptp.port = port.val) :
    doGptpMessage port b sent s = { s with gptp := { s.gptp with sync := some (port.val, beAt b 30 2, s.time.now) } } := by
  unfold doGptpMessage
  rw [if_neg (gptp_sound hlen hdom port)]
  simp only [ht]
  exact if_pos ⟨hm, hp⟩

theorem doGptpMessage_followUp (s : State) (port : Fin 5) (sent at' : Nat) (ht : beAt b 0 1 % 16 = 8)
    (hy : s.gptp.sync = some (port.val, beAt b 30 2, at')) :
    doGptpMessage port b sent s = ({ s with gptp := { s.gptp with sync := none } } : State).correct
      (ptpStamp b 34 + ptpCorrection b + s.gptp.delays.getD port 0 + s.asymmetry port - at') := by
  unfold doGptpMessage
  rw [if_neg (gptp_sound hlen hdom port)]
  simp only [ht, hy]
  exact if_neg (by simp)

theorem doGptpMessage_pdelayReq (s : State) (port : Fin 5) (sent : Nat) (ht : beAt b 0 1 % 16 = 2) :
    doGptpMessage port b sent s = s.emit (.note "PDELAY_RESP" port (beAt b 30 2)) := by
  unfold doGptpMessage
  rw [if_neg (gptp_sound hlen hdom port)]
  simp only [ht]

theorem doGptpMessage_pdelayResp (s : State) (port : Fin 5) (sent : Nat) (ht : beAt b 0 1 % 16 = 3) :
    doGptpMessage port b sent s = { s with gptp := { s.gptp with pdelay := some (port.val, ptpStamp b 34, s.time.now) } } := by
  unfold doGptpMessage
  rw [if_neg (gptp_sound hlen hdom port)]
  simp only [ht]

theorem doGptpMessage_pdelayFollowUp (s : State) (port : Fin 5) (sent t2 t4 : Nat) (ht : beAt b 0 1 % 16 = 10)
    (hy : s.gptp.pdelay = some (port.val, t2, t4)) :
    doGptpMessage port b sent s = { s with gptp := { s.gptp with
      pdelay := none
      delays := setAt s.gptp.delays port ((((t4 : Int) - sent - ((ptpStamp b 34 : Int) - t2)) / 2).toNat) } } := by
  unfold doGptpMessage
  rw [if_neg (gptp_sound hlen hdom port)]
  simp only [ht, hy]
  exact if_neg (by simp)

end

/-- A correction of harbour time is slewed, or is a step held (R41). -/
theorem State.correct_cases (s : State) (d : Int) :
    ∃ u : TimeState, s.correct d = { s with time := u, free := s.free + 1 } ∧ u.now = s.time.now ∧
      ((u.step = none ∧ u.slew = d ∧ u.locked = true) ∨ (u.step = some d ∧ d ≠ 0 ∧ u.slew = s.time.slew ∧ u.locked = false)) := by
  unfold State.correct State.draw
  dsimp only
  split_ifs with h
  · exact ⟨_, rfl, rfl, .inr ⟨rfl, h.1, rfl, rfl⟩⟩
  · exact ⟨_, rfl, rfl, .inl ⟨rfl, rfl, rfl⟩⟩

theorem State.stepHeld_iff (s : State) : s.stepHeld = true ↔ ∃ q : Fin 4, s.quays[q].st = .running ∨ s.quays[q].st = .docking := by
  rw [State.stepHeld, State.anyQuay_iff]
  simp only [decide_eq_true_eq]

theorem exec_harbourTimeStep (s : State) (h : s.coldHeld = false) : exec .harbourTimeStep s = done s (doHarbourTimeStep s.begin) := by
  rw [exec, execHarbourTimeStep, if_neg (by simp [h])]

theorem doLossOfLock_of_bound (s : State) (h : s.time.locked = true)
    (hb : s.onnak.binds.any (fun b => decide (b.st = .bound)) = true) :
    doLossOfLock s = ({ s with time := { s.time with locked := false } } : State).setEvent Reg.ONNAK_EVENT 16 := by
  rw [doLossOfLock, if_neg (by simp [h])]
  exact if_pos hb

theorem doLossOfLock_of_unbound (s : State) (h : s.time.locked = true)
    (hb : s.onnak.binds.any (fun b => decide (b.st = .bound)) = false) :
    doLossOfLock s = { s with time := { s.time with locked := false } } := by
  rw [doLossOfLock, if_neg (by simp [h])]
  exact if_neg (by simpa using hb)

theorem flag_w32_or (x : Word) (n k : Nat) (hk : k < 32) (hn : n.testBit k = true) : flag (x ||| w32 n) k = true := by
  rw [flag_or, flag, flag, w32, BitVec.getLsbD_ofNat, hn, decide_eq_true hk, Bool.and_true, Bool.or_true]

end Sys2Proof.Machine

open Sys2Proof Sys2Proof.Machine

/-- Settles O18: one branch for each type of message. -/
theorem gptpMessagesSetTheCorrection : Obligations.GptpMessagesSetTheCorrection := by
  refine ⟨?_, ?_, ?_, ?_, ?_⟩
  · intro s port b sent hs hlen hdom ht hm hp
    rw [exec_gptpMessage s port b sent hs, doGptpMessage_sync hlen hdom s.begin port sent ht hm hp]
    rfl
  · intro s port b sent at' hs hlen hdom ht hy d
    rw [exec_gptpMessage s port b sent hs, doGptpMessage_followUp hlen hdom s.begin port sent at' ht hy]
    obtain ⟨u, hu, hnow, hcases⟩ := State.correct_cases ({ s.begin with gptp := { s.begin.gptp with sync := none } } : State) d
    exact ⟨u, congrArg (fun x => Host.Outcome.next (s.after x)) hu, hcases⟩
  · intro s port b sent hs hlen hdom ht
    rw [exec_gptpMessage s port b sent hs, doGptpMessage_pdelayReq hlen hdom s.begin port sent ht]
  · intro s port b sent hs hlen hdom ht
    rw [exec_gptpMessage s port b sent hs, doGptpMessage_pdelayResp hlen hdom s.begin port sent ht]
    rfl
  · intro s port b sent t2 t4 hs hlen hdom ht hy
    rw [exec_gptpMessage s port b sent hs, doGptpMessage_pdelayFollowUp hlen hdom s.begin port sent t2 t4 ht hy]
    rfl

/-- Settles O19: a held step waits or is applied, and the loss of lock sets one event. -/
theorem heldStepsWaitForTheQuays : Obligations.HeldStepsWaitForTheQuays := by
  refine ⟨fun s d hc hd hq => ?_, fun s d hc hd hq => ?_, fun s hs hl => ?_⟩
  · rw [exec_harbourTimeStep s hc, doHarbourTimeStep_of_held s.begin (s.stepHeld_iff.mpr hq)]
    rfl
  · have hfree : s.begin.stepHeld = false := by
      rw [← Bool.not_eq_true, State.stepHeld_iff]
      rintro ⟨q, h⟩
      exact h.elim (hq q).1 (hq q).2
    obtain ⟨e, he⟩ := doHarbourTimeStep_applied s.begin d hd hfree
    refine ⟨_, (exec_harbourTimeStep s hc).trans (congrArg (done s) he), rfl, fun h0 => ⟨?_, ?_⟩, fun h0 => ⟨?_, ?_⟩, rfl, rfl, rfl, rfl⟩
    · simp [TimeState.stepped, h0]
    · simp [TimeState.stepped, h0]
    · simp [TimeState.stepped, h0.le]
    · simp [TimeState.stepped, h0.le]
  · cases hb : s.onnak.binds.any (fun b => decide (b.st = .bound)) with
    | true =>
      have hlost := doLossOfLock_of_bound s.begin hl hb
      refine ⟨_, act_eq_of hs hlost, ?_, ?_, ?_, ?_, fun _ => ?_, nofun⟩
      · simp [State.after]
      · simp
      · simp
      · simp
      · rw [State.after_reg, State.reg_setEvent_same]
        exact flag_w32_or _ 16 4 (by decide) (by decide)
    | false =>
      have hlost := doLossOfLock_of_unbound s.begin hl hb
      exact ⟨_, act_eq_of hs hlost, rfl, rfl, rfl, rfl, nofun, fun _ => rfl⟩
end

section
/-! Rejected quay commands (R51, R70, R78) and the fault FIFO (R106, R122). -/
namespace Sys2Proof.Machine

theorem State.judgeCmd_of_not_accepted (s : State) (q : Fin 4) (ini : Initiator) (c : QCmd) (h : s.quays[q].st.accepts c = false) :
    s.judgeCmd q ini c = some St.BAD_STATE := if_pos (by simp only [h, Bool.not_false])

/-- A command in progress: BUSY for every other command than RESET that is not fenced. -/
theorem State.judgeCmd_of_busy (s : State) (q : Fin 4) (ini : Initiator) (c : QCmd) (hacc : s.quays[q].st.accepts c = true) (hc : c ≠ .reset)
    (hbusy : s.quays[q].busy.isSome = true)
    (hopen : q ≠ 0 ∨ ini = .cg ∨ ini = .salvage ∨ c = .load ∨ c = .start ∨ flag (s.reg Reg.CG_Q0_GUARD) 0 = true) :
    s.judgeCmd q ini c = some St.BUSY := by
  have hfence : ¬(q = 0 ∧ ini ≠ .cg ∧ ini ≠ .salvage ∧ c ≠ .load ∧ c ≠ .start ∧ (!flag (s.reg Reg.CG_Q0_GUARD) 0) = true) := by
    rintro ⟨hq, hcg, hsalv, hload, hstart, hflag⟩
    simp [hq, hcg, hsalv, hload, hstart] at hopen
    simp [hopen] at hflag
  rw [State.judgeCmd, if_neg (by simp only [hacc, Bool.not_true, Bool.false_eq_true, not_false_eq_true]), if_neg hfence, if_pos ⟨hc, hbusy⟩]

theorem State.pushFault_of_room (s : State) (q : Fin 4) (stage : Nat) (st : Status) (n : FrameNo) (h : s.faultFifo.length < 32) :
    s.pushFault q stage st n =
      { (s.bump (Reg.HM_QUAY_STAGE_FAULT_COUNT q)) with faultFifo := s.faultFifo ++ [⟨stage, st, q.val, n⟩] } := by
  rw [State.pushFault, if_neg (by simpa using h)]
  simp only [State.bump_faultFifo]

theorem State.pushFault_of_full (s : State) (q : Fin 4) (stage : Nat) (st : Status) (n : FrameNo) (h : 32 ≤ s.faultFifo.length) :
    s.pushFault q stage st n = (s.bump (Reg.HM_QUAY_STAGE_FAULT_COUNT q)).bump Reg.HM_FAULT_LOST_COUNT := by
  rw [State.pushFault, if_pos (by simpa using h)]

end Sys2Proof.Machine

open Sys2Proof Sys2Proof.Machine

/-- Settles O20: the state is judged before the guard of quay 0, and the guard before the command in progress. -/
theorem illegalQuayCommandsAreBadState : Obligations.IllegalQuayCommandsAreBadState := by
  refine ⟨fun s q ini c hs hacc => ?_, fun s q ini c hs hacc hc hbusy hopen => ?_, fun c st => ?_⟩
  · rw [exec_quayCmd s q ini c hs, State.quayCmd_rejected _ q ini c _ _ (s.begin.judgeCmd_of_not_accepted q ini c hacc)]
    rfl
  · rw [exec_quayCmd s q ini c hs, State.quayCmd_rejected _ q ini c _ _ (s.begin.judgeCmd_of_busy q ini c hacc hc hbusy hopen),
      State.rejectCmd_of_ne _ q _ (by decide)]
  · cases c <;> cases st <;> decide

/-- Settles O31: FIFO below and at its bound, and a pop. -/
theorem faultFifoKeepsTheOldest : Obligations.FaultFifoKeepsTheOldest :=
  ⟨State.pushFault_of_room, State.pushFault_of_full, fun s hs => act_eq doFaultPop s hs⟩
end

section
/-! Engine accesses to berths: what a read, a write, a tag write and a signal come to (R118, R372, R373, R379, R387). -/
namespace Sys2Proof.Machine

section
variable {s : State} {r : BerthReq}

theorem doEngineBerthRead_of_fenced (h : s.handleFenced r.tag = true) : doEngineBerthRead r s = s.answerFenced r.tag := if_pos h

theorem doEngineBerthRead_of_stale (hf : s.handleFenced r.tag = false) (h : s.staleTide r.tag = true ∨ s.berthOwned r.tag r.berth = false) :
    doEngineBerthRead r s = s.dropStale r.tag := by
  unfold doEngineBerthRead
  rw [if_neg (by simp [hf]), if_pos (by simpa using h)]

variable (hf : s.handleFenced r.tag = false) (hst : s.staleTide r.tag = false) (ho : s.berthOwned r.tag r.berth = true)
include hf hst ho

theorem doEngineBerthRead_of_ready (h : s.isGated (bankOf r.berth) = true ∨ s.berthReady r.berth r.carries = true) :
    doEngineBerthRead r s = s.issueRead r := by
  unfold doEngineBerthRead
  rw [if_neg (by simp [hf]), if_neg (by simp [hst, ho]), if_pos (by simpa using h)]

theorem doEngineBerthRead_of_held (hg : s.isGated (bankOf r.berth) = false) (hr : s.berthReady r.berth r.carries = false) :
    doEngineBerthRead r s = { s with mem := { s.mem with
      heldReads := s.mem.heldReads ++ [⟨r.tag, r.carries, r.berth, r.off, s.time.now⟩] } } := by
  unfold doEngineBerthRead
  rw [if_neg (by simp [hf]), if_neg (by simp [hst, ho]), if_neg (by simp [hg, hr])]
  rfl

end

theorem State.serveRead_of_clean {s : State} {r : BerthReq} (hg : s.isGated (bankOf r.berth) = false)
    (hm : s.anyMarked (berthAddr r.berth + r.off) 64 = false) :
    s.serveRead r = s.answer St.OK 0 (s.bytesAt (berthAddr r.berth + r.off) 64) false := by
  rw [State.serveRead, if_neg (by simp [hg])]
  simp only [hm, Bool.false_eq_true, if_false]

theorem State.issueRead_of_charged {s u : State} {r : BerthReq} (h : s.charge r.tag.quay (s.berthLanes r) 1 = some u) :
    s.issueRead r = u.serveRead r := by
  simp only [State.issueRead, h]

/-- The burst of a write's stream and quay that is open at its port (R387). -/
def State.openBurst (s : State) (r : BerthReq) : Option Burst :=
  s.mem.bursts.find? (fun b => b.port = 2 + berthDie r.berth && (match b.writes.head? with
    | some w => decide (w.stream = r.stream ∧ w.tag.quay = r.tag.quay)
    | none => false))

section
variable {s : State} {r : BerthReq} (hf : s.handleFenced r.tag = false) (hst : s.staleTide r.tag = false)
  (ho : s.berthOwned r.tag r.berth = true) (h1 : 1 ≤ r.data.length) (h64 : r.data.length ≤ 64)
include hf hst ho h1 h64

theorem doEngineBerthWrite_of_no_burst (h : s.openBurst r = none) : doEngineBerthWrite r s =
    { s with mem := { s.mem with bursts := s.mem.bursts ++ [⟨2 + berthDie r.berth, [r], s.time.now⟩] } } := by
  unfold doEngineBerthWrite
  rw [if_neg (by simp [hf]), if_neg (by simp [hst, ho]), if_neg (by omega)]
  dsimp only
  split
  next b hb => cases hb.symm.trans h
  next => rfl

theorem doEngineBerthWrite_of_other_burst {b : Burst} (h : s.openBurst r = some b) (ht : b.takes r = false) : doEngineBerthWrite r s =
    (s.flushBurst b).modMem (fun m => { m with bursts := m.bursts ++ [⟨2 + berthDie r.berth, [r], s.time.now⟩] }) := by
  unfold doEngineBerthWrite
  rw [if_neg (by simp [hf]), if_neg (by simp [hst, ho]), if_neg (by omega)]
  dsimp only
  split
  next b' hb' =>
    cases hb'.symm.trans h
    exact if_neg (by simp [ht])
  next hb => cases hb.symm.trans h

end

/-! A burst that goes leaves harbour time as it is. -/

theorem List.foldl_proj {α β γ : Type} {g : β → γ} {f : β → α → β} (h : ∀ b a, g (f b a) = g b) (l : List α) (b : β) :
    g (l.foldl f b) = g b :=
  List.foldl_keeps (fun x => g x = g b) f (fun x a hx => (h x a).trans hx) l b rfl

@[simp] theorem State.gather_time (s : State) (t : ReqTag) (st : Status) : (s.gather t st).time = s.time := by
  unfold State.gather
  split <;> rfl

@[simp] theorem State.countLines_time (s : State) (q : Nat) (l : Lane) (n : Nat) : (s.countLines q l n).time = s.time := rfl

theorem State.charge_time {s u : State} {q : Nat} {ls : List Lane} {n : Nat} (h : s.charge q ls n = some u) : u.time = s.time := by
  unfold State.charge at h
  split at h
  · cases h
    exact List.foldl_proj (by intro u l; rfl) ls s
  · cases h

@[simp] theorem State.berthWrite_time (s : State) (t : ReqTag) (b off : Nat) (bs : List Byte) (en : Nat) (p : Bool) :
    (s.berthWrite t b off bs en p).1.time = s.time := by
  unfold State.berthWrite
  split
  · rfl
  · dsimp only
    split <;> rfl

@[simp] theorem State.landWrite_time (s : State) (r : BerthReq) : (s.landWrite r).time = s.time := by
  simp only [State.landWrite, State.answer_time, State.gather_time, State.berthWrite_time]

@[simp] theorem State.issueBurst_time (s : State) (b : Burst) : (s.issueBurst b).time = s.time := by
  unfold State.issueBurst
  split
  · rfl
  · dsimp only
    split
    next u hu => rw [List.foldl_proj State.landWrite_time, State.charge_time hu, apply_ite State.time, State.bump_time, ite_self]
    next => rw [State.modMem_time, State.bump_time, apply_ite State.time, State.bump_time, ite_self]

@[simp] theorem State.flushBurst_time (s : State) (b : Burst) : (s.flushBurst b).time = s.time := State.issueBurst_time _ b

theorem doCombinerTimeout_of_due {s : State} {p : Nat} {b : Burst}
    (h : s.mem.bursts.find? (fun b => b.port = p && (match b.writes.head? with
      | some w => decide (16 ≤ s.cyclesSince (s.dieOf w.tag % 2) b.since)
      | none => true)) = some b) : doCombinerTimeout p s = s.flushBurst b := by
  unfold doCombinerTimeout
  split
  next b' hb' =>
    cases hb'.symm.trans h
    rfl
  next hb => cases hb.symm.trans h

/-- The judgement of a write to a berth its tag owns goes by the berth's state alone (R373). -/
theorem judgeWrite_of_owned {g : Word} {t : ReqTag} (ho : tagOwned g = true) (hq : tagQuay g = t.quay) (ht : tagTide g = t.tide.toNat) :
    judgeWrite g t = (if tagFull g = false then .store else if tagStatic g = true then .late
      else if tagNewer (t.frame.toNat % 16) (tagFrame g) = true then .reopen else .late) := by
  rw [judgeWrite, if_neg (by simp [ho, hq, ht])]
  simp only [Bool.not_eq_true']

end Sys2Proof.Machine

open Sys2Proof Sys2Proof.Machine

/-- Settles O32: one lemma per branch of the read. -/
theorem berthReadsAreServedHeldOrDropped : Obligations.BerthReadsAreServedHeldOrDropped := by
  refine ⟨fun s r hs => ⟨fun hf => ?_, fun hf h => ?_, fun hf hst ho h => ?_, fun hf hst ho hg hr => ?_⟩, fun s b n => ?_,
    fun s u r hu hg hm => ?_⟩
  · exact act_eq_of hs (doEngineBerthRead_of_fenced (s := s.begin) (r := { r with kind := .read }) hf)
  · exact act_eq_of hs (doEngineBerthRead_of_stale (s := s.begin) (r := { r with kind := .read }) hf h)
  · exact act_eq_of hs (doEngineBerthRead_of_ready (s := s.begin) (r := { r with kind := .read }) hf hst ho h)
  · exact act_eq_of hs (doEngineBerthRead_of_held (s := s.begin) (r := { r with kind := .read }) hf hst ho hg hr)
  · simp [State.berthReady, and_comm]
  · rw [State.issueRead_of_charged hu, State.serveRead_of_clean hg hm]

/-- Settles O33: the combiner of the write's port, its time-out, and the tag write behind it. -/
theorem berthWritesCombineAndTagWrites : Obligations.BerthWritesCombineAndTagWrites := by
  refine ⟨fun s r hs hf hst ho h1 h64 => ?_, fun s p b hs h => ?_, fun s t stream berth hs h => ?_, fun s t stream berth hs h => ?_,
    fun g t => judgeWrite_of_owned⟩
  · intro port w mine
    refine ⟨fun h => ?_, fun b h ht => ?_⟩
    · exact act_eq_of hs (doEngineBerthWrite_of_no_burst (s := s.begin) (r := w) hf hst ho h1 h64 h)
    · rw [State.flushBurst_time]
      exact act_eq_of hs (doEngineBerthWrite_of_other_burst (s := s.begin) (r := w) hf hst ho h1 h64 h ht)
  · exact act_eq_of hs (doCombinerTimeout_of_due (s := s.begin) h)
  · exact act_eq_of hs (if_neg (ne_true_of_eq_false h))
  · exact act_eq_of hs (if_pos h)

end

section
/-! Tag operations, firmware's berth writes and berth signals (R97, R372, R375). -/
namespace Sys2Proof.Machine

theorem State.tagOp_of_badState {s : State} {q : Fin 4} (op : TagOp) (h : s.quays[q].st ≠ .loaded ∧ s.quays[q].st ≠ .docked) :
    s.tagOp q op =
      ((s.bump (Reg.QUAY_SPAD_BAD_STATE_COUNT q)).put (Reg.QUAY_SPAD_TAG_STATUS q) St.BAD_STATE.toNat).answer St.BAD_STATE := if_pos h

section
variable {s : State} {q : Fin 4} {c : Chart} (op : TagOp) (hst : s.quays[q].st = .loaded ∨ s.quays[q].st = .docked)
  (hc : s.quays[q].chart = some c)
include hst hc

theorem State.tagOp_of_badRange (h : s.quays[q].tagRangeOk c (fld (s.reg (Reg.QUAY_SPAD_TAG_FIRST q)) 15 0)
      (fld (s.reg (Reg.QUAY_SPAD_TAG_COUNT q)) 15 0) = false) :
    s.tagOp q op = (s.put (Reg.QUAY_SPAD_TAG_STATUS q) St.REFUSED.toNat).answer St.REFUSED := by
  unfold State.tagOp
  dsimp only
  rw [if_neg (by tauto)]
  simp only [hc, h, Bool.not_false, if_true]

/-- What a tag operation makes of one berth (R375). -/
def State.tagOpBerth (s : State) (q : Fin 4) (tide : Tide) (op : TagOp) (b : Nat) : State :=
  match op with
  | .staticFull => s.setTag b (mkTag true true (tagFrame (s.tag b)) tide q (tagOwned (s.tag b)) (tagPoisoned (s.tag b)))
  | .empty => s.emptyBerth b

theorem State.tagOp_of_range (h : s.quays[q].tagRangeOk c (fld (s.reg (Reg.QUAY_SPAD_TAG_FIRST q)) 15 0)
      (fld (s.reg (Reg.QUAY_SPAD_TAG_COUNT q)) 15 0) = true) :
    s.tagOp q op =
      ((((List.range (fld (s.reg (Reg.QUAY_SPAD_TAG_COUNT q)) 15 0)).map (fun i =>
          c.cfg.berthFirst + fld (s.reg (Reg.QUAY_SPAD_TAG_FIRST q)) 15 0 + i)).foldl
        (fun u b => u.tagOpBerth q s.quays[q].tide op b) s).put (Reg.QUAY_SPAD_TAG_STATUS q) St.OK.toNat).answer St.OK := by
  unfold State.tagOp
  dsimp only
  rw [if_neg (by tauto)]
  simp only [hc, h, Bool.not_true, Bool.false_eq_true, if_false]
  cases op <;> rfl

end

theorem exec_tagSetStaticFull {s t : State} {q : Fin 4} (hs : s.awake = true) (h : s.begin.tagOp q .staticFull = t) :
    exec (.tagSetStaticFull q) s = .next (s.after t) := act_eq_of (f := fun u => u.tagOp q .staticFull) hs h

theorem exec_tagSetEmpty {s t : State} {q : Fin 4} (hs : s.awake = true) (h : s.begin.tagOp q .empty = t) :
    exec (.tagSetEmpty q) s = .next (s.after t) := act_eq_of (f := fun u => u.tagOp q .empty) hs h

section
variable {s : State} {a : Nat} {bs : List Byte}

theorem doFirmwareBerthWrite_of_outside (h : regionOf a ≠ .spad) : doFirmwareBerthWrite a bs s = s.answer St.OOB := by
  unfold doFirmwareBerthWrite
  split
  next h' => exact absurd h' h
  next => rfl

theorem doFirmwareBerthWrite_of_spad (h : regionOf a = .spad) : doFirmwareBerthWrite a bs s =
    (if (s.devWrite .app a bs).2 = St.OK then (s.devWrite .app a bs).1.retagPoison (berthOf a) else (s.devWrite .app a bs).1).answer
      (s.devWrite .app a bs).2 := by
  unfold doFirmwareBerthWrite
  rw [h]

end

section
variable {s : State} {bad : Option Outc} {g : BerthSig} {rest : List BerthSig} {q : Fin 4} (hm : s.mem.signals = g :: rest)
  (hq : quayOf? g.quay = some q)
include hm hq

theorem doBerthSignalArrival_of_lost (h : s.quays[q].tide ≠ g.tide ∨ tagOwned (s.tag g.berth) = false ∨ tagQuay (s.tag g.berth) ≠ g.quay ∨
      tagTide (s.tag g.berth) ≠ g.tide.toNat) :
    doBerthSignalArrival bad s = ({ s with mem := { s.mem with signals := rest } } : State).bump (Reg.HM_QUAY_STALE_DROP_COUNT q) := by
  unfold doBerthSignalArrival
  simp only [hm, hq, Bool.not_eq_true']
  exact if_pos h

theorem doBerthSignalArrival_of_live (h : s.quays[q].tide = g.tide) (ho : tagOwned (s.tag g.berth) = true)
    (hg : tagQuay (s.tag g.berth) = g.quay) (ht : tagTide (s.tag g.berth) = g.tide.toNat) :
    doBerthSignalArrival bad s = ({ s with mem := { s.mem with signals := rest } } : State).signalReaches q g bad := by
  have hlive : ¬(s.quays[q].tide ≠ g.tide ∨ tagOwned (s.tag g.berth) = false ∨ tagQuay (s.tag g.berth) ≠ g.quay ∨
      tagTide (s.tag g.berth) ≠ g.tide.toNat) := by
    rintro (h' | h' | h' | h')
    · exact h' h
    · exact Bool.false_ne_true (h'.symm.trans ho)
    · exact h' hg
    · exact h' ht
  unfold doBerthSignalArrival
  simp only [hm, hq, Bool.not_eq_true']
  exact if_neg hlive

end

end Sys2Proof.Machine

open Sys2Proof Sys2Proof.Machine

/-- Settles O34: a tag operation by state and range, a firmware write by region and outcome, a signal by its berth's tag. -/
theorem tagOperationsAndFirmwareWrites : Obligations.TagOperationsAndFirmwareWrites := by
  refine ⟨fun s q hs hl hd => ?_, fun s q c hs hst hc => ?_, fun s a bs hs => ⟨fun h => ?_, fun h hok => ?_, fun h hbad => ?_⟩,
    fun s bad g rest q hs hm hq => ⟨fun h => ?_, fun h ho hg ht => ?_⟩⟩
  · exact ⟨exec_tagSetStaticFull hs (State.tagOp_of_badState (s := s.begin) .staticFull ⟨hl, hd⟩),
      exec_tagSetEmpty hs (State.tagOp_of_badState (s := s.begin) .empty ⟨hl, hd⟩)⟩
  · exact ⟨fun h => ⟨exec_tagSetStaticFull hs (State.tagOp_of_badRange (s := s.begin) .staticFull hst hc h),
        exec_tagSetEmpty hs (State.tagOp_of_badRange (s := s.begin) .empty hst hc h)⟩,
      fun h => ⟨exec_tagSetStaticFull hs (State.tagOp_of_range (s := s.begin) .staticFull hst hc h),
        exec_tagSetEmpty hs (State.tagOp_of_range (s := s.begin) .empty hst hc h)⟩⟩
  · exact act_eq_of hs (doFirmwareBerthWrite_of_outside (s := s.begin) h)
  · exact act_eq_of hs ((doFirmwareBerthWrite_of_spad (s := s.begin) h).trans (by rw [if_pos hok, hok]))
  · exact act_eq_of hs ((doFirmwareBerthWrite_of_spad (s := s.begin) h).trans (by rw [if_neg hbad]))
  · exact act_eq_of hs (doBerthSignalArrival_of_lost (s := s.begin) hm hq h)
  · exact act_eq_of hs (doBerthSignalArrival_of_live (s := s.begin) hm hq h ho hg ht)

end

section
/-! Bank gating (R390, R392). -/
namespace Sys2Proof.Machine

section
variable {s : State} {ini : Initiator} {b : Nat}

theorem doBankGateRequest_of_other (hb : b < 128) (h : ini ≠ .mc) :
    doBankGateRequest ini b s = (s.ignoredWrite (Reg.QUAY_BANK_GATE_REQ (b / 32))).answer St.OK := by
  rw [doBankGateRequest, if_neg (by omega), if_pos h]

theorem doBankWake_of_other (hb : b < 128) (h : ini ≠ .mc) :
    doBankWake ini b s = (s.ignoredWrite (Reg.QUAY_BANK_GATE_REQ (b / 32))).answer St.OK := by
  rw [doBankWake, if_neg (by omega), if_pos h]

theorem doBankGateRequest_of_awake (hb : b < 128) (hg : s.isGated b = false) (hr : s.mem.gateReqs.any (fun e => e.1 = b) = false) :
    doBankGateRequest .mc b s = { (s.gateBit b 1).answer St.OK with
      mem := { s.mem with gateReqs := s.mem.gateReqs ++ [(b, s.time.now)] } } := by
  rw [doBankGateRequest, if_neg (by omega), if_neg (by decide)]
  refine if_neg ?_
  rintro (h | h)
  · exact Bool.false_ne_true (hg.symm.trans h)
  · exact Bool.false_ne_true (hr.symm.trans h)

theorem doBankWake_of_mc (hb : b < 128) : doBankWake .mc b s =
    (((s.gateBit b 0).modMem (fun m => { m with gateReqs := m.gateReqs.filter (fun e => e.1 ≠ b) })).wakeBank b).answer St.OK := by
  rw [doBankWake, if_neg (by omega), if_neg (by decide)]

theorem doBankGated_of_free (hr : s.mem.gateReqs.any (fun e => e.1 = b) = true) (hh : s.bankHeld b = false) :
    doBankGated b s =
      { s with mem := { ((bankBerths b).foldl (fun (m : MemState) n => m.wipe (berthAddr n) 4096) s.mem) with
        gateReqs := ((bankBerths b).foldl (fun (m : MemState) n => m.wipe (berthAddr n) 4096) s.mem).gateReqs.filter (fun e => e.1 ≠ b)
        gated := addNew b ((bankBerths b).foldl (fun (m : MemState) n => m.wipe (berthAddr n) 4096) s.mem).gated } } :=
  if_neg (by rw [hr, hh]; decide)

section
variable {t : Nat} (hr : s.mem.gateReqs.find? (fun e => e.1 = b) = some (b, t))
include hr

theorem doBankGateGiveup_of_early (h : s.time.now < t + 50000) : doBankGateGiveup b s = s := by
  unfold doBankGateGiveup
  simp only [hr]
  exact if_pos h

theorem doBankGateGiveup_of_due (h : t + 50000 ≤ s.time.now) : doBankGateGiveup b s =
    (({ s with mem := { s.mem with gateReqs := s.mem.gateReqs.filter (fun e => e.1 ≠ b) } } : State).gateBit b 0).bump
      Reg.QUAY_BANK_GIVEUP_COUNT := by
  unfold doBankGateGiveup
  simp only [hr]
  exact if_neg (by omega)

end
end

end Sys2Proof.Machine

open Sys2Proof Sys2Proof.Machine

/-- Settles O35: each command by its initiator and by what the bank's request came to. -/
theorem banksGateAndWake : Obligations.BanksGateAndWake := by
  refine ⟨fun s ini b hs h => ⟨?_, ?_⟩, fun s b hs hg hr => ?_, fun s b hs hr hh => ?_, fun s b t hs hr => ⟨fun h => ?_, fun h => ?_⟩,
    fun s b hs => ⟨?_, ?_⟩⟩
  · exact act_eq_of hs (doBankGateRequest_of_other (s := s.begin) b.isLt h)
  · exact act_eq_of hs (doBankWake_of_other (s := s.begin) b.isLt h)
  · exact act_eq_of hs (doBankGateRequest_of_awake (s := s.begin) b.isLt hg hr)
  · exact act_eq_of hs (doBankGated_of_free (s := s.begin) hr hh)
  · exact act_eq_of hs (doBankGateGiveup_of_due (s := s.begin) hr h)
  · exact act_eq_of hs (doBankGateGiveup_of_early (s := s.begin) hr h)
  · exact act_eq_of hs (doBankWake_of_mc (s := s.begin) b.isLt)
  · exact act_eq (doBankWakeDone b) s hs

end

section
/-! FSYNC outputs (R132, R133). -/
namespace Sys2Proof.Machine

theorem State.drawUpTo_le (s : State) (n : Nat) : (s.drawUpTo n).1 ≤ n := Nat.lt_succ_iff.mp (Nat.mod_lt _ n.succ_pos)

section
variable {s : State} {i : Nat} {q : Fin 4} {b : List Byte} (ho : s.ownerOf Cls.FSYNC i = some q) (hb : s.quays[q].paramOf Cls.FSYNC i = some b)
include ho hb

section
variable {t : OpenTick} (ht : s.cam.ticks.reverse.find? (fun t => t.quay = q.val) = some t)
include ht

theorem doFsyncEdge_of_not_due (h : s.time.now < t.tick + leAt b 8 4 * 1000 ∨
      s.cam.edges.any (fun g => g.1 = i && g.2.1 = t.tick) = true) : doFsyncEdge i s = s := by
  unfold doFsyncEdge
  simp only [ho, hb, ht]
  exact if_pos h

/-- The pulse of a tick whose time has come begins at most 4 ns after it. -/
theorem doFsyncEdge_of_due (hnow : t.tick + leAt b 8 4 * 1000 ≤ s.time.now)
    (h : s.cam.edges.any (fun g => g.1 = i && g.2.1 = t.tick) = false) :
    ∃ v ≤ 4, ∃ es, doFsyncEdge i s =
      (({ s with free := s.free + 1, cam := { s.cam with edges := es ++ [(i, t.tick, t.tick + leAt b 8 4 * 1000 + v)] } } : State).setReg64
        (Reg.CAMRX_FSYNC_EDGE_LO i) (t.tick + leAt b 8 4 * 1000 + v)).fsyncPin i true := by
  have hopen : ¬(s.time.now < t.tick + leAt b 8 4 * 1000 ∨ s.cam.edges.any (fun g => g.1 = i && g.2.1 = t.tick) = true) := by
    rw [h]
    simpa using hnow
  refine ⟨(s.drawUpTo 4).1, s.drawUpTo_le 4,
    s.cam.edges.filter (fun g => g.1 ≠ i) ++ (s.cam.edges.filter (fun g => g.1 = i)).drop ((s.cam.edges.filter (fun g => g.1 = i)).length - 7), ?_⟩
  unfold doFsyncEdge
  simp only [ho, hb, ht]
  exact if_neg hopen

end

theorem doFsyncPulseEnd_of_due (ha : s.cam.fsync.getD i false = true)
    (h : s.reg64 (Reg.CAMRX_FSYNC_EDGE_LO i) + leAt b 0xC 2 * 1000 ≤ s.time.now) : doFsyncPulseEnd i s = s.fsyncPin i false := by
  unfold doFsyncPulseEnd
  simp only [ho, hb]
  exact if_neg (by rw [ha]; simpa using h)

theorem doFsyncPulseEnd_of_early (h : s.time.now < s.reg64 (Reg.CAMRX_FSYNC_EDGE_LO i) + leAt b 0xC 2 * 1000) : doFsyncPulseEnd i s = s := by
  unfold doFsyncPulseEnd
  simp only [ho, hb]
  exact if_pos (.inr h)

end

end Sys2Proof.Machine

open Sys2Proof Sys2Proof.Machine

/-- Settles O40: an edge when its time has come and once a tick, an end when the width has passed. -/
theorem fsyncPulsesFollowTheTick : Obligations.FsyncPulsesFollowTheTick := by
  refine ⟨fun s i q b t hs ho hb ht => ⟨fun hnow h => ?_, fun h => ?_⟩, fun s i q b hs ho hb ha => ⟨fun h => ?_, fun h => ?_⟩⟩
  · obtain ⟨v, hv, es, hdo⟩ := doFsyncEdge_of_due (s := s.begin) ho hb ht hnow h
    exact ⟨v, hv, es, act_eq_of hs hdo⟩
  · exact act_eq_of hs (doFsyncEdge_of_not_due (s := s.begin) ho hb ht h)
  · exact act_eq_of hs (doFsyncPulseEnd_of_due (s := s.begin) ho hb ha h)
  · exact act_eq_of hs (doFsyncPulseEnd_of_early (s := s.begin) ho hb h)

end

section
/-! The Edge Guard's deadline, release and test (R292, R293, R302). -/
namespace Sys2Proof.Machine

section
variable {s : State} {k r : Nat} {x : EdgeSrcSt} {e : EdgeSrc} {v : EdgeEval} (hx : s.edge.srcs[k]? = some x) (he : s.edgeSources[k]? = some e)
  (hv : x.evals.find? (fun v => (match v.runs[r]? with | some u => u.before.isNone | none => false)) = some v)
include hx he hv

theorem doEdgeDeadline_eq : doEdgeDeadline k r s =
    if s.time.now < v.tick + e.deadlineUs * 1000 then s else s.edgeDecide k r v.frame Outc.unknown Outc.unknown := by
  unfold doEdgeDeadline
  simp only [hx, he]
  split
  next v' hv' =>
    cases hv'.symm.trans hv
    rfl
  next hv' => cases hv'.symm.trans hv

theorem doEdgeDeadline_of_early (h : s.time.now < v.tick + e.deadlineUs * 1000) : doEdgeDeadline k r s = s :=
  (doEdgeDeadline_eq hx he hv).trans (if_pos h)

theorem doEdgeDeadline_of_due (h : v.tick + e.deadlineUs * 1000 ≤ s.time.now) :
    doEdgeDeadline k r s = s.edgeDecide k r v.frame Outc.unknown Outc.unknown :=
  (doEdgeDeadline_eq hx he hv).trans (if_neg (by omega))

end

/-- What settles EDGE_N is a register, the pin, or an event: what it is decided by and the quays stay. -/
theorem State.edgeSettle_keeps {γ : Type} {g : State → γ} (s : State) (was : Bool) (h64 : ∀ u a v, g (State.setReg64 u a v) = g u)
    (hout : ∀ u e, g (State.emit u e) = g u) (hev : ∀ u v, g (State.setEvent u Reg.EDGE_EVENT v) = g u) : g (s.edgeSettle was) = g s := by
  unfold State.edgeSettle
  dsimp only
  split_ifs <;> simp only [h64, hout, hev]

theorem State.edgeSettle_edge (s : State) (was : Bool) : (s.edgeSettle was).edge = s.edge :=
  s.edgeSettle_keeps was State.setReg64_edge State.emit_edge (fun u => u.setEvent_edge _)

theorem State.edgeSettle_quays (s : State) (was : Bool) : (s.edgeSettle was).quays = s.quays :=
  s.edgeSettle_keeps was State.setReg64_quays State.emit_quays (fun u => u.setEvent_quays _)

/-- Settling EDGE_N writes its trip time and its event register, not EDGE_TEST. -/
theorem State.edgeSettle_edgeTest (s : State) (was : Bool) : (s.edgeSettle was).reg Reg.EDGE_TEST = s.reg Reg.EDGE_TEST := by
  have hne : Reg.EDGE_TEST ≠ Reg.EDGE_EVENT := by decide
  have hlo : Reg.EDGE_TEST ≠ Reg.EDGE_LAST_TRIP_TIME_LO := by decide
  have hhi : Reg.EDGE_TEST ≠ Reg.EDGE_LAST_TRIP_TIME_LO + 4 := by decide
  unfold State.edgeSettle
  dsimp only
  split_ifs
  · rfl
  · rw [State.reg_setEvent_ne _ _ _ _ hne (ne_topMsiPending_of_blockOf (by decide)), State.emit_reg, State.emit_reg, State.setReg64,
      State.reg_setReg_ne _ _ _ _ hhi, State.reg_setReg_ne _ _ _ _ hlo]
  · rw [State.reg_setEvent_ne _ _ _ _ hne (ne_topMsiPending_of_blockOf (by decide)), State.emit_reg, State.emit_reg]

/-- EDGE_N is asserted while EDGE_TEST forces it. -/
theorem State.edgeN_of_test {s : State} (h : flag (s.reg Reg.EDGE_TEST) 0 = true) : s.edgeN = true := by
  simp [State.edgeN, h]

theorem State.edgeN_put_test (s : State) (was : Bool) : ((s.put Reg.EDGE_TEST 1).edgeSettle was).edgeN = true := by
  refine State.edgeN_of_test ?_
  rw [State.edgeSettle_edgeTest, State.reg_put, if_pos rfl]
  decide

theorem doEdgeRelease_of_other {s : State} {ini : Initiator} (h : ini ≠ .cg) : doEdgeRelease ini s = s.ignoredWrite Reg.EDGE_RELEASE := if_pos h

theorem doEdgeTest_of_other {s : State} {ini : Initiator} {force : Bool} (h : ini ≠ .cg) :
    doEdgeTest ini force s = s.ignoredWrite Reg.EDGE_TEST := if_pos h

theorem doEdgeRelease_of_cg (s : State) : doEdgeRelease .cg s =
    ((({ s with edge := { s.edge with awaiting := false, disagree := false } } : State).edgeTryRelease).edgeSettle s.edgeN).answer St.OK := rfl

theorem doEdgeTest_of_cg (force : Bool) (s : State) :
    doEdgeTest .cg force s = ((s.put Reg.EDGE_TEST (b2n force)).edgeSettle s.edgeN).answer St.OK := rfl

end Sys2Proof.Machine

open Sys2Proof Sys2Proof.Machine

/-- Settles O47: a deadline by its time, a release and a test by their initiator, and a standing force asserts EDGE_N. -/
theorem edgeGuardDecidesReleasesAndTests : Obligations.EdgeGuardDecidesReleasesAndTests := by
  refine ⟨fun s k r x e v hs hx he hv => ⟨fun h => ?_, fun h => ?_⟩, fun s ini force hs h => ⟨?_, ?_⟩, fun s force hs => ⟨?_, ?_⟩,
    fun s hs => ?_⟩
  · exact act_eq_of hs (doEdgeDeadline_of_due (s := s.begin) hx he hv h)
  · exact act_eq_of hs (doEdgeDeadline_of_early (s := s.begin) hx he hv h)
  · exact act_eq_of hs (doEdgeRelease_of_other (s := s.begin) h)
  · exact act_eq_of hs (doEdgeTest_of_other (s := s.begin) (force := force) h)
  · exact act_eq_of hs (doEdgeRelease_of_cg s.begin)
  · exact act_eq_of hs (doEdgeTest_of_cg force s.begin)
  · refine ⟨_, act_eq_of hs (doEdgeTest_of_cg true s.begin), ?_, ?_, ?_⟩
    · exact s.begin.edgeN_put_test s.edgeN
    · exact State.edgeSettle_edge _ _
    · exact State.edgeSettle_quays _ _

end

section
/-! Camera packets and deadlines: one equation per branch (R124, R126-R128, R134-R137). -/
namespace Sys2Proof.Machine

section
variable {s : State} {p : Nat} (hp : s.portEntry p = none)
include hp

theorem doFrameStart_of_unclaimed (hd : Header) (vc : Nat) : doFrameStart p hd vc s = s := by
  simp only [doFrameStart, hp]

theorem doFrameEnd_of_unclaimed (hd : Header) (vc : Nat) : doFrameEnd p hd vc s = s := by
  simp only [doFrameEnd, hp]

end

section
variable {s : State} {p : Nat} {e : Fin 4 × List Byte} (hp : s.portEntry p = some e)
include hp

theorem doFrameStart_of_lost (vc : Nat) : doFrameStart p .lost vc s = s.headerSeen p .lost := by
  simp only [doFrameStart, hp, if_true]

theorem doFrameEnd_of_lost (vc : Nat) : doFrameEnd p .lost vc s = s.headerSeen p .lost := by
  simp only [doFrameEnd, hp, if_true]

theorem doPhyError_of_claimed : doPhyError p s =
    ((s.bump (Reg.CAMRX_PORT_PHY_ERR_COUNT p)).setEvent (Reg.CAMRX_PORT_EVENT p) 8).markPort p (2 ^ Ing.PHY) := by
  simp only [doPhyError, hp]

section
variable {hd : Header} {vc : Nat} (hl : hd ≠ .lost)
include hl

theorem doFrameStart_of_no_ctx (hc : (s.headerSeen p hd).ctxOfVc p vc = none) :
    doFrameStart p hd vc s = (s.headerSeen p hd).unmatched p := by
  simp only [doFrameStart, hp, if_neg hl, hc]

theorem doFrameEnd_of_no_ctx (hc : (s.headerSeen p hd).ctxOfVc p vc = none) :
    doFrameEnd p hd vc s = (s.headerSeen p hd).unmatched p := by
  simp only [doFrameEnd, hp, if_neg hl, hc]

theorem doFrameStart_of_ctx {c : Nat} {q : Fin 4} {r : StreamRec} (hc : (s.headerSeen p hd).ctxOfVc p vc = some c)
    (hr : (s.headerSeen p hd).streamRec? c = some (q, r)) :
    doFrameStart p hd vc s = (if hd = .corrected then ((s.headerSeen p hd).startStream e.1 c r).markFrame c (2 ^ Ing.ECC_CORRECTED)
      else (s.headerSeen p hd).startStream e.1 c r) := by
  simp only [doFrameStart, hp, if_neg hl, hc, hr]

end

section
variable {vc c : Nat} (hc : (s.headerSeen p .good).ctxOfVc p vc = some c)
include hc

theorem doFrameEnd_of_frame {f : StreamFrame} (hf : ((s.headerSeen p .good).ctx c).cur = some f) (hx : f.extra = false) (he : f.early = none) :
    doFrameEnd p .good vc s = ((s.headerSeen p .good).stamp.2.modCur c (fun g => { g with eof := (s.headerSeen p .good).stamp.1 })).endStream c := by
  simp [doFrameEnd, hp, hc, hf, hx, he]

section
variable {o : Fin 4} {r : StreamRec} {dt : Nat} (hr : (s.headerSeen p .good).streamRec? c = some (o, r)) (bs : List Byte) (bad : Option Outc)
include hr

theorem doLongPacket_of_pixels {f : StreamFrame} (hs : supportedType dt = true) (hd : dt = r.dt) (hne : dt ≠ 0x12)
    (hf : ((s.headerSeen p .good).ctx c).cur = some f) (hx : f.extra = false) :
    doLongPacket p .good vc dt bs true bad s = (s.headerSeen p .good).pixelLine e.1 c r bs bad := by
  subst hd
  simp [doLongPacket, hp, hc, hr, hs, hf, hx, hne]

theorem doLongPacket_of_stray (hs : supportedType dt = true) (hd : dt = r.dt) (hf : ((s.headerSeen p .good).ctx c).cur = none) :
    doLongPacket p .good vc dt bs true bad s = (s.headerSeen p .good).strayPacket c := by
  subst hd
  simp [doLongPacket, hp, hc, hr, hs, hf]

theorem doLongPacket_of_unsupported (hs : supportedType dt = false) :
    doLongPacket p .good vc dt bs true bad s = ((s.headerSeen p .good).unmatched p).markFrame c (2 ^ Ing.MALFORMED) := by
  simp [doLongPacket, hp, hc, hr, hs]

end

theorem doShortPacket_of_line {dt : Nat} (hd : dt = 2 ∨ dt = 3) (hf : ((s.headerSeen p .good).ctx c).cur.isSome = true) :
    doShortPacket p .good vc dt s = s.headerSeen p .good := by
  obtain ⟨f, hf⟩ := Option.isSome_iff_exists.mp hf
  rcases hd with rfl | rfl <;> simp [doShortPacket, hp, hc, hf]

theorem doShortPacket_of_stray {dt : Nat} (hd : dt = 2 ∨ dt = 3) (hf : ((s.headerSeen p .good).ctx c).cur = none) :
    doShortPacket p .good vc dt s = (s.headerSeen p .good).strayPacket c := by
  rcases hd with rfl | rfl <;> simp [doShortPacket, hp, hc, hf]

theorem doShortPacket_of_other {dt : Nat} (hd : 4 ≤ dt) : doShortPacket p .good vc dt s = (s.headerSeen p .good).unmatched p := by
  have h : dt ≠ 0 ∧ dt ≠ 1 ∧ dt ≠ 2 ∧ dt ≠ 3 := by omega
  simp [doShortPacket, hp, hc, h]

end
end

section
variable {s : State} {c : Nat} {q : Fin 4} {r : StreamRec} (hr : s.streamRec? c = some (q, r))
include hr

theorem doSofDeadline_of_due {n : FrameNo} {T : Nat} (ht : s.tickOf q n = some T)
    (hm : ∀ m, (s.ctx c).seen = some m → frameAtOrBefore n m = false) (h : T + r.sofUs * 1000 ≤ s.time.now) :
    doSofDeadline c n s =
      ((s.bump (Reg.CAMRX_CTX_INVALID_COUNT c)).modCtx c (fun x => { x with seen := some n })).badStream q n c := by
  simp only [doSofDeadline, hr, ht]
  refine if_neg ?_
  rintro (hseen | hnow)
  · split at hseen
    next m hm' => rw [hm m hm'] at hseen; cases hseen
    next => cases hseen
  · omega

theorem doEofDeadline_eq {f : StreamFrame} {T : Nat} (hf : (s.ctx c).cur = some f) (ht : s.tickOf q f.frame = some T) :
    doEofDeadline c s =
      if f.extra ∨ f.early.isSome ∨ s.time.now < T + r.eofUs * 1000 then s else s.markFrame c (2 ^ Ing.LATE) := by
  simp only [doEofDeadline, hr, hf, ht]

theorem doPatternInjection_eq (hi : r.inject = true) (hf : (s.ctx c).cur = none) (a b : Bool) : doPatternInjection c a b s =
    if a ∧ b then s else
      (s.bump (Reg.CAMRX_CTX_INJECT_FAIL_COUNT c)).modCtx c (fun x => { x with nextFlags := x.nextFlags ||| 2 ^ Ing.INJECT_FAIL }) := by
  simp [doPatternInjection, hr, hi, hf]

end

end Sys2Proof.Machine

open Sys2Proof Sys2Proof.Machine

/-- Settles O38: packets by their header and context, deadlines by the time. -/
theorem framesStartEndAndDeadlinesMark : Obligations.FramesStartEndAndDeadlinesMark := by
  refine ⟨fun s p hd vc c e q r hs hp hl hc hr => ?_, fun s p vc e hs hp => ⟨?_, ?_⟩, fun s p hd vc e hs hp hl hc => ⟨?_, ?_⟩,
    fun s p vc c e f hs hp => ?_, fun s c n q r T hs hr ht hm h => ?_, fun s c q r f T hs hr hf ht => ⟨fun hx he h => ?_, fun h => ?_⟩,
    fun s p hd vc hs hp => ⟨?_, ?_⟩⟩
  · exact act_eq_of hs (doFrameStart_of_ctx (s := s.begin) hp hl hc hr)
  · exact act_eq_of hs (doFrameStart_of_lost (s := s.begin) hp vc)
  · exact act_eq_of hs (doFrameEnd_of_lost (s := s.begin) hp vc)
  · exact act_eq_of hs (doFrameStart_of_no_ctx (s := s.begin) hp hl hc)
  · exact act_eq_of hs (doFrameEnd_of_no_ctx (s := s.begin) hp hl hc)
  · intro u hc hf hx he
    exact act_eq_of hs (doFrameEnd_of_frame (s := s.begin) hp hc hf hx he)
  · exact act_eq_of hs (doSofDeadline_of_due (s := s.begin) hr ht hm h)
  · exact act_eq_of hs ((doEofDeadline_eq (s := s.begin) hr hf ht).trans (if_neg (by simpa [hx, he] using h)))
  · exact act_eq_of hs ((doEofDeadline_eq (s := s.begin) hr hf ht).trans (if_pos (.inr (.inr h))))
  · exact act_eq_of hs (doFrameStart_of_unclaimed (s := s.begin) hp hd vc)
  · exact act_eq_of hs (doFrameEnd_of_unclaimed (s := s.begin) hp hd vc)

/-- Settles O39: packets by their data type and context, PHY errors and injected patterns. -/
theorem packetsReachTheirContext : Obligations.PacketsReachTheirContext := by
  refine ⟨fun s p vc dt c bs bad e o r hs hp => ?_, fun s p hd vc hs => ⟨rfl, rfl⟩, fun s p vc dt c e hs hp h2 => ?_,
    fun s p e hs hp => ?_, fun s c q r a b hs hr hi hf => ⟨fun h => ?_, fun ha hb => ?_⟩⟩
  · intro u hc hr
    refine ⟨fun f hsup hd hne hf hx => ?_, fun hsup hd hf => ?_, fun hsup => ?_⟩
    · exact act_eq_of hs (doLongPacket_of_pixels (s := s.begin) hp hc hr bs bad hsup hd hne hf hx)
    · exact act_eq_of hs (doLongPacket_of_stray (s := s.begin) hp hc hr bs bad hsup hd hf)
    · exact act_eq_of hs (doLongPacket_of_unsupported (s := s.begin) hp hc hr bs bad hsup)
  · intro u hc
    refine ⟨fun hd hf => ?_, fun hd hf => ?_, fun hd => ?_⟩
    · exact act_eq_of hs (doShortPacket_of_line (s := s.begin) hp hc hd hf)
    · exact act_eq_of hs (doShortPacket_of_stray (s := s.begin) hp hc hd hf)
    · exact act_eq_of hs (doShortPacket_of_other (s := s.begin) hp hc hd)
  · exact act_eq_of hs (doPhyError_of_claimed (s := s.begin) hp)
  · refine act_eq_of hs ((doPatternInjection_eq (s := s.begin) hr hi hf a b).trans (if_neg ?_))
    rintro ⟨rfl, rfl⟩
    simp at h
  · exact act_eq_of hs ((doPatternInjection_eq (s := s.begin) hr hi hf a b).trans (if_pos ⟨ha, hb⟩))

end

section
/-! Exposure tickets (R142-R146, R151). -/
namespace Sys2Proof.Machine

theorem doTicketSubmit_of_badState {s : State} {q : Fin 4} (c : Nat)
    (h : s.quays[q].st = .empty ∨ s.quays[q].st = .faulted ∨ s.quays[q].st = .resetting) :
    doTicketSubmit q c s =
      ((s.bump (Reg.CAMRX_TKT_BAD_STATE_COUNT q)).put (Reg.CAMRX_TKT_STATUS q) St.BAD_STATE.toNat).answer St.BAD_STATE := if_pos h

/-- A ticket for another quay's stream is refused, whatever else it names. -/
theorem doTicketSubmit_of_other {s : State} {q o : Fin 4} {c : Nat} {r : StreamRec} (hst : s.quays[q].st = .running ∨ s.quays[q].st = .docked)
    (hr : s.streamRec? c = some (o, r)) (ho : o ≠ q) (hread : (s.readScript (s.addr48 (Reg.CAMRX_TKT_SCRIPT_LO q))).2 = false)
    (hroom : (s.ctx c).queue.length < 8) :
    doTicketSubmit q c s = (s.put (Reg.CAMRX_TKT_STATUS q) St.REFUSED.toNat).answer St.REFUSED := by
  have htakes : ¬(s.quays[q].st = .empty ∨ s.quays[q].st = .faulted ∨ s.quays[q].st = .resetting) := by
    rcases hst with h | h <;> rw [h] <;> decide
  have hfull : ¬(s.ctx c).queue.length ≥ 8 := by omega
  have hw : worst [St.REFUSED] = St.REFUSED := by decide
  unfold doTicketSubmit
  simp only [hr, hread, hfull, ho, if_neg htakes, decide_false, Bool.false_and, Bool.not_false, Bool.true_or, if_true, Bool.false_eq_true,
    if_false, List.append_nil, hw]
  exact if_pos (by decide)

theorem doTicketWindowOpen_of_eligible {s : State} {i : Nat} {q : Fin 4} {rate c x : Nat} {t : Ticket} {w : FrameNo} {tick : Nat}
    {rest : List (Nat × Nat × Ticket × FrameNo × Nat)} (hr : s.i3cRate i = some (q, rate)) (hi : s.i3cIdle i = true)
    (he : s.eligible q i rate = (x, c, t, w, tick) :: rest) :
    doTicketWindowOpen i s =
      ((s.modCtx c (fun x => { x with queue := x.queue.drop 1 })).setI3c i (some (.ticket t w tick none))).emit (.i3c i t.script) := by
  simp only [doTicketWindowOpen, hr, hi, he, Bool.not_true, Bool.false_eq_true, if_false]

theorem doTicketDone_of_acked {s : State} {i : Nat} {q o : Fin 4} {rate tick : Nat} {t : Ticket} {w : FrameNo} {k : Option Nat} {r : StreamRec}
    (hb : s.cam.i3c.getD i none = some (.ticket t w tick k)) (hi : s.i3cRate i = some (q, rate)) (hr : s.streamRec? t.ctx = some (o, r)) :
    let late := decide (tick + r.closeUs * 1000 < s.time.now)
    let actual := w + BitVec.ofNat 32 (r.latch + b2n late)
    let moved := late || decide (w + BitVec.ofNat 32 r.latch ≠ t.target)
    doTicketDone i none s = ((s.setI3c i none).pushResult ⟨t.number, t.ctx, if moved then 0x80#8 else St.OK, actual⟩).modCtx t.ctx
      (fun x => { x with inForce := x.inForce ++ [⟨actual, t.number, t.exposure, moved, false⟩] }) := by
  simp only [doTicketDone, hb, hi, hr, Option.isSome_none, Option.isNone_none, Bool.false_eq_true, if_false, Bool.and_true]

end Sys2Proof.Machine

open Sys2Proof Sys2Proof.Machine

/-- Settles O41: submission by state and holder, the sequencer's begin and end, and the result FIFO. -/
theorem exposureTicketsQueueAndReport : Obligations.ExposureTicketsQueueAndReport := by
  refine ⟨fun s q c hs h => ?_, fun s q o c r hs hst hr ho hread hroom => ?_, fun s i q rate c x t w tick rest hs hr hi he => ?_,
    fun s i q o rate tick t w k r hs hb hi hr => ?_, fun s hs => ?_⟩
  · exact act_eq_of hs (doTicketSubmit_of_badState (s := s.begin) c h)
  · exact act_eq_of hs (doTicketSubmit_of_other (s := s.begin) hst hr ho hread hroom)
  · exact act_eq_of hs (doTicketWindowOpen_of_eligible (s := s.begin) hr hi he)
  · exact act_eq_of hs (doTicketDone_of_acked (s := s.begin) hb hi hr)
  · exact act_eq doTicketResultPop s hs

end

section
/-! Soundings: poses and the start of integration (R274, R276). -/
namespace Sys2Proof.Machine

/-- A pose that no quay of Soundings takes. -/
theorem doPoseSubmit_of_badState {s : State} (k : Nat)
    (h : s.ownerOf Cls.SND 0 = none ∨ ∃ q, s.ownerOf Cls.SND 0 = some q ∧ (s.quays[q].st = .faulted ∨ s.quays[q].st = .resetting)) :
    doPoseSubmit k s = ((s.bump Reg.SND_POSE_BAD_STATE_COUNT).put Reg.SND_POSE_STATUS
      (St.BAD_STATE.toNat + 256 * (s.snd.poses.filter (fun p => p.job = k)).length)).answer St.BAD_STATE := by
  unfold doPoseSubmit
  rcases h with h | ⟨q, h, hst⟩
  · simp only [h, State.bump_snd]
  · simp only [h, State.bump_snd]
    exact if_pos hst

/-- The first pose of a job whose target has not started is queued. -/
theorem doPoseSubmit_of_first {s : State} {k : Nat} {q : Fin 4} {m : SndMap} {bs : List Byte} {p : Bool} (ho : s.ownerOf Cls.SND 0 = some q)
    (hst : s.quays[q].st = .running) (hm : s.quays[q].sndMap = some m) (hk : k < m.count)
    (hread : s.devRead (s.addr48 Reg.SND_POSE_RECORD_LO) 64 = (St.OK, bs, p)) (hok : poseOk bs = true)
    (hmine : s.snd.poses.filter (fun p => p.job = k) = []) (hl : s.snd.latched.any (fun l => decide (l.1 = k)) = false) :
    doPoseSubmit k s = (({ s with snd := { s.snd with poses := s.snd.poses ++ [poseOf k (s.reg Reg.SND_POSE_TARGET).toNat bs] } } : State).put
      Reg.SND_POSE_STATUS (0 + 256 * ((s.snd.poses ++ [poseOf k (s.reg Reg.SND_POSE_TARGET).toNat bs]).filter
        (fun p => p.job = k)).length)).answer St.OK := by
  have htakes : ¬(s.quays[q].st = .faulted ∨ s.quays[q].st = .resetting) := by rw [hst]; decide
  have hstarted : s.snd.latched.any (fun l => decide (l.1 = k) &&
      frameAtOrBefore (BitVec.ofNat 32 (s.reg Reg.SND_POSE_TARGET).toNat) (BitVec.ofNat 32 l.2.1)) = false := by
    simp only [List.any_eq_false, Bool.and_eq_true, not_and] at hl ⊢
    exact fun l hmem hjob => absurd hjob (hl l hmem)
  have hw : worst [] = St.OK := by decide
  unfold doPoseSubmit
  simp only [ho, if_neg htakes, hread, hm, Option.map_some, Option.getD_some, hmine, hstarted, hok]
  refine if_neg (not_not.mpr ?_)
  simp [Nat.not_le.mpr hk, hw]

section
variable {s : State} {q : Fin 4} {v : VisRun} {f : FrameRec} {k : Nat} {b : List Byte} {m : SndMap} (ho : s.ownerOf Cls.SND 0 = some q)
  (hv : (s.sndNext q).vis.find? (fun v => v.cls = Cls.SND) = some v) (hf : (s.sndNext q).quays[q].frame? v.frame = some f)
  (hj : (s.sndNext q).quays[q].jobOf v.idx = some (k, b)) (hm : (s.sndNext q).quays[q].sndMap = some m) (hb : v.band = 0)
include ho hv hf hj hm hb

/-- The running job of Soundings, whose work has not begun. -/
theorem doSndProducersDone_eq : doSndProducersDone s =
    if ((s.sndNext q).quays[q].producersOf f v.idx).all (fun r => r.status.isSome) = false then s.sndNext q
    else if ((s.sndNext q).quays[q].producersOf f v.idx).any (fun r => r.status ≠ some St.OK) then
      (s.sndNext q).completeStage q f.num v.idx [0x83#8]
    else if ((s.sndNext q).sndInputs q v f ⟨b⟩).all (fun e => (s.sndNext q).inReady q v.idx e.2 e.1.off 128) = false then s.sndNext q
    else (s.sndNext q).sndIntegrate q v f k ⟨b⟩ m := by
  unfold doSndProducersDone
  simp only [ho, hv, hf, hj, hm, hb, ne_eq, not_true_eq_false, decide_false, Bool.false_or, Bool.not_eq_true']

end

end Sys2Proof.Machine

open Sys2Proof Sys2Proof.Machine

/-- Settles O46: a pose by who owns Soundings, and a job by how its producers ended. -/
theorem soundingsTakePosesAndIntegrate : Obligations.SoundingsTakePosesAndIntegrate := by
  refine ⟨fun s k hs h => ?_, fun s k q m bs p hs ho hst hm hk hread hok hmine hl => ?_, fun s q v f k b m hs ho => ?_⟩
  · exact act_eq_of hs (doPoseSubmit_of_badState (s := s.begin) k h)
  · exact act_eq_of hs (doPoseSubmit_of_first (s := s.begin) ho hst hm hk hread hok hmine hl)
  · intro u hv hf hj hm hb ps
    have heq := doSndProducersDone_eq (s := s.begin) ho hv hf hj hm hb
    refine ⟨fun hall => ?_, fun hall hany => ?_, fun hall hany hin => ?_⟩
    · exact act_eq_of hs (heq.trans (if_pos hall))
    · exact act_eq_of hs (heq.trans ((if_neg (ne_false_of_eq_true hall)).trans (if_pos hany)))
    · exact act_eq_of hs (heq.trans ((if_neg (ne_false_of_eq_true hall)).trans
        ((if_neg (ne_true_of_eq_false hany)).trans (if_neg (ne_false_of_eq_true hin)))))

end

section
/-! Elvow's commands on the stage whose command is next (R115, R116, R303, R311, R318). -/
namespace Sys2Proof.Machine

/-! What each opcode's command runs. -/

theorem exec_elvCompute {s t : State} {op k : Nat} {inst : Fin 12} (hs : s.awake = true) (h : s.begin.elvCompute op inst k = t) :
    (op = 1 → exec (.matmul inst k) s = .next (s.after t)) ∧ (op = 2 → exec (.conv2d inst k) s = .next (s.after t)) ∧
    (op = 3 → exec (.attn inst k) s = .next (s.after t)) ∧ (op = 4 → exec (.norm inst k) s = .next (s.after t)) ∧
    (op = 5 → exec (.vec inst k) s = .next (s.after t)) ∧ (op = 6 → exec (.reduce inst k) s = .next (s.after t)) := by
  subst h
  refine ⟨?_, ?_, ?_, ?_, ?_, ?_⟩ <;> rintro rfl <;> exact act_eq (fun u => u.elvCompute _ inst k) s hs

theorem exec_elvTransfer {s t : State} {op k : Nat} {inst : Fin 12} (hs : s.awake = true) (h : s.begin.elvTransfer op inst k = t) :
    (op = 7 → exec (.fetch inst k) s = .next (s.after t)) ∧ (op = 8 → exec (.copy inst k) s = .next (s.after t)) := by
  subst h
  refine ⟨?_, ?_⟩ <;> rintro rfl <;> exact act_eq (fun u => u.elvTransfer _ inst k) s hs

theorem exec_elvLayer {s t : State} {op : Nat} {inst : Fin 12} (hs : s.awake = true) (h : s.begin.elvLayer op inst = t) :
    (op = 9 → exec (.layer inst) s = .next (s.after t)) ∧ (op = 10 → exec (.elvEnd inst) s = .next (s.after t)) := by
  subst h
  refine ⟨?_, ?_⟩ <;> rintro rfl <;> exact act_eq (fun u => u.elvLayer _ inst) s hs

section
variable {s : State} {op inst k : Nat} {cx : CmdCtx}

theorem State.elvCompute_of_ready (h : s.elvReady op inst k cx) :
    let r := (s.refSet cx cx.c.uses).refs
    s.elvCompute op inst k =
      if (s.stageXfers cx).any (hazard r cx.c) || !([r.a, r.b, r.c, r.sa, r.sb].filterMap id).all (s.refReady cx) then s
      else ((s.runCmd cx r).1.cmdDone cx (s.runCmd cx r).2.1).tandemCheck inst := by
  rw [State.elvCompute, State.elvIssue_ready s op inst k cx _ h]

theorem State.elvTransfer_of_ready (h : s.elvReady op inst k cx) :
    s.elvTransfer op inst k = if 8 ≤ (s.prog.xfers.getD inst []).length then s else
      (({ s with prog := { s.prog with
        xfers := modAt s.prog.xfers inst (fun xs => xs ++ [⟨cx.run.idx, cx.run.frame, cx.c, (s.refSet cx cx.c.uses).refs⟩]) } } : State).modProg cx
          (fun r => { r with pc := r.pc + 1 })) := by
  rw [State.elvTransfer, State.elvIssue_ready s op inst k cx _ h]

theorem State.elvLayer_of_drained (h : s.elvReady op inst 0 cx) (hx : s.stageXfers cx = []) :
    s.elvLayer op inst = if s.bollardMode cx.q && decide (0 < cx.run.layer) then s.modProg cx (fun r => { r with waiting := true })
      else s.elvBoundary cx := by
  rw [State.elvLayer, State.elvIssue_ready s op inst 0 cx _ h, hx]
  exact if_neg (by simp)

/-- A fault of the next command ends its stage with the first reason, where no operand ends it and no transfer is queued. -/
theorem State.elvIssue_of_fault {why : Nat} {l : List Nat} (go : State → CmdCtx → Refs → State) (hc : s.cmdCtx Cls.ELV inst k = some cx)
    (hm : s.mayIssue inst k cx.run = true) (ho : cx.c.op = op) (hf : cx.elvFaults cx.c.uses (s.refSet cx cx.c.uses) = why :: l)
    (hst : ∀ x ∈ (s.refSet cx cx.c.uses).all, ∀ st, x ≠ .status st) (hx : s.stageXfers cx = []) :
    s.elvIssue op inst k go = s.badCommand cx why := by
  have hends : (s.refSet cx cx.c.uses).all.filterMap (fun x => match x with | .status st => some st | _ => none) = [] := by
    refine List.filterMap_eq_nil_iff.mpr fun x hmem => ?_
    split
    next st => exact absurd rfl (hst _ hmem st)
    next => rfl
  unfold State.elvIssue
  simp only [hc]
  rw [if_neg (by simp [hm, ho])]
  simp only [hf, hx]
  refine (if_pos rfl).trans (if_pos ?_)
  rw [List.isEmpty_iff]
  exact hends

end

theorem doElvTransferComplete_of_ready {s : State} {inst j : Nat} {x : ElvXfer} {run : ProgRun} {cx0 : CmdCtx}
    (hj : (s.prog.xfers.getD inst [])[j]? = some x)
    (hr : (s.progRuns Cls.ELV inst).find? (fun r => r.frame = x.frame ∧ r.idx = x.idx) = some run) (hc : s.cmdAt Cls.ELV inst run = some cx0)
    (hz : ∀ y ∈ (s.prog.xfers.getD inst []).take j, y.frame = x.frame → y.idx = x.idx → hazard x.refs x.cmd y = false) :
    let cx := { cx0 with c := x.cmd }
    ([x.refs.a].filterMap id).all (s.refReady cx) = true → (x.cmd.final && decide (x.cmd.op = 8)) = false →
    let u := (s.runCmd cx x.refs).1
    doElvTransferComplete inst j s =
      (((({ u with prog := { u.prog with xfers := modAt u.prog.xfers inst (fun xs => removeAt j xs) } } : State).bump
        (Reg.ELV_CMD_COUNT inst)).modProg cx (fun r => { r with statuses := r.statuses ++ (s.runCmd cx x.refs).2.1 })).tandemCheck inst) := by
  intro cx hrefs hfin u
  have hbefore : (((s.prog.xfers.getD inst []).take j).filter (fun y => y.frame = x.frame ∧ y.idx = x.idx)).any (hazard x.refs x.cmd) = false := by
    simp only [List.any_eq_false, List.mem_filter, decide_eq_true_eq]
    rintro y ⟨hy, hframe, hidx⟩ hhaz
    exact Bool.false_ne_true ((hz y hy hframe hidx).symm.trans hhaz)
  have hnot : ¬(x.cmd.final = true ∧ x.cmd.op = 8) := by simpa using hfin
  unfold doElvTransferComplete
  simp only [hj, hr, hc]
  refine (if_neg ?_).trans ?_
  · rw [hbefore, hrefs]
    decide
  · cases x.refs.dst with
    | none => rfl
    | some d => simp only [if_neg hnot]; rfl

theorem doElvTransferComplete_of_none {s : State} {inst j : Nat} (h : (s.prog.xfers.getD inst []).length ≤ j) :
    doElvTransferComplete inst j s = s := by
  simp only [doElvTransferComplete, List.getElem?_eq_none h]

theorem doTandemIssue_eq {s : State} {inst : Nat} (left : Nat) {p cx : CmdCtx} (hp : s.cmdCtx Cls.ELV inst 0 = some p)
    (hc : s.cmdCtx Cls.ELV inst 1 = some cx) :
    let u := if cx.run.layer = 0 then s else s.bump (Reg.ELV_LAYER_COUNT inst)
    doTandemIssue inst left s = if s.tandemFits p cx left then
      ((u.bump (Reg.ELV_CMD_COUNT inst)).bump (Reg.ELV_TANDEM_COUNT inst)).modProg cx (fun r => { r with
        pc := r.pc + 1, layer := r.layer + 1, layerCmd := some cx.c, tandem := some (cx.c.p 0x20 4, u.time.now) })
      else s := by
  simp only [doTandemIssue, hp, hc]
  rfl

end Sys2Proof.Machine

open Sys2Proof Sys2Proof.Machine

/-- Settles O48: issue of a sound or faulty command, the transfer queue, the Bollard and Tandem. -/
theorem elvowCommandsIssueComputeAndMove : Obligations.ElvowCommandsIssueComputeAndMove := by
  refine ⟨fun s inst k op cx hs h => ?_, fun s inst k op cx hs h => ?_, fun s inst k op cx why l hs hc hm ho hf hst hx => ?_,
    fun s inst op cx hs h hx => ?_, fun s inst j x run cx0 hs hj hr hc hz => ?_, fun s inst j hs h => ?_,
    fun s q n v hs => ⟨fun h => ?_, fun h => ?_⟩, fun s inst left p cx hs hp hc => ?_⟩
  · exact exec_elvCompute hs (State.elvCompute_of_ready h)
  · exact exec_elvTransfer hs (State.elvTransfer_of_ready h)
  · have hcompute := exec_elvCompute hs (State.elvIssue_of_fault _ hc hm ho hf hst hx)
    obtain ⟨h1, h2, h3, h4, h5, h6⟩ := hcompute
    exact ⟨h1, h2, h3, h4, h5, h6, exec_elvTransfer hs (State.elvIssue_of_fault _ hc hm ho hf hst hx)⟩
  · exact exec_elvLayer hs (State.elvLayer_of_drained h hx)
  · intro cx hrefs hfin u
    exact act_eq_of hs (doElvTransferComplete_of_ready (s := s.begin) hj hr hc hz hrefs hfin)
  · exact act_eq_of hs (doElvTransferComplete_of_none (s := s.begin) h)
  · exact act_eq_of hs (if_pos h)
  · exact act_eq_of hs (if_neg (ne_true_of_eq_false h))
  · intro u
    refine act_eq_of hs ((doTandemIssue_eq (s := s.begin) left hp hc).trans ?_)
    have hnow : (if cx.run.layer = 0 then s.begin else s.begin.bump (Reg.ELV_LAYER_COUNT inst)).time.now = s.time.now := by
      split <;> rfl
    rw [hnow]

end

section
/-! Command rings and the dispatch of neural requests (R321, R511, R522). -/
namespace Sys2Proof.Machine

section
variable {s : State} {q : Fin 4} {v : Word}

theorem doCmdringDoorbell_of_badState (h : s.quays[q].st.takesRequests = false) :
    doCmdringDoorbell q v s = (s.bump (Reg.HM_CMDRING_BAD_STATE_COUNT q)).answer St.BAD_STATE := by
  rw [doCmdringDoorbell]
  exact if_pos (by rw [h]; rfl)

theorem doCmdringDoorbell_of_taken (h : s.quays[q].st.takesRequests = true) : doCmdringDoorbell q v s =
    if s.ringK (Reg.HM_CMDRING_BASE_HI q) = 0 ∨ 2 ^ s.ringK (Reg.HM_CMDRING_BASE_HI q) ≤ fld v 11 0 then
      (s.ignoredWrite (Reg.HM_CMDRING_PRODUCER q)).answer St.OK
    else (s.put (Reg.HM_CMDRING_PRODUCER q) (fld v 11 0)).answer St.OK := by
  rw [doCmdringDoorbell]
  exact if_neg (by rw [h]; decide)

theorem doCmdringEntryRead_of_empty (h : fld (s.reg (Reg.HM_CMDRING_PRODUCER q)) 11 0 = fld (s.reg (Reg.HM_CMDRING_CONSUMER q)) 11 0) :
    doCmdringEntryRead q s = s := if_pos (.inr (.inl h))

/-- The bytes of the ring's next entry, and the state that has taken it. -/
def State.ringEntry (s : State) (q : Fin 4) : List Byte :=
  s.bytesAt (s.ringBase (Reg.HM_CMDRING_BASE_LO q) + 64 * fld (s.reg (Reg.HM_CMDRING_CONSUMER q)) 11 0) 64
def State.entryTaken (s : State) (q : Fin 4) : State :=
  s.put (Reg.HM_CMDRING_CONSUMER q) ((fld (s.reg (Reg.HM_CMDRING_CONSUMER q)) 11 0 + 1) % 2 ^ s.ringK (Reg.HM_CMDRING_BASE_HI q))

/-- The next entry of the ring is read and judged. -/
theorem doCmdringEntryRead_of_entry (hk : s.ringK (Reg.HM_CMDRING_BASE_HI q) ≠ 0) (hst : s.quays[q].st.takesRequests = true)
    (hroom : s.quays[q].waitingRequests.length < 256)
    (h : fld (s.reg (Reg.HM_CMDRING_PRODUCER q)) 11 0 ≠ fld (s.reg (Reg.HM_CMDRING_CONSUMER q)) 11 0) :
    doCmdringEntryRead q s = match (s.entryTaken q).judgeEntryCmd q (s.ringEntry q) with
      | some st => (s.entryTaken q).requestRecord q (entryRequest (s.ringEntry q)) st
      | none => (s.entryTaken q).modQuay q (fun x => { x with requests := x.requests ++ [entryRequest (s.ringEntry q)] }) := by
  refine if_neg ?_
  rintro (h0 | h0 | h0 | h0)
  · exact hk h0
  · exact h h0
  · rw [hst] at h0
    cases h0
  · exact Nat.not_le.mpr hroom h0

theorem doNeuralRequestDispatch_of_inactive (placed : Bool) (h : s.quays[q].st.active = false) : doNeuralRequestDispatch q placed s = s :=
  if_pos (.inl (by rw [h]; rfl))

/-- The first waiting request whose window is open, by the voyages that are free. -/
theorem doNeuralRequestDispatch_of_able {r : Request} {i : Nat} {n : FrameNo} (placed : Bool) (hst : s.quays[q].st.active = true)
    (hp : s.salv[q].phase ≠ .replaying)
    (hr : s.quays[q].waitingRequests.findSome? (fun r => (s.requestStage q r.stage).bind (fun i =>
      (s.quays[q].openFor i).map (fun f => (r, i, f.num)))) = some (r, i, n)) :
    doNeuralRequestDispatch q placed s = match s.freeVoyages q with
      | [] => s.completeRequest q r St.BUSY
      | v :: _ => if placed = false then s.completeRequest q r St.NO_ROOM
        else (s.runRequest q n i (some r) { r with voyage := some v, frame := n, dispatchedAt := s.time.now }).settlePiloted q := by
  unfold doNeuralRequestDispatch
  rw [if_neg (not_or.mpr ⟨by rw [hst]; decide, hp⟩)]
  dsimp only
  rw [hr]
  cases s.freeVoyages q <;> cases placed <;> rfl

end

end Sys2Proof.Machine

open Sys2Proof Sys2Proof.Machine

/-- Settles O50: doorbells by state and index, entries by their judgement, requests by what is free. -/
theorem commandRingsAndNeuralDispatch : Obligations.CommandRingsAndNeuralDispatch := by
  refine ⟨fun s q v hs => ?_, fun s q hs => ?_, fun s q placed r i n hs hst hp hr => ?_, fun s q placed hs hst => ?_⟩
  · intro k
    refine ⟨fun hst => ?_, fun hst h => ?_, fun hst hk h => ?_⟩
    · exact act_eq_of hs (doCmdringDoorbell_of_badState (s := s.begin) hst)
    · exact act_eq_of hs ((doCmdringDoorbell_of_taken (s := s.begin) hst).trans (if_pos h))
    · exact act_eq_of hs ((doCmdringDoorbell_of_taken (s := s.begin) hst).trans (if_neg (not_or.mpr ⟨hk, Nat.not_le.mpr h⟩)))
  · intro k c hk hst hroom
    refine ⟨fun h => ?_, fun h => ?_⟩
    · exact act_eq_of hs (doCmdringEntryRead_of_empty (s := s.begin) h)
    · intro b u
      have hdo := doCmdringEntryRead_of_entry (s := s.begin) hk hst hroom h
      refine ⟨fun st hj => ?_, fun hj => ?_⟩
      · rw [show (s.begin.entryTaken q).judgeEntryCmd q (s.begin.ringEntry q) = some st from hj] at hdo
        exact act_eq_of hs hdo
      · rw [show (s.begin.entryTaken q).judgeEntryCmd q (s.begin.ringEntry q) = none from hj] at hdo
        exact act_eq_of hs hdo
  · have hdo := doNeuralRequestDispatch_of_able (s := s.begin) placed hst hp hr
    refine ⟨fun hv => ?_, fun v l hv => ⟨fun hp => ?_, fun hp => ?_⟩⟩
    · exact act_eq_of hs (hdo.trans (by rw [hv]))
    · exact act_eq_of hs (hdo.trans (by rw [hv]; exact if_pos hp))
    · exact act_eq_of hs (hdo.trans (by rw [hv]; exact if_neg (ne_false_of_eq_true hp)))
  · exact act_eq_of hs (doNeuralRequestDispatch_of_inactive (s := s.begin) placed hst)

end

section
/-! Tender's channels: the state table, triggers, lines and ends (R424-R439). -/
namespace Sys2Proof.Machine

/-- An update of a channel counts for what it makes of that channel alone. -/
theorem State.modChan_congr {s : State} {n : Nat} {f g : TChan → TChan} (h : f (s.chan n) = g (s.chan n)) : s.modChan n f = s.modChan n g := by
  have hmod : modAt s.tender n f = modAt s.tender n g := by
    unfold modAt
    split
    next x hx =>
      have hchan : s.chan n = x := by simp [State.chan, List.getD_eq_getElem?_getD, hx]
      rw [hchan] at h
      rw [h]
    next => rfl
  unfold State.modChan
  rw [hmod]

section
variable {s : State} {n : Nat}

section
variable {q : Fin 4} (h : s.chanOwner n = some q)
include h

theorem State.chanStart_of_held : s.chanStart n = s.chanIgnored (Reg.TENDER_CH_CMD n) := if_pos (by rw [h]; rfl)
theorem State.chanPause_of_held : s.chanPause n = s.chanIgnored (Reg.TENDER_CH_CMD n) := if_pos (by rw [h]; rfl)
theorem State.chanResume_of_held : s.chanResume n = s.chanIgnored (Reg.TENDER_CH_CMD n) := if_pos (by rw [h]; rfl)
theorem State.chanAbort_of_held : s.chanAbort n = s.chanIgnored (Reg.TENDER_CH_CMD n) := if_pos (by rw [h]; rfl)

end

section
variable (h : s.chanOwner n = none)
include h

/-- START of a free channel (R427, R435). -/
theorem State.chanStart_of_free : s.chanStart n =
    if (s.chan n).st ≠ .idle ∧ (s.chan n).st ≠ .halted then s.chanBadState n
    else if (s.chanCfg n).ok n (s.addr48 (Reg.TENDER_CH_SRC_LO n)) (s.addr48 (Reg.TENDER_CH_DST_LO n))
        (s.reg (Reg.TENDER_CH_COUNT n)).toNat false = false then
      (s.modChan n (fun t => { t with cmdStatus := St.REFUSED })).answer St.REFUSED
    else (s.modChan n (fun t => (t.arm (s.chanCfg n) (s.addr48 (Reg.TENDER_CH_SRC_LO n)) (s.addr48 (Reg.TENDER_CH_DST_LO n))
      (s.reg (Reg.TENDER_CH_COUNT n)).toNat none).followOn (s.chanCfg n))).chanOk n := by
  unfold State.chanStart
  rw [if_neg (by rw [h]; decide)]
  simp only [Bool.not_eq_true']

/-- PAUSE of a free channel (R435, R436). -/
theorem State.chanPause_of_free : s.chanPause n = match (s.chan n).st with
    | .armed => (s.modChan n (fun t => { t with st := .paused, cut := false })).chanOk n
    | .running => (s.modChan n (fun t => { t with st := .pausing, lines := t.readLines })).chanOk n
    | _ => s.chanBadState n := if_neg (by rw [h]; decide)

/-- RESUME of a free channel (R435). -/
theorem State.chanResume_of_free : s.chanResume n = match (s.chan n).st with
    | .paused =>
      (s.modChan n (fun t => if t.cut then t.continue (s.chanCfg n)
        else ({ t with st := .armed } : TChan).followOn (s.chanCfg n))).chanOk n
    | .halted => (s.modChan n (fun t => t.continue (s.chanCfg n))).chanOk n
    | _ => s.chanBadState n := if_neg (by rw [h]; decide)

/-- ABORT of a free channel (R435). -/
theorem State.chanAbort_of_free : s.chanAbort n = match (s.chan n).st with
    | .idle => s.chanBadState n
    | .aborting => s.chanBadState n
    | _ => (s.chanStop n).chanOk n := if_neg (by rw [h]; decide)

end

/-- ABORT of a free channel by its state. -/
theorem State.chanAbort_of_rest (h : s.chanOwner n = none) (hst : (s.chan n).st = .armed ∨ (s.chan n).st = .paused ∨ (s.chan n).st = .halted) :
    s.chanAbort n = (s.chanAborted n).chanOk n := by
  rw [State.chanAbort_of_free h, State.chanStop]
  rcases hst with e | e | e <;> rw [e]

theorem State.chanAbort_of_moving (h : s.chanOwner n = none)
    (hst : (s.chan n).st = .running ∨ (s.chan n).st = .pausing ∨ (s.chan n).st = .halting) :
    s.chanAbort n = (s.modChan n (fun t => { t with st := .aborting, lines := t.flying })).chanOk n := by
  rw [State.chanAbort_of_free h, State.chanStop]
  rcases hst with e | e | e <;> rw [e]

theorem State.chanPause_of_other (h : s.chanOwner n = none) (ha : (s.chan n).st ≠ .armed) (hr : (s.chan n).st ≠ .running) :
    s.chanPause n = s.chanBadState n := by
  rw [State.chanPause_of_free h]
  split
  next e => exact absurd e ha
  next e => exact absurd e hr
  next => rfl

theorem State.chanResume_of_other (h : s.chanOwner n = none) (hp : (s.chan n).st ≠ .paused) (hh : (s.chan n).st ≠ .halted) :
    s.chanResume n = s.chanBadState n := by
  rw [State.chanResume_of_free h]
  split
  next e => exact absurd e hp
  next e => exact absurd e hh
  next => rfl

theorem State.chanAbort_of_ended (h : s.chanOwner n = none) (hst : (s.chan n).st = .idle ∨ (s.chan n).st = .aborting) :
    s.chanAbort n = s.chanBadState n := by
  rw [State.chanAbort_of_free h]
  rcases hst with e | e <;> rw [e]

/-! The ends of a halt, a pause and an abort. -/

section
variable (hl : (s.chan n).lines ≠ [])
include hl

theorem doTenderHaltDrained_of_lines : doTenderHaltDrained n s = s := if_pos (.inr hl)
theorem doPauseDrained_of_lines : doPauseDrained n s = s := if_pos (.inr hl)
theorem doAbortDrained_of_lines : doAbortDrained n s = s := if_pos (.inr hl)
theorem doTransferComplete_of_lines : doTransferComplete n s = s := if_pos (.inr (.inl hl))

end

section
variable (hl : (s.chan n).lines = [])
include hl

theorem doTenderHaltDrained_of_drained (hst : (s.chan n).st = .halting) (ht : (s.chan n).tag = none) : doTenderHaltDrained n s =
    (s.modChan n (fun t => { t with st := .halted, lastStatus := (s.chan n).haltCode, tag := none, trig := t.trig })).setEvent
      (Reg.TENDER_CH_EVENT n) 2 := by
  unfold doTenderHaltDrained
  dsimp only
  rw [if_neg (by simp [hst, hl])]
  simp only [ht]
  exact congrArg (fun u => State.setEvent u (Reg.TENDER_CH_EVENT n) 2) (State.modChan_congr (by simp [ht]))

theorem doPauseDrained_of_drained (hst : (s.chan n).st = .pausing) : doPauseDrained n s = s.modChan n (fun t => { t with
    st := .paused, early := [], cut := decide ((s.chan n).written < (s.chan n).blockEnd ∨ (s.chan n).written = (s.chan n).count) }) := by
  unfold doPauseDrained
  dsimp only
  rw [if_neg (by simp [hst, hl])]
  exact State.modChan_congr rfl

theorem doAbortDrained_of_drained (hst : (s.chan n).st = .aborting) : doAbortDrained n s = s.chanAborted n :=
  if_neg (by rw [hst, hl]; decide)

/-- A free channel's transfer whose every write has its response, the check's included. -/
theorem doTransferComplete_of_written (hst : (s.chan n).st = .running) (hw : (s.chan n).count ≤ (s.chan n).written)
    (hc : (s.chanCfg n).store = true → (s.chan n).stored = true) (ht : (s.chan n).tag = none) :
    doTransferComplete n s = ((s.modChan n (TChan.completed (s.chanCfg n))).wrapBy (Reg.TENDER_CH_DONE_COUNT n) 1).setEvent
      (Reg.TENDER_CH_EVENT n) (1 + bitAt (s.chan n).poison 2) := by
  have hopen : ¬((s.chan n).st ≠ .running ∨ (s.chan n).lines ≠ [] ∨ (s.chan n).written < (s.chan n).count ∨
      ((s.chanCfg n).store && !(s.chan n).stored) = true) := by
    simpa [hst, hl, Nat.not_lt.mpr hw] using hc
  unfold doTransferComplete
  dsimp only
  rw [if_neg hopen]
  simp only [ht]

end

/-! Triggers. -/

theorem doTenderTimerFire_of_due (hn : n < 8) (he : flag (s.reg (Reg.TENDER_TIMER_CTRL n)) 0 = true)
    (hp : fld (s.reg (Reg.TENDER_TIMER_PERIOD n)) 19 0 ≠ 0)
    (hd : nextFiring (fld (s.reg (Reg.TENDER_TIMER_PERIOD n)) 19 0) (fld (s.reg (Reg.TENDER_TIMER_CTRL n)) 20 1) (s.timers.getD n 0) ≤ s.time.now) :
    doTenderTimerFire n s = ({ s with timers := setAt s.timers n (nextFiring (fld (s.reg (Reg.TENDER_TIMER_PERIOD n)) 19 0)
      (fld (s.reg (Reg.TENDER_TIMER_CTRL n)) 20 1) (s.timers.getD n 0)) } : State).triggerAll
        (fun cfg _ => decide (cfg.trig = 1 ∧ cfg.index = n)) := by
  refine if_neg ?_
  rintro (h | h | h | h)
  · omega
  · rw [he] at h
    cases h
  · exact hp h
  · exact Nat.not_lt.mpr hd h

theorem doTenderTimerFire_of_early (h : flag (s.reg (Reg.TENDER_TIMER_CTRL n)) 0 = false ∨ s.time.now <
      nextFiring (fld (s.reg (Reg.TENDER_TIMER_PERIOD n)) 19 0) (fld (s.reg (Reg.TENDER_TIMER_CTRL n)) 20 1) (s.timers.getD n 0)) :
    doTenderTimerFire n s = s := by
  refine if_pos (.inr ?_)
  rcases h with h | h
  · exact .inl (by rw [h]; rfl)
  · exact .inr (.inr h)

theorem doPeripheralRequest_eq (s : State) (i : Fin 16) :
    doPeripheralRequest i s = s.triggerAll (fun cfg t => decide (cfg.trig = 3 ∧ cfg.index = i.val) && decide (t.st = .armed)) := by
  simp only [doPeripheralRequest, i.isLt, and_true]

theorem State.trigger_of_armed (h : (s.chan n).st = .armed) : s.trigger n = s.modChan n (TChan.block (s.chanCfg n)) := by
  simp only [State.trigger, h]

/-- A trigger that a channel at work holds, or loses. -/
theorem State.trigger_of_busy (h : (s.chan n).st = .running ∨ (s.chan n).st = .pausing ∨ (s.chan n).st = .paused) :
    s.trigger n = if (s.chan n).trig then s.trigLost n else s.modChan n (fun t => { t with trig := true }) := by
  rcases h with h | h | h <;> simp only [State.trigger, h]

theorem State.trigger_of_rest (h : (s.chan n).st = .idle ∨ (s.chan n).st = .halted) : s.trigger n = s.trigLost n := by
  rcases h with h | h <;> simp only [State.trigger, h]

/-! Lines. -/

theorem doTenderWriteResponse_of_none {off : Nat} (wr : Bool) (st : Status) (bs : List Byte)
    (h : (s.chan n).lines.find? (fun l => l.off = off) = none) : doTenderWriteResponse n off wr st bs s = s := by
  simp only [doTenderWriteResponse, h]

section
variable {off : Nat} {l : TLine} (st : Status) (bs : List Byte) (h : (s.chan n).lines.find? (fun l => l.off = off) = some l)
  (hm : (s.chan n).st.moving = true) (hw : l.waiting = false)
include h hm hw

theorem doTenderWriteResponse_of_read (hd : l.data = none) :
    doTenderWriteResponse n off false st bs s = { s.lineRead n l st bs with reply := none } := by
  simp [doTenderWriteResponse, h, hm, hw, hd]

theorem doTenderWriteResponse_of_write {d : List Byte} {p : Bool} (hd : l.data = some (d, p)) :
    doTenderWriteResponse n off true st bs s = { s.lineWrite n l d p st with reply := none } := by
  simp [doTenderWriteResponse, h, hm, hw, hd]

end

theorem doTenderRetry_of_waiting {off : Nat} (hm : (s.chan n).st.moving = true)
    (h : (s.chan n).lines.any (fun l => decide (l.off = off) && l.waiting) = true) :
    doTenderRetry n off s = (s.modChan n (fun t => { t with
      lines := t.lines.map (fun k => if k.off = off then { k with waiting := false } else k) })).bump (Reg.TENDER_CH_RETRY_COUNT n) :=
  if_neg (by rw [hm, h]; decide)

end

/-! What each channel command runs. -/

section
variable {s t : State} {n : Fin 32} (hs : s.awake = true)
include hs

theorem exec_tenderStart (h : s.begin.chanStart n = t) : exec (.tenderStart n) s = .next (s.after t) :=
  act_eq_of (f := fun u => u.chanStart n) hs h
theorem exec_tenderPause (h : s.begin.chanPause n = t) : exec (.tenderPause n) s = .next (s.after t) :=
  act_eq_of (f := fun u => u.chanPause n) hs h
theorem exec_tenderResume (h : s.begin.chanResume n = t) : exec (.tenderResume n) s = .next (s.after t) :=
  act_eq_of (f := fun u => u.chanResume n) hs h
theorem exec_tenderAbort (h : s.begin.chanAbort n = t) : exec (.tenderAbort n) s = .next (s.after t) :=
  act_eq_of (f := fun u => u.chanAbort n) hs h

end

end Sys2Proof.Machine

open Sys2Proof Sys2Proof.Machine

/-- Settles O51: each command by the channel's holder and state, and the ends once no line is left. -/
theorem tenderCommandsFollowTheStateTable : Obligations.TenderCommandsFollowTheStateTable := by
  refine ⟨fun s n hs ho => ?_, fun s n q hs ho => ?_, fun s n hs hl => ⟨fun hst ht => ?_, fun hst => ?_, fun hst => ?_⟩,
    fun s n hs hl => ⟨?_, ?_, ?_⟩⟩
  · intro st cfg src dst count bad
    have hstart := State.chanStart_of_free (s := s.begin) ho
    have hpause := State.chanPause_of_free (s := s.begin) ho
    have hresume := State.chanResume_of_free (s := s.begin) ho
    have hrest : st = .idle ∨ st = .halted → ¬(st ≠ .idle ∧ st ≠ .halted) := by tauto
    refine ⟨fun hst hok => ?_, fun hst hok => ?_, fun hi hh => ?_, fun hst => ?_, fun hst => ?_, fun ha hr => ?_, fun hst => ?_,
      fun hst => ?_, fun hp hh => ?_, fun hst => ?_, fun hst => ?_, fun hst => ?_⟩
    · exact exec_tenderStart hs (hstart.trans ((if_neg (hrest hst)).trans (if_pos hok)))
    · exact exec_tenderStart hs (hstart.trans ((if_neg (hrest hst)).trans (if_neg (ne_false_of_eq_true hok))))
    · exact exec_tenderStart hs (hstart.trans (if_pos ⟨hi, hh⟩))
    · exact exec_tenderPause hs (hpause.trans (by rw [show (s.begin.chan n).st = _ from hst]))
    · exact exec_tenderPause hs (hpause.trans (by rw [show (s.begin.chan n).st = _ from hst]))
    · exact exec_tenderPause hs (State.chanPause_of_other (s := s.begin) ho ha hr)
    · exact exec_tenderResume hs (hresume.trans (by rw [show (s.begin.chan n).st = _ from hst]; rfl))
    · exact exec_tenderResume hs (hresume.trans (by rw [show (s.begin.chan n).st = _ from hst]; rfl))
    · exact exec_tenderResume hs (State.chanResume_of_other (s := s.begin) ho hp hh)
    · exact exec_tenderAbort hs (State.chanAbort_of_ended (s := s.begin) ho hst)
    · exact exec_tenderAbort hs (State.chanAbort_of_rest (s := s.begin) ho hst)
    · exact exec_tenderAbort hs (State.chanAbort_of_moving (s := s.begin) ho hst)
  · intro t
    exact ⟨exec_tenderStart hs (State.chanStart_of_held (s := s.begin) ho), exec_tenderPause hs (State.chanPause_of_held (s := s.begin) ho),
      exec_tenderResume hs (State.chanResume_of_held (s := s.begin) ho), exec_tenderAbort hs (State.chanAbort_of_held (s := s.begin) ho)⟩
  · exact act_eq_of hs (doTenderHaltDrained_of_drained (s := s.begin) hl hst ht)
  · exact act_eq_of hs (doPauseDrained_of_drained (s := s.begin) hl hst)
  · exact act_eq_of hs (doAbortDrained_of_drained (s := s.begin) hl hst)
  · exact act_eq_of hs (doTenderHaltDrained_of_lines (s := s.begin) hl)
  · exact act_eq_of hs (doPauseDrained_of_lines (s := s.begin) hl)
  · exact act_eq_of hs (doAbortDrained_of_lines (s := s.begin) hl)

/-- Settles O52: what triggers a channel, what a trigger does by its state, and what a response does to a line. -/
theorem tenderTriggersAndTransfers : Obligations.TenderTriggersAndTransfers := by
  refine ⟨fun s t hs => ?_, fun s i hs => ?_, fun s m hs => ⟨fun h => ?_, fun h => ?_⟩,
    fun s n => ⟨State.trigger_of_armed, fun h => ⟨fun ht => ?_, fun ht => ?_⟩, State.trigger_of_rest⟩,
    fun s n off wr st bs hs => ⟨fun h => ?_, fun l h hm hw => ⟨fun hd => ?_, fun d p hd => ?_⟩⟩, fun s n off hs hm h => ?_,
    fun s n hs => ⟨fun hst hl hw hc ht => ?_, fun hl => ?_⟩⟩
  · intro period due
    refine ⟨fun he hp hd => ?_, fun h => ?_⟩
    · exact act_eq_of hs (doTenderTimerFire_of_due (s := s.begin) t.isLt he hp hd)
    · exact act_eq_of hs (doTenderTimerFire_of_early (s := s.begin) h)
  · exact act_eq_of hs (doPeripheralRequest_eq s.begin i)
  · exact act_eq_of hs (if_pos h)
  · exact act_eq_of hs (if_neg h)
  · rw [State.trigger_of_busy h, ht]
    rfl
  · rw [State.trigger_of_busy h, ht]
    rfl
  · exact act_eq_of hs (doTenderWriteResponse_of_none (s := s.begin) wr st bs h)
  · exact act_eq_of hs (doTenderWriteResponse_of_read (s := s.begin) st bs h hm hw hd)
  · exact act_eq_of hs (doTenderWriteResponse_of_write (s := s.begin) st bs h hm hw hd)
  · exact act_eq_of hs (doTenderRetry_of_waiting (s := s.begin) hm h)
  · exact act_eq_of hs (doTransferComplete_of_written (s := s.begin) hl hst hw hc ht)
  · exact act_eq_of hs (doTransferComplete_of_lines (s := s.begin) hl)

end

section
/-! Onnak's frames: what the checks of a message leave, and what a message taken does (R442-R459). -/
namespace Sys2Proof.Machine

section
variable {s : State} {ty p : Nat} {frame : List Byte} {fcs : Bool}

theorem State.arrival_of_no_port (h : s.onnakUp p = false ∨ (etherBody frame).1 ≠ 0x88B5) : s.arrival ty p frame fcs = (s, none) := by
  unfold State.arrival
  dsimp only
  exact if_pos (by simpa using h)

theorem State.arrival_of_bad_fcs (hu : s.onnakUp p = true) (he : (etherBody frame).1 = 0x88B5) (hf : fcs = false) :
    s.arrival ty p frame fcs = (s.bump (Reg.ONNAK_PORT_FCS_COUNT p), none) := by
  subst hf
  unfold State.arrival
  dsimp only
  rw [if_neg (by rw [hu, he]; decide)]
  exact if_pos rfl

section
variable {u : State} (go : Nat → OHdr → List Byte → State → State)

theorem State.receive_of_none (h : s.arrival ty p frame fcs = (u, none)) : s.receive ty p frame fcs go = u := by
  rw [State.receive, h]

theorem State.receive_of_some {n : Nat} {hd : OHdr} {b : List Byte} (h : s.arrival ty p frame fcs = (u, some (n, hd, b))) :
    s.receive ty p frame fcs go = go n hd b u := by
  rw [State.receive, h]

end
end

section
variable {u : State} {n : Nat} {h : OHdr} {b : List Byte} {q : Fin 4}

theorem State.bindStatus_of_fenced (hst : u.quays[q].st = .empty ∨ u.quays[q].st = .faulted ∨ u.quays[q].st = .resetting) :
    u.bindStatus n h b q = St.FENCED := if_pos (hst.imp_right Or.symm)

variable {kinds : List FleetKind} {go : Fin 4 → FleetReq → State → State} (hq : quayOf? h.srcQuay = some q)
  (ht : u.quays[q].tide.toNat = h.srcTide)
include hq ht

/-- An answer that finds its request is applied to it. -/
theorem State.answered_of_found {r : FleetReq}
    (hr : u.onnak.reqs.find? (fun r => r.peer = n && r.tag = h.tag && r.quay = q.val && kinds.elem r.kind) = some r) :
    u.answered n h kinds go = (go q r (u.progress q)).settleAllDraining := by
  unfold State.answered
  simp only [hq]
  rw [if_neg (not_not.mpr ht), hr]

theorem State.answered_of_late (hr : u.onnak.reqs.find? (fun r => r.peer = n && r.tag = h.tag && r.quay = q.val && kinds.elem r.kind) = none) :
    u.answered n h kinds go = (u.bump (Reg.HM_QUAY_STALE_DROP_COUNT q)).bump (Reg.ONNAK_PEER_LATE_ANSWER_COUNT n) := by
  unfold State.answered
  simp only [hq]
  rw [if_neg (not_not.mpr ht), hr]

end

/-! HELLO and frames of other types. -/

/-- Port p has exchanged HELLO. -/
def State.helloNoted (s : State) (p : Nat) : State :=
  { s with onnak := { s.onnak with ports := modAt s.onnak.ports p (fun x => { x with helloed := true }) } }

section
variable {s : State} {p : Nat} {f : List Byte} (hu : s.onnakUp p = true) (he : (etherBody f).1 = 0x88B5) (hlen : 128 = (etherBody f).2.length)
  (hl : (OHdr.ofBytes ((etherBody f).2.take 64)).length = 64) (hty : (OHdr.ofBytes ((etherBody f).2.take 64)).type = Msg.HELLO)
  (hn : leAt ((etherBody f).2.drop 64) 10 1 < 8) (hv : (OHdr.ofBytes ((etherBody f).2.take 64)).version = 0x10)
include hu he hlen hl hty hn hv

/-- A sound HELLO record, up to the fleet it names. -/
theorem doHello_of_sound : doHello p f true s =
    let r := (etherBody f).2.drop 64
    let n := leAt r 10 1
    if leAt r 6 4 ≠ (s.reg Reg.ONNAK_FLEET_ID).toNat then s.bump (Reg.ONNAK_PEER_BAD_FRAME_COUNT n)
    else
      let u := s.helloNoted p
      let group := decide (f.take 6 = u.helloMac)
      let u :=
        if n = u.nodeId then
          let was := (u.peer n).st
          let u := (u.modPeer n (fun x => { x with st := .duplicate })).setEvent Reg.ONNAK_EVENT 4
          if was = .duplicate then u else u.service 5
        else u.helloFrom p n r (!group)
      let u := if group then u.answerHello p n (slice r 19 6) else u
      (List.range 6).foldl (fun (s : State) l => s.pump n l) u.settleAllDraining := by
  have hdrop : ((etherBody f).2.drop 64).length = 64 := by rw [List.length_drop]; omega
  have hsize : ¬(etherBody f).2.length < 64 := by omega
  unfold doHello
  dsimp only
  rw [if_neg (by rw [hu, he]; decide), if_neg (by simp [hsize, hdrop, hl]), if_neg (not_not.mpr hty), if_neg (Nat.not_le.mpr hn)]
  simp only [hdrop, hv, ne_eq, not_true_eq_false, or_false]
  rfl

theorem doHello_of_other_fleet (hf : leAt ((etherBody f).2.drop 64) 6 4 ≠ (s.reg Reg.ONNAK_FLEET_ID).toNat) :
    doHello p f true s = s.bump (Reg.ONNAK_PEER_BAD_FRAME_COUNT (leAt ((etherBody f).2.drop 64) 10 1)) :=
  (doHello_of_sound hu he hlen hl hty hn hv).trans (if_pos hf)

/-- A HELLO of this fleet from another node, sent to this node alone. -/
theorem doHello_of_peer (hf : leAt ((etherBody f).2.drop 64) 6 4 = (s.reg Reg.ONNAK_FLEET_ID).toNat) (hm : f.take 6 ≠ s.helloMac)
    (hme : leAt ((etherBody f).2.drop 64) 10 1 ≠ s.nodeId) :
    let r := (etherBody f).2.drop 64
    let n := leAt r 10 1
    doHello p f true s = (List.range 6).foldl (fun (s : State) l => s.pump n l)
      ((s.helloNoted p).helloFrom p n r true).settleAllDraining := by
  intro r n
  have hgroup : decide (f.take 6 = (s.helloNoted p).helloMac) = false := decide_eq_false hm
  have hother : leAt ((etherBody f).2.drop 64) 10 1 ≠ (s.helloNoted p).nodeId := hme
  refine (doHello_of_sound hu he hlen hl hty hn hv).trans ((if_neg (not_not.mpr hf)).trans ?_)
  dsimp only
  rw [hgroup, if_neg hother]
  rfl

end

section
variable {s : State} {p : Nat} {f : List Byte}

theorem doOtherEthertypeFrame_of_up (hp : p < 4) (hu : (s.port p).up = true) (h1 : (etherBody f).1 ≠ 0x88B5) (h2 : (etherBody f).1 ≠ 0x88F7) :
    doOtherEthertypeFrame p f s = s.bump (Reg.ONNAK_PORT_OTHER_COUNT p) := by
  unfold doOtherEthertypeFrame
  dsimp only
  rw [if_neg (by omega), if_neg]
  rintro (h | h | h | h)
  · omega
  · rw [hu] at h
    cases h
  · exact h1 h
  · exact h2 h

theorem doOtherEthertypeFrame_of_down (hp : p < 4) (hu : (s.port p).up = false) : doOtherEthertypeFrame p f s = s := by
  unfold doOtherEthertypeFrame
  dsimp only
  rw [if_neg (by omega), if_pos (.inr (.inl (by rw [hu]; rfl)))]

theorem doOtherEthertypeFrame_of_mgmt (hu : s.eth.up = true) (h : (etherBody f).1 = 0x88B5) :
    doOtherEthertypeFrame 4 f s = s.bump Reg.ETH_MGMT_DROP_COUNT := by
  unfold doOtherEthertypeFrame
  dsimp only
  rw [if_pos rfl, if_pos ⟨hu, h⟩]

end

end Sys2Proof.Machine

open Sys2Proof Sys2Proof.Machine

/-- Settles O53: the checks of a frame, what each message taken does, HELLO, and frames of other types. -/
theorem onnakMessagesAreJudgedAndApplied : Obligations.OnnakMessagesAreJudgedAndApplied := by
  refine ⟨fun s ty p frame fcs => ⟨State.arrival_of_no_port, State.arrival_of_bad_fcs⟩, fun s u p f fcs hs => ?_,
    fun s u p f fcs n h b hs => ?_, fun u n h b q => State.bindStatus_of_fenced, fun s u p f fcs n h b q hs hq ht => ?_,
    fun s p f hs hu => ?_, fun s p f hs => ⟨fun hp hu h1 h2 => ?_, fun hp hu => ?_, fun hp hu h => ?_⟩⟩
  · refine ⟨?_, ?_, ?_, ?_, ?_, ?_, ?_, ?_, ?_, ?_, ?_, ?_⟩ <;> exact fun h => act_eq_of hs (State.receive_of_none _ h)
  · refine ⟨fun hm => ?_, fun hm => ⟨fun hq => ?_, fun q hq => ?_⟩, fun hm => ?_, fun hm => ?_, fun hm => ?_, fun hm => ?_⟩
    · exact act_eq_of hs (State.receive_of_some _ hm)
    · exact act_eq_of hs ((State.receive_of_some _ hm).trans (by rw [hq]))
    · exact act_eq_of hs ((State.receive_of_some _ hm).trans (by rw [hq]))
    · exact act_eq_of hs (State.receive_of_some _ hm)
    · exact act_eq_of hs (State.receive_of_some _ hm)
    · exact act_eq_of hs (State.receive_of_some _ hm)
    · exact act_eq_of hs (State.receive_of_some _ hm)
  · intro sought
    refine ⟨?_, ?_, ?_, ?_, ?_, ?_, fun hm hr => ?_⟩
    iterate 6 exact fun hm r hr => act_eq_of hs ((State.receive_of_some _ hm).trans (State.answered_of_found hq ht hr))
    exact act_eq_of hs ((State.receive_of_some _ hm).trans (State.answered_of_late hq ht hr))
  · intro body h r n he hlen hl hty hn hv
    refine ⟨fun hf => ?_, fun hf hm hme => ?_⟩
    · exact act_eq_of hs (doHello_of_other_fleet (s := s.begin) hu he hlen hl hty hn hv hf)
    · exact act_eq_of hs (doHello_of_peer (s := s.begin) hu he hlen hl hty hn hv hf hm hme)
  · exact act_eq_of hs (doOtherEthertypeFrame_of_up (s := s.begin) hp hu h1 h2)
  · exact act_eq_of hs (doOtherEthertypeFrame_of_down (s := s.begin) hp hu)
  · subst hp
    exact act_eq_of hs (doOtherEthertypeFrame_of_mgmt (s := s.begin) hu h)

end

section
/-! Onnak's timers and links: what each does when its time has come (R442, R447-R452, R454, R456, R459, R464). -/
namespace Sys2Proof.Machine

section
variable {s : State}

theorem doHelloTimer_of_due (he : flag (s.reg Reg.ONNAK_CTRL) 0 = true) (h : s.onnak.helloAt + 10000000 ≤ s.time.now) :
    doHelloTimer s = ((List.range 4).filter (fun p => (s.port p).up)).foldl (fun (s : State) p => s.sendHello p)
      { s with onnak := { s.onnak with helloAt := s.time.now } } := by
  unfold doHelloTimer
  rw [if_neg (by simp [he]; omega)]
  rfl

theorem doHelloTimer_of_early (h : flag (s.reg Reg.ONNAK_CTRL) 0 = false ∨ s.time.now < s.onnak.helloAt + 10000000) : doHelloTimer s = s :=
  if_pos (by simpa using h)

section
variable {n p : Nat}

theorem doKeepaliveAck_of_due (hup : (s.peer n).st = .up) (hp : s.lanePort n 0 = some p) (h : (s.peer n).lastTx + 20000 ≤ s.time.now) :
    doKeepaliveAck n s = s.sendAck n p false := by
  unfold doKeepaliveAck
  rw [if_neg (not_or.mpr ⟨not_not.mpr hup, Nat.not_lt.mpr h⟩)]
  simp only [hp]

theorem doKeepaliveAck_of_early (h : s.time.now < (s.peer n).lastTx + 20000) : doKeepaliveAck n s = s := if_pos (.inr h)

theorem doAckTimer_of_due {e : Nat} (hup : (s.peer n).st = .up) (ha : (s.peer n).ackDue = [(0, e)]) (hp : s.lanePort n 1 = some p)
    (h : e + 2000 ≤ s.time.now) : doAckTimer n s = s.sendAck n p false := by
  unfold doAckTimer
  rw [if_neg (not_not.mpr hup)]
  simp [ha, h, hp]

theorem doAckTimer_of_early (hup : (s.peer n).st = .up) (h : ∀ e ∈ (s.peer n).ackDue, s.time.now < e.2 + 2000) : doAckTimer n s = s := by
  have hnone : (s.peer n).ackDue.filter (fun e => decide (e.2 + 2000 ≤ s.time.now)) = [] := by
    simp only [List.filter_eq_nil_iff, decide_eq_true_eq, Nat.not_le]
    exact h
  unfold doAckTimer
  rw [if_neg (not_not.mpr hup)]
  simp only [hnone, List.foldl_nil]

section
variable {l : Nat}

theorem doRtoExpiry_of_due (hup : (s.peer n).st = .up) (hu : ((s.peer n).tx.getD l LaneTx.idle).unacked ≠ [])
    (h : ((s.peer n).tx.getD l LaneTx.idle).since + fld (s.reg Reg.ONNAK_RTO) 9 0 * 1000 ≤ s.time.now) :
    doRtoExpiry n l s = s.resend n l :=
  if_neg (not_or.mpr ⟨not_not.mpr hup, not_or.mpr ⟨hu, Nat.not_lt.mpr h⟩⟩)

theorem doRtoExpiry_of_early (h : (s.peer n).st ≠ .up ∨ ((s.peer n).tx.getD l LaneTx.idle).unacked = [] ∨
      s.time.now < ((s.peer n).tx.getD l LaneTx.idle).since + fld (s.reg Reg.ONNAK_RTO) 9 0 * 1000) : doRtoExpiry n l s = s := if_pos h

end

theorem doPeerTimeout_of_silent (hup : (s.peer n).st = .up)
    (h : (s.peer n).lastRx + fld (s.reg Reg.ONNAK_PEER_TIMEOUT) 16 0 * 1000 ≤ s.time.now) :
    doPeerTimeout n s = (s.losePeer n).settleAllDraining := by
  unfold doPeerTimeout
  dsimp only
  rw [if_neg (by simp [hup, h])]

theorem doPeerTimeout_of_not_up (h : (s.peer n).st ≠ .up) : doPeerTimeout n s = s := by
  unfold doPeerTimeout
  dsimp only
  rw [if_pos (by simp [h])]

/-- A peer heard of in time, with every frame acknowledged, is kept. -/
theorem doPeerTimeout_of_heard (h : s.time.now < (s.peer n).lastRx + fld (s.reg Reg.ONNAK_PEER_TIMEOUT) 16 0 * 1000)
    (ht : ∀ t ∈ (s.peer n).tx, t.unacked = []) : doPeerTimeout n s = s := by
  have hstuck : (s.peer n).tx.any (fun t => match t.unacked.head? with
      | some u => decide (u.2.1 + fld (s.reg Reg.ONNAK_PEER_TIMEOUT) 16 0 * 1000 ≤ s.time.now)
      | none => false) = false := by
    simp only [List.any_eq_false]
    intro t hmem
    rw [ht t hmem]
    exact Bool.false_ne_true
  refine if_pos ?_
  rw [decide_eq_false (Nat.not_le.mpr h)]
  refine (Bool.or_eq_true _ _).mpr (.inr ?_)
  exact congrArg (fun b => !(false || b)) hstuck

section
variable {q : Fin 4} {f : FleetE} (hf : s.quays[q].fleetE n = some f)
include hf

theorem doBindRetry_of_due (hst : s.quays[q].st.active = true) (hb : (s.binding q n).st ≠ .bound)
    (h : (s.binding q n).sentAt + f.timeoutNs ≤ s.time.now) (hup : (s.peer n).st = .up) : doBindRetry q n s = s.sendBind q n := by
  unfold doBindRetry
  dsimp only
  rw [hf]
  exact if_pos (by rw [hst]; simp [hb, h, hup])

theorem doBindRetry_of_early (h : s.quays[q].st.active = false ∨ (s.binding q n).st = .bound ∨
      s.time.now < (s.binding q n).sentAt + f.timeoutNs) : doBindRetry q n s = s := by
  unfold doBindRetry
  dsimp only
  rw [hf]
  refine if_neg ?_
  simp only [Bool.and_eq_true, decide_eq_true_eq]
  rintro ⟨⟨⟨hst, hb⟩, hd⟩, _⟩
  rcases h with h | h | h
  · rw [h] at hst
    cases hst
  · exact hb h
  · omega

end

theorem doRequestDeadline_eq {tag : Nat} {r : FleetReq} (hr : s.onnak.reqs.find? (fun r => r.peer = n && r.tag = tag) = some r) :
    doRequestDeadline n tag s = if s.time.now < r.deadline then s else (s.endRequest r St.TIMEOUT).settleAllDraining := by
  unfold doRequestDeadline
  rw [hr]

end

theorem doWritePackTimeout_of_pack {i : Nat} {w : WritePack} (hw : s.onnak.packs[i]? = some w) :
    doWritePackTimeout i s = if 64 ≤ s.cyclesSince 0 w.since then s.sendPack w else s := by
  unfold doWritePackTimeout
  rw [hw]

theorem doWritePackTimeout_of_none {i : Nat} (hw : s.onnak.packs[i]? = none) : doWritePackTimeout i s = s := by
  unfold doWritePackTimeout
  rw [hw]

section
variable {p : Nat}

/-- Port p is up, with no HELLO exchanged yet. -/
def State.portUp (s : State) (p : Nat) : State := { s with onnak := { s.onnak with ports := setAt s.onnak.ports p ⟨true, true, false⟩ } }

theorem doLinkUp_of_enabled (hp : p < 4) (hu : (s.port p).up = false) (he : flag (s.reg (Reg.ONNAK_PORT_CTRL p)) 0 = true)
    (hv : flag (s.reg Reg.PMC_SERVICE_ACTIVE) 4 = false) :
    doLinkUp p s = if flag (s.reg Reg.ONNAK_CTRL) 0 then (s.portUp p).sendHello p else s.portUp p := by
  have hkeep : ¬(!(s.portUp p).portLost && flag ((s.portUp p).reg Reg.PMC_SERVICE_ACTIVE) 4) = true := by
    rw [show flag ((s.portUp p).reg Reg.PMC_SERVICE_ACTIVE) 4 = false from hv]
    simp
  unfold doLinkUp
  rw [if_neg (by simp [hu, he]; omega)]
  change (let u := if (!(s.portUp p).portLost && flag ((s.portUp p).reg Reg.PMC_SERVICE_ACTIVE) 4) = true then (s.portUp p).serviceEnd 4
    else s.portUp p
    if flag (u.reg Reg.ONNAK_CTRL) 0 then u.sendHello p else u) = _
  rw [if_neg hkeep]
  rfl

theorem doLinkUp_of_up_or_disabled (h : (s.port p).up = true ∨ flag (s.reg (Reg.ONNAK_PORT_CTRL p)) 0 = false) : doLinkUp p s = s :=
  if_pos (.inr (by simpa using h))

theorem doLinkDown_of_down (h : (s.port p).up = false) : doLinkDown p s = s := if_pos (.inr (by simp [h]))

/-- A port goes down that had exchanged no HELLO: no service is requested. -/
theorem doLinkDown_of_up (hp : p < 4) (hu : (s.port p).up = true) (hh : (s.port p).helloed = false) :
    let before := (List.range 8).map (fun n => [s.lanePort n 0, s.lanePort n 1])
    let u : State := { s with onnak := { s.onnak with
      ports := modAt s.onnak.ports p (fun x => { x with up := false, fecLocked := false })
      peers := s.onnak.peers.map (fun (x : Peer) => { x with heard := x.heard.filter (fun e => decide (e ≠ p)) }) } }
    doLinkDown p s = (List.range 8).foldl (fun (s : State) n => if (s.peer n).st = .up then s.moveLanes n p (before.getD n []) else s)
      ((u.bump (Reg.ONNAK_PORT_DOWN_COUNT p)).setEvent Reg.ONNAK_EVENT 2) := by
  intro before u
  unfold doLinkDown
  rw [if_neg (by simp [hu]; omega)]
  dsimp only
  rw [if_neg (by simp [hh])]

end
end

end Sys2Proof.Machine

open Sys2Proof Sys2Proof.Machine

/-- Settles O54: each timer by its time, each link by its port. -/
theorem onnakTimersAndLinks : Obligations.OnnakTimersAndLinks := by
  refine ⟨fun s hs => ⟨fun he h => ?_, fun h => ?_⟩, fun s n p hs hup => ⟨fun hp h => ?_, fun h => ?_, fun e ha hp h => ?_, fun h => ?_⟩,
    fun s n l hs => ?_, fun s n hs => ?_, fun s q n f hs hf => ⟨fun hst hb h hup => ?_, fun h => ?_⟩,
    fun s n tag r hs hr => ⟨fun h => ?_, fun h => ?_⟩, fun s i hs => ⟨fun w hw => ⟨fun h => ?_, fun h => ?_⟩, fun hw => ?_⟩,
    fun s p hs => ⟨fun hu he hv => ?_, fun h => ?_⟩, fun s p hs => ⟨fun hu hh => ?_, fun hu => ?_⟩⟩
  · exact act_eq_of hs (doHelloTimer_of_due (s := s.begin) he h)
  · exact act_eq_of hs (doHelloTimer_of_early (s := s.begin) h)
  · exact act_eq_of hs (doKeepaliveAck_of_due (s := s.begin) hup hp h)
  · exact act_eq_of hs (doKeepaliveAck_of_early (s := s.begin) h)
  · exact act_eq_of hs (doAckTimer_of_due (s := s.begin) hup ha hp h)
  · exact act_eq_of hs (doAckTimer_of_early (s := s.begin) hup h)
  · intro t rto
    exact ⟨fun hup hu h => act_eq_of hs (doRtoExpiry_of_due (s := s.begin) hup hu h),
      fun h => act_eq_of hs (doRtoExpiry_of_early (s := s.begin) h)⟩
  · intro limit
    exact ⟨fun hup h => act_eq_of hs (doPeerTimeout_of_silent (s := s.begin) hup h),
      fun h => act_eq_of hs (doPeerTimeout_of_not_up (s := s.begin) h),
      fun h ht => act_eq_of hs (doPeerTimeout_of_heard (s := s.begin) h ht)⟩
  · exact act_eq_of hs (doBindRetry_of_due (s := s.begin) hf hst hb h hup)
  · exact act_eq_of hs (doBindRetry_of_early (s := s.begin) hf h)
  · exact act_eq_of hs ((doRequestDeadline_eq (s := s.begin) hr).trans (if_neg (Nat.not_lt.mpr h)))
  · exact act_eq_of hs ((doRequestDeadline_eq (s := s.begin) hr).trans (if_pos h))
  · exact act_eq_of hs ((doWritePackTimeout_of_pack (s := s.begin) hw).trans (if_pos h))
  · exact act_eq_of hs ((doWritePackTimeout_of_pack (s := s.begin) hw).trans (if_neg (Nat.not_le.mpr h)))
  · exact act_eq_of hs (doWritePackTimeout_of_none (s := s.begin) hw)
  · intro u
    exact act_eq_of hs (doLinkUp_of_enabled (s := s.begin) p.isLt hu he hv)
  · exact act_eq_of hs (doLinkUp_of_up_or_disabled (s := s.begin) h)
  · intro before u
    exact act_eq_of hs (doLinkDown_of_up (s := s.begin) p.isLt hu hh)
  · exact act_eq_of hs (doLinkDown_of_down (s := s.begin) hu)

end

section
/-! Coastguard's commands (R472, R473, R480-R491). -/
namespace Sys2Proof.Machine

/-- An awake device is held in no cold reset: Coastguard's commands act. -/
theorem actAlive_of_awake {f : State → State} {s t : State} (hs : s.awake = true) (h : f s.begin = t) : actAlive f s = .next (s.after t) := by
  have hc : s.coldHeld = false := by
    unfold State.awake at hs
    simp at hs
    exact hs.1
  exact actAlive_eq_of hc h

section
variable {s : State}

theorem doDecision_of_none (h : s.cg.signals = []) : doDecision s = s := by
  rw [doDecision, h]

theorem doDecision_of_signal {c : Nat} {n : FrameNo} {rest : List (Nat × FrameNo)} (h : s.cg.signals = (c, n) :: rest) :
    doDecision s = ({ s with cg := { s.cg with signals := rest } } : State).decide' c n := by
  rw [doDecision, h]

theorem doAgeTick_of_no_chart (h : s.quays[(0 : Fin 4)].chart = none) : doAgeTick s = s := by
  rw [doAgeTick, h]

theorem doAgeTick_of_chart {c : Chart} (h : s.quays[(0 : Fin 4)].chart = some c) :
    doAgeTick s = (enum c.ages).foldl (fun (s : State) a => s.ageStep a.1 a.2.maxAgeUs) s := by
  rw [doAgeTick, h]

section
variable {i limit v : Nat} (hv : s.cg.ages.getD i none = some v)
include hv

theorem State.ageStep_of_within (h : v + 1 ≤ limit / 10) :
    s.ageStep i limit = { s with cg := { s.cg with ages := setAt s.cg.ages i (some (v + 1)) } } := by
  unfold State.ageStep
  simp only [hv]
  exact if_neg (fun ⟨hlt, _⟩ => Nat.not_lt.mpr h hlt)

theorem State.ageStep_of_over (h : limit / 10 < v + 1) (hi : i ∉ s.cg.overAge) :
    s.ageStep i limit = (({ s with cg := { s.cg with ages := setAt s.cg.ages i (some (v + 1)), overAge := s.cg.overAge ++ [i] } } :
      State).bump Reg.CG_AGE_FAULT_COUNT).cgSignal Cause.AGE := by
  unfold State.ageStep
  simp only [hv]
  exact if_pos ⟨h, by simpa using hi⟩

end

theorem doDescriptorCheck_eq {c : Chart} {p : MirrorPub} {rest : List MirrorPub} (hm : s.cg.mirror = p :: rest)
    (hc : s.quays[(0 : Fin 4)].chart = some c) :
    let u := s.checkPoint c p rest
    doDescriptorCheck s = if u.pointClean p ∧ u.cg.safe ∧ !u.cg.selfFault then
      ((({ u with cg := { u.cg with safe := false } } : State).driveSafe false)).notice else u := by
  unfold doDescriptorCheck
  simp only [hm, hc]

theorem doNoticeTimer_of_due (hsafe : s.cg.safe = true) (h : s.cg.noticeAt + fld (s.reg Reg.CG_NOTICE_PERIOD) 16 0 * 1000 ≤ s.time.now) :
    doNoticeTimer s = s.notice := if_neg (not_or.mpr ⟨by rw [hsafe]; decide, Nat.not_lt.mpr h⟩)

theorem doNoticeTimer_of_early (h : s.cg.safe = false ∨ s.time.now < s.cg.noticeAt + fld (s.reg Reg.CG_NOTICE_PERIOD) 16 0 * 1000) :
    doNoticeTimer s = s := if_pos (h.imp_left (fun hsafe => by rw [hsafe]; rfl))

/-- A command register of Coastguard that another initiator writes. -/
theorem State.cgWrite_of_other {ini : Initiator} (a : Nat) (f : State → State) (h : ini ≠ .cg) : s.cgWrite ini a f = s.ignoredWrite a := if_neg h

theorem State.cgWrite_of_cg (a : Nat) (f : State → State) : s.cgWrite .cg a f = f s := if_pos rfl

section
variable {v : Word} (hv : flag v 0 = true)
include hv

theorem doCgRelease_of_barred (h : s.releaseBarred = true) : doCgRelease .cg v s =
    (({ s with cg := { s.cg with releaseStatus := St.BAD_STATE } } : State).put Reg.CG_RELEASE_STATUS
      (min (fld (s.reg Reg.CG_RELEASE_STATUS) 31 16 + 1) 0xFFFF * 65536)).answer St.BAD_STATE := by
  rw [doCgRelease, State.cgWrite_of_cg]
  rw [if_neg (by rw [hv]; decide), if_pos h]
  rfl

theorem doCgRelease_of_free (h : s.releaseBarred = false) : doCgRelease .cg v s =
    (if Nat.land s.cg.active (0xFFF - latchedCauses) = s.cg.active then
        { s with cg := { s.cg with active := Nat.land s.cg.active (0xFFF - latchedCauses), releaseStatus := St.OK } }
      else ({ s with cg := { s.cg with active := Nat.land s.cg.active (0xFFF - latchedCauses), releaseStatus := St.OK } } : State).notice).answer
        St.OK := by
  rw [doCgRelease, State.cgWrite_of_cg]
  rw [if_neg (by rw [hv]; decide), if_neg (ne_true_of_eq_false h)]

theorem doCgSwRequest_of_cg : doCgSwRequest .cg v s = s.cgSignal Cause.SW_REQUEST := by
  rw [doCgSwRequest, State.cgWrite_of_cg, if_pos hv]

end

theorem doCgWdtKick_of_cg : doCgWdtKick .cg s = { s with cg := { s.cg with kickedAt := s.time.now } } := State.cgWrite_of_cg _ _

/-! Self-faults. -/

theorem State.selfFaulted_of_first (h : s.cg.selfFault = false) :
    s.selfFaulted = ({ s with cg := { s.cg with selfFault := true } } : State).decide' Cause.CG_SELF 0#32 := by
  rw [State.selfFaulted, if_neg (ne_true_of_eq_false h)]

theorem doWatchdogExpiry_of_due (h : true ∈ s.cg.pairs)
    (hd : s.cg.kickedAt + fld (s.reg Reg.CG_WDT_PERIOD) 13 0 * 1000 ≤ s.time.now) : doWatchdogExpiry s = s.selfFaulted := by
  have hany : s.cg.pairs.any (fun b => b) = true := List.any_eq_true.mpr ⟨true, h, rfl⟩
  exact if_neg (not_or.mpr ⟨by rw [hany]; decide, Nat.not_lt.mpr hd⟩)

theorem doWatchdogExpiry_of_early (h : s.time.now < s.cg.kickedAt + fld (s.reg Reg.CG_WDT_PERIOD) 13 0 * 1000) : doWatchdogExpiry s = s :=
  if_pos (.inr h)

theorem doSelfFault_of_ne {k : SelfFault} (hk : k ≠ .copies) : doSelfFault k s = s.selfFaulted := by
  unfold doSelfFault
  rw [decide_eq_true hk, Bool.and_true]

/-! Lighthouse verdicts. -/

section
variable {entry : Nat} {st : Status} {lines : List (Nat × Nat × List Byte)} {c : Chart} (hc : s.quays[(0 : Fin 4)].chart = some c)
include hc

theorem doLighthouseVerdict_of_no_run (h : s.cg.runs.find? (fun r => r.entry = entry) = none) : doLighthouseVerdict entry st lines s = s := by
  unfold doLighthouseVerdict
  simp only [hc, h]

/-- The engine unit that a run checks. -/
def Chart.runInst (c : Chart) (r : LhRun) : Nat × Nat :=
  ((c.engineAt ((c.lights.getD r.entry ⟨0, 0, 0, 0, 0⟩).engine)).cls, (c.engineAt ((c.lights.getD r.entry ⟨0, 0, 0, 0, 0⟩).engine)).inst)

/-- The first run of an engine that ends with POISON or TIMEOUT is UNLIT, and goes. -/
theorem doLighthouseVerdict_of_unlit {r : LhRun} {j : Nat} (hr : s.cg.runs.find? (fun r => r.entry = entry) = some r)
    (hfirst : s.cg.runs.find? (fun x => c.runInst x = c.runInst r) = some r) (hst : st = St.POISON ∨ st = St.TIMEOUT)
    (hj : lhSlot (c.runInst r).1 (c.runInst r).2 = some j)
    (hf : ((({ s with cg := { s.cg with runs := s.cg.runs.erase r } } : State).verdict j r.frame 3).lh j).fenced = false) :
    doLighthouseVerdict entry st lines s = ({ s with cg := { s.cg with runs := s.cg.runs.erase r } } : State).verdict j r.frame 3 := by
  unfold doLighthouseVerdict
  simp only [hc, hr]
  refine (if_neg (not_not.mpr hfirst)).trans ?_
  rw [if_pos hst]
  split
  next hj' => cases hj'.symm.trans hj
  next j' hj' =>
    cases hj'.symm.trans hj
    exact if_neg (ne_true_of_eq_false hf)

end
end

end Sys2Proof.Machine

open Sys2Proof Sys2Proof.Machine

/-- Settles O55: each of Coastguard's commands by what it finds; every one acts while the device is awake. -/
theorem coastguardDecidesAndReleases : Obligations.CoastguardDecidesAndReleases := by
  refine ⟨fun s hs => ⟨fun h => ?_, fun c n rest h => ?_⟩, fun s hs => ⟨fun h => ?_, fun c h => ?_⟩, fun s i limit v hv => ?_,
    fun s c p rest hs hm hc => ?_, fun s hs => ?_, fun s v hs hv => ⟨fun h => ?_, fun h => ?_⟩, fun s v hs hv => ?_, fun s hs => ?_,
    fun s ini v hs h => ⟨?_, ?_, ?_⟩, fun s hs hself => ?_, fun s entry st lines c hs hc => ?_⟩
  · exact actAlive_of_awake hs (doDecision_of_none (s := s.begin) h)
  · exact actAlive_of_awake hs (doDecision_of_signal (s := s.begin) h)
  · exact actAlive_of_awake hs (doAgeTick_of_no_chart (s := s.begin) h)
  · exact actAlive_of_awake hs (doAgeTick_of_chart (s := s.begin) h)
  · exact ⟨fun h => State.ageStep_of_within hv h, fun h hi => State.ageStep_of_over hv h hi⟩
  · intro u
    have hdo := doDescriptorCheck_eq (s := s.begin) hm hc
    refine ⟨fun hclean hsafe hself => ?_, fun h => ?_⟩
    · exact actAlive_of_awake hs (hdo.trans (if_pos ⟨hclean, hsafe, congrArg not hself⟩))
    · refine actAlive_of_awake hs (hdo.trans (if_neg ?_))
      rintro ⟨hclean, hsafe, hself⟩
      rcases h with h | h | h
      · exact Bool.false_ne_true (h.symm.trans hclean)
      · exact Bool.false_ne_true (h.symm.trans hsafe)
      · exact Bool.false_ne_true ((congrArg not h).symm.trans hself)
  · intro due
    exact ⟨fun hsafe h => actAlive_of_awake hs (doNoticeTimer_of_due (s := s.begin) hsafe h),
      fun h => actAlive_of_awake hs (doNoticeTimer_of_early (s := s.begin) h)⟩
  · exact actAlive_of_awake hs (doCgRelease_of_barred (s := s.begin) hv h)
  · exact actAlive_of_awake hs (doCgRelease_of_free (s := s.begin) hv h)
  · exact actAlive_of_awake hs (doCgSwRequest_of_cg (s := s.begin) hv)
  · exact actAlive_of_awake hs (doCgWdtKick_of_cg (s := s.begin))
  · exact actAlive_of_awake hs (State.cgWrite_of_other (s := s.begin) _ _ h)
  · exact actAlive_of_awake hs (State.cgWrite_of_other (s := s.begin) _ _ h)
  · exact actAlive_of_awake hs (State.cgWrite_of_other (s := s.begin) _ _ h)
  · intro due
    have hfault := State.selfFaulted_of_first (s := s.begin) hself
    refine ⟨fun hp h => ?_, fun h => ?_, fun k hk => ?_⟩
    · exact actAlive_of_awake hs ((doWatchdogExpiry_of_due (s := s.begin) hp h).trans hfault)
    · exact actAlive_of_awake hs (doWatchdogExpiry_of_early (s := s.begin) h)
    · exact actAlive_of_awake hs ((doSelfFault_of_ne (s := s.begin) hk).trans hfault)
  · intro instOf
    refine ⟨fun h => ?_, fun r j hr hfirst hst hj => ?_⟩
    · exact act_eq_of hs (doLighthouseVerdict_of_no_run (s := s.begin) hc h)
    · intro u hf
      exact act_eq_of hs (doLighthouseVerdict_of_unlit (s := s.begin) hc hr hfirst hst hj hf)

end

section
/-! The Salvage unit: hangs, dumps, shadows and replays (R499-R514). -/
namespace Sys2Proof.Machine

section
variable {s : State} {q : Fin 4}

section
variable {sp : List (Nat × Nat)} {c : Chart} (hc : s.quays[q].chart = some c)
include hc

/-- No unit waits inside the quay. -/
theorem doNoProgress_of_none (h : ((s.waits q sp).filter (fun w => w.kind ≠ 4)) = []) : doNoProgress q sp s = s := by
  unfold doNoProgress
  rw [hc]
  dsimp only
  rw [h]

/-- One unit waits inside the quay. -/
theorem doNoProgress_of_one {w : WaitRec} (hn : c.cfg.noProgressUs ≠ 0) (h : ((s.waits q sp).filter (fun w => w.kind ≠ 4)) = [w]) :
    doNoProgress q sp s = if (s.quays[q].st = .running ∨ s.quays[q].st = .docking) ∧
      max s.salv[q].progressAt w.since + c.cfg.noProgressUs * 1000 ≤ s.time.now then s.declareHung q 2 [] else s := by
  unfold doNoProgress
  rw [hc]
  dsimp only
  rw [h, if_neg hn]
  rfl

end

section
variable {ini : Initiator}

theorem doSalvageDeclare_of_other (h1 : ini ≠ .cg) (h2 : ini ≠ .mc) :
    doSalvageDeclare q ini s = (s.ignoredWrite (Reg.SALVAGE_QUAY_CMD q)).answer St.OK :=
  if_pos (by simp [mayDeclare, h1, h2])

theorem doSnapshot_of_other (h1 : ini ≠ .cg) (h2 : ini ≠ .mc) :
    doSnapshot q ini s = (s.ignoredWrite (Reg.SALVAGE_QUAY_CMD q)).answer St.OK :=
  if_pos (by simp [mayDeclare, h1, h2])

variable (hini : ini = .cg ∨ ini = .mc)
include hini

/-- A command of an initiator that may declare is not turned away for it. -/
theorem mayDeclare_not : ¬(!mayDeclare ini) = true := by simp [mayDeclare, hini]

theorem doSalvageDeclare_of_active (h : s.quays[q].st.active = true) :
    doSalvageDeclare q ini s = (s.declareHung q 4 []).salvStatus q St.OK := by
  rw [doSalvageDeclare, if_neg (mayDeclare_not hini), if_neg (by rw [h]; decide)]

theorem doSalvageDeclare_of_inactive (h : s.quays[q].st.active = false) : doSalvageDeclare q ini s = s.salvBadState q := by
  rw [doSalvageDeclare, if_neg (mayDeclare_not hini), if_pos (by rw [h]; rfl)]

theorem doSnapshot_of_active (h : s.quays[q].st.active = true) (hd : s.salv[q].dump = none) :
    doSnapshot q ini s = ((s.beginDump q 5 [] ((s.quays[q].requests).filter (fun r => r.voyage.isSome)).length).modSalv q
      (fun v => { v with phase := if v.phase = .idle then .dumping else v.phase })).salvStatus q St.OK := by
  rw [doSnapshot, if_neg (mayDeclare_not hini), if_neg (by rw [h, hd]; decide)]

theorem doSnapshot_of_inactive (h : s.quays[q].st.active = false) : doSnapshot q ini s = s.salvBadState q := by
  rw [doSnapshot, if_neg (mayDeclare_not hini), if_pos (.inl (by rw [h]; rfl))]

end

theorem doShadowMirror_of_unit {cls inst : Nat} (h : (s.quayUnits q).elem (cls, inst) = true) : doShadowMirror q cls inst s =
    { s with shadows := s.shadows.filter (fun e => !(decide (e.quay = q.val) && decide (e.unit = (cls, inst)))) ++
      [⟨q, (cls, inst), s.time.now, s.unitRecord q (cls, inst) []⟩] } :=
  if_neg (by rw [h]; decide)

theorem doShadowMirror_of_other {cls inst : Nat} (h : (s.quayUnits q).elem (cls, inst) = false) : doShadowMirror q cls inst s = s :=
  if_pos (by rw [h]; rfl)

/-! Dumps. -/

theorem State.dumpNext_of_none (answered : Bool) (h : s.salv[q].dump = none) : s.dumpNext q answered = s := by
  rw [State.dumpNext, h]

theorem State.dumpNext_of_unit {d : Dump} {u : UnitId} {rest : List UnitId} (answered : Bool) (hd : s.salv[q].dump = some d)
    (hr : s.ringTaken q d = false) (ht : d.todo = u :: rest) (ho : d.overtaken = false) :
    s.dumpNext q answered =
      let t := s.dumpRecord q (if answered then s.unitRecord q u d.cycle else s.shadowRecord q u 1 d.cycle)
      if rest.isEmpty then t.dumpEnded q else t := by
  rw [State.dumpNext, hd]
  dsimp only
  rw [if_neg (ne_true_of_eq_false hr), ht, ho]
  rfl

/-! Replays. -/

section
variable (hp : s.salv[q].phase = .replaying) (hr : s.salv[q].replay = none) (ha : s.quays[q].st.active = true)
include hp hr ha

theorem replay_open : ¬(s.salv[q].phase ≠ .replaying ∨ s.salv[q].replay.isSome = true ∨ (!s.quays[q].st.active) = true) := by
  rw [hp, hr, ha]
  decide

theorem doReplayDispatch_of_done (h : s.salv[q].suspects = []) :
    doReplayDispatch q s = s.modSalv q (fun v => { v with phase := .idle }) := by
  rw [doReplayDispatch, if_neg (replay_open hp hr ha), h]

theorem doReplayDispatch_of_suspect {r : Request} {rest : List Request} {i : Nat} {n : FrameNo} (h : s.salv[q].suspects = r :: rest)
    (ho : (s.requestStage q r.stage).bind (fun i => (s.quays[q].openFor i).map (fun f => (i, f.num))) = some (i, n)) :
    doReplayDispatch q s =
      let r' := { r with frame := n, dispatchedAt := s.time.now }
      ((s.modSalv q (fun v => { v with suspects := rest, replay := some r', replayAt := s.time.now })).runRequest q n i none r').settlePiloted q := by
  rw [doReplayDispatch, if_neg (replay_open hp hr ha), h]
  dsimp only
  rw [ho]

end

theorem doReplayTimeout_of_none (h : s.salv[q].replay = none) : doReplayTimeout q s = s := by
  rw [doReplayTimeout, h]

theorem doReplayTimeout_of_early (h : s.time.now < s.salv[q].replayAt + 1000000) : doReplayTimeout q s = s := by
  rw [doReplayTimeout]
  split
  · rfl
  · exact if_pos h

theorem doReplayTimeout_of_due {r : Request} {i : Nat} (hr : s.salv[q].replay = some r) (h : s.salv[q].replayAt + 1000000 ≤ s.time.now) :
    let u := (s.replayEnded q false).culprit q r
    u.requestStage q r.stage = some i →
    doReplayTimeout q s = ((u.stopEngine q r.frame i).finishStage q r.frame i St.HANG).settleRemote q := by
  intro u hu
  rw [doReplayTimeout, hr]
  dsimp only
  rw [if_neg (Nat.not_lt.mpr h), hu]

end

theorem exec_dumpUnitAnswer {s t : State} {q : Fin 4} (hs : s.awake = true) (h : s.begin.dumpNext q true = t) :
    exec (.dumpUnitAnswer q) s = .next (s.after t) := act_eq_of (f := fun u => u.dumpNext q true) hs h

theorem exec_dumpUnitTimeout {s t : State} {q : Fin 4} (hs : s.awake = true) (h : s.begin.dumpNext q false = t) :
    exec (.dumpUnitTimeout q) s = .next (s.after t) := act_eq_of (f := fun u => u.dumpNext q false) hs h

end Sys2Proof.Machine

open Sys2Proof Sys2Proof.Machine

/-- Settles O56: detection, declaration by initiator and state, and the next unit, release and replay. -/
theorem salvageDetectsDumpsAndReplays : Obligations.SalvageDetectsDumpsAndReplays := by
  refine ⟨fun s sp hs => ?_, fun s q sp c w hs hc hn => ⟨fun h => ?_, fun h => ?_⟩, fun s q ini hs => ⟨fun hini ha => ⟨?_, fun hd => ?_⟩,
    fun hini ha => ⟨?_, ?_⟩, fun h1 h2 => ⟨?_, ?_⟩⟩, fun s q cls inst hs => ⟨fun h => ?_, fun h => ?_⟩, fun s q hs hd => ⟨?_, ?_⟩,
    fun s q d u rest hs hd hr ht ho => ?_, fun s q hs => ?_, fun s q hs hp hr ha => ⟨fun h => ?_, fun r rest i n h ho => ?_⟩,
    fun s q hs => ⟨fun h => ?_, fun r i hr h => ?_⟩⟩
  · exact act_eq (doDetectorSample sp) s hs
  · exact act_eq_of hs (doNoProgress_of_none (s := s.begin) hc h)
  · intro due
    have hdo := doNoProgress_of_one (s := s.begin) hc hn h
    exact ⟨fun hst hdue => act_eq_of hs (hdo.trans (if_pos ⟨hst, hdue⟩)),
      fun hearly => act_eq_of hs (hdo.trans (if_neg (fun hdue => Nat.not_le.mpr hearly hdue.2)))⟩
  · exact act_eq_of hs (doSalvageDeclare_of_active (s := s.begin) hini ha)
  · exact act_eq_of hs (doSnapshot_of_active (s := s.begin) hini ha hd)
  · exact act_eq_of hs (doSalvageDeclare_of_inactive (s := s.begin) hini ha)
  · exact act_eq_of hs (doSnapshot_of_inactive (s := s.begin) hini ha)
  · exact act_eq_of hs (doSalvageDeclare_of_other (s := s.begin) h1 h2)
  · exact act_eq_of hs (doSnapshot_of_other (s := s.begin) h1 h2)
  · exact act_eq_of hs (doShadowMirror_of_unit (s := s.begin) h)
  · exact act_eq_of hs (doShadowMirror_of_other (s := s.begin) h)
  · exact exec_dumpUnitAnswer hs (State.dumpNext_of_none (s := s.begin) true hd)
  · exact exec_dumpUnitTimeout hs (State.dumpNext_of_none (s := s.begin) false hd)
  · intro ends
    exact ⟨exec_dumpUnitAnswer hs (State.dumpNext_of_unit (s := s.begin) true hd hr ht ho),
      exec_dumpUnitTimeout hs (State.dumpNext_of_unit (s := s.begin) false hd hr ht ho)⟩
  · exact act_eq (fun s => (s.modSalv q (fun v => { v with held := false })).answer St.OK) s hs
  · exact act_eq_of hs (doReplayDispatch_of_done (s := s.begin) hp hr ha h)
  · exact act_eq_of hs (doReplayDispatch_of_suspect (s := s.begin) hp hr ha h ho)
  · rcases h with h | h
    · exact act_eq_of hs (doReplayTimeout_of_none (s := s.begin) h)
    · exact act_eq_of hs (doReplayTimeout_of_early (s := s.begin) h)
  · intro u hu
    exact act_eq_of hs (doReplayTimeout_of_due (s := s.begin) hr h hu)

end

section
/-! Customs: boot, the recovery path, the mailbox and the debug gate (R398, R527-R534). -/
namespace Sys2Proof.Machine

section
variable {s : State}

/-! The release of a cold reset and training. -/

section
variable {src rec : Bool} {node : Nat} {medium : List Byte} (hc : s.coldHeld = true) (ht : s.pmc.tripHold = false)
include hc ht

/-- The straps latch (R537). -/
def State.strapped (s : State) (src rec : Bool) (node : Nat) (medium : List Byte) : State :=
  ({ s with coldHeld := false } : State).modCustoms (fun c => { c with
    strapSrc := src, strapRecovery := rec, nodeId := node % 8, mediumEmmc := src, medium := medium, lastStep := 1 })

/-- Sound fuses are latched, and a debug nonce drawn (R527, R534). -/
def State.fused (s : State) : State :=
  (s.modCustoms (fun c => { c with
    fuses := if c.fuses.kill && !c.fuses.opened then { c.fuses with opened := true } else c.fuses
    trained := [none, none], lastStep := 3 })).freshNonce

/-- A held device without a trip's hold is released. -/
theorem doColdResetRelease_of_held (sound : Bool) : doColdResetRelease src rec node medium sound s =
    if sound = false then
      ((s.strapped src rec node medium).draw.2.modCustoms (fun c => { c with
        phase := .halted, failCode := BitVec.ofNat 8 (s.strapped src rec node medium).draw.1 }))
    else if rec then (s.strapped src rec node medium).fused.modCustoms (fun c => { c with
      phase := .recovery, recovery := true, received := [], lastAnnounce := (s.strapped src rec node medium).fused.time.now })
    else (s.strapped src rec node medium).fused.bootFrom4 true := by
  unfold doColdResetRelease
  rw [if_neg (by simp [hc, ht])]
  cases sound <;> rfl

end

section
variable {k : Nat} (hk : k < 2) (hh : s.customs.phase ≠ .held) (hf : s.customs.phase ≠ .halted)
include hk hh hf

theorem doHbmTrainingDone_of_training (ok : Bool) (ht : s.customs.trained.getD k none = none) :
    let u := s.modCustoms (fun c => { c with trained := setAt c.trained k (some ok) })
    doHbmTrainingDone k ok s =
      (if ok then u else (List.range 8).foldl (fun s g => s.retireGroup (8 * k + g)) (u.service 1)).bootResume := by
  refine if_neg ?_
  rintro (h | h | h | h)
  · omega
  · exact hh h
  · exact hf h
  · rw [ht] at h
    cases h

end

theorem doHbmTrainingDone_of_trained {k : Nat} (ok : Bool) (ht : (s.customs.trained.getD k none).isSome = true) :
    doHbmTrainingDone k ok s = s := if_pos (.inr (.inr (.inr ht)))

/-! The recovery path. -/

theorem State.romSend_customs (s : State) (uart : Bool) (m : List Byte) : (s.romSend uart m).customs = s.customs := by
  unfold State.romSend
  split <;> rfl

theorem State.listening_of_recovery (h : s.customs.phase = .recovery) : ¬(!s.listening) = true := by
  rw [State.listening, h]
  decide

theorem State.listening_of_other (h : s.customs.phase ≠ .recovery) : (!s.listening) = true := by
  rw [State.listening, decide_eq_false h]
  rfl

theorem doAnnounce_of_due (hp : s.customs.phase = .recovery) (h : s.customs.lastAnnounce + 1000000000 ≤ s.time.now) :
    let m := romMsg 1 s.customs.failCode 0 (natLE 4 0x7460 ++ s.customs.fuses.macBytes)
    doAnnounce s = ((s.romSend false m).romSend true m).modCustoms (fun c => { c with lastAnnounce := s.time.now }) :=
  if_neg (not_or.mpr ⟨State.listening_of_recovery hp, Nat.not_lt.mpr h⟩)

theorem doAnnounce_of_early (h : s.customs.phase ≠ .recovery ∨ s.time.now < s.customs.lastAnnounce + 1000000000) : doAnnounce s = s :=
  if_pos (h.imp_left State.listening_of_other)

section
variable {uart : Bool} {off : Nat} {bs : List Byte}

theorem doRomData_of_listening (hp : s.customs.phase = .recovery) (hl : bs.length ≤ 1024) : doRomData uart off bs s =
    if off = s.customs.received.length then
      (s.modCustoms (fun c => { c with received := c.received ++ bs })).romSend uart (romMsg 3 St.OK off [])
    else s.romSend uart (romMsg 3 St.OK s.customs.received.length []) :=
  if_neg (not_or.mpr ⟨State.listening_of_recovery hp, Nat.not_lt.mpr hl⟩)

theorem doRomData_of_other (hp : s.customs.phase ≠ .recovery) : doRomData uart off bs s = s := if_pos (.inl (State.listening_of_other hp))

theorem doRomDone_of_other (hp : s.customs.phase ≠ .recovery) : doRomDone uart s = s := if_pos (State.listening_of_other hp)

theorem doRomDone_of_listening (hp : s.customs.phase = .recovery) :
    let code := s.imageCheck s.customs.received
    let u := s.romSend uart (romMsg 3 code s.customs.received.length [])
    doRomDone uart s = if code = St.OK then u.bootFrom6 s.customs.received (!s.customs.warm)
      else u.modCustoms (fun c => { c with received := [], failCode := code }) := by
  unfold doRomDone
  rw [if_neg (State.listening_of_recovery hp)]
  dsimp only
  rw [State.romSend_customs]

end

/-! The mailbox. -/

theorem State.mailbox_of_busy (k : Nat) (work : State → State × Status) (h : s.customs.mailbox.isSome = true) :
    s.mailbox k work = s.answer St.BUSY := if_pos h

/-- A mailbox command is taken: its work is done, and its status waits. -/
theorem State.mailbox_of_free (k : Nat) {work : State → State × Status} {u : State} {st : Status} (h : s.customs.mailbox = none)
    (hw : work s = (u, st)) : s.mailbox k work = (u.modCustoms (fun c => { c with mailbox := some ⟨k, st⟩ })).answer St.OK := by
  rw [State.mailbox, if_neg (by rw [h]; decide), hw]

theorem State.mbRollback_of_allowed (h1 : s.mbArg ≤ s.customs.imageVersion) (h2 : s.mbArg ≤ 64) (h3 : s.customs.fuses.rollback ≤ s.mbArg) :
    s.mbRollback = (s.modCustoms (fun c => { c with fuses := { c.fuses with rollback := s.mbArg } }), St.OK) :=
  if_neg (by omega)

theorem State.mbRollback_of_refused (h : s.customs.imageVersion < s.mbArg ∨ s.mbArg < s.customs.fuses.rollback) :
    s.mbRollback = (s, St.REFUSED) := if_pos (by omega)

/-- FUSE_PROGRAM of the field that requires signatures. -/
theorem State.mbFuse_of_sig (h : s.mbArg = 4) : s.mbFuse = if s.customs.fuses.sigRequired = false then
    (s.modCustoms (fun c => { c with fuses := { c.fuses with sigRequired := true } }), St.OK) else (s, St.REFUSED) := by
  unfold State.mbFuse
  dsimp only
  rw [if_neg (by omega)]
  exact if_congr (by simp [h]) rfl rfl

theorem doMailboxComplete_of_none (h : s.customs.mailbox = none) : doMailboxComplete s = s := by
  rw [doMailboxComplete, h]

theorem doMailboxComplete_of_some {m : Mailbox} (h : s.customs.mailbox = some m) : doMailboxComplete s =
    ((s.modCustoms (fun c => { c with mailbox := none })).put Reg.CUSTOMS_MB_STATUS m.status.toNat).raiseMsi 79 := by
  rw [doMailboxComplete, h]

end

/-! What each mailbox command runs. -/

section
variable {s t : State} (hs : s.awake = true)
include hs

theorem exec_verify (h : s.begin.mailbox 1 State.mbVerify = t) : exec .verify s = .next (s.after t) :=
  act_eq_of (f := fun u => u.mailbox 1 State.mbVerify) hs h
theorem exec_digest (h : s.begin.mailbox 2 State.mbDigest = t) : exec .digest s = .next (s.after t) :=
  act_eq_of (f := fun u => u.mailbox 2 State.mbDigest) hs h
theorem exec_attest (h : s.begin.mailbox 3 State.mbAttest = t) : exec .attest s = .next (s.after t) :=
  act_eq_of (f := fun u => u.mailbox 3 State.mbAttest) hs h
theorem exec_rollbackAdvance (h : s.begin.mailbox 4 State.mbRollback = t) : exec .rollbackAdvance s = .next (s.after t) :=
  act_eq_of (f := fun u => u.mailbox 4 State.mbRollback) hs h
theorem exec_fuseProgram (h : s.begin.mailbox 5 State.mbFuse = t) : exec .fuseProgram s = .next (s.after t) :=
  act_eq_of (f := fun u => u.mailbox 5 State.mbFuse) hs h
theorem exec_debugOpen (h : s.begin.mailbox 6 State.mbDebug = t) : exec .debugOpen s = .next (s.after t) :=
  act_eq_of (f := fun u => u.mailbox 6 State.mbDebug) hs h

end

end Sys2Proof.Machine

open Sys2Proof Sys2Proof.Machine

/-- Settles O57: the boot by its straps and fuses, the recovery path by its phase, the mailbox by whether it is free. -/
theorem bootMailboxAndRecoveryPath : Obligations.BootMailboxAndRecoveryPath := by
  refine ⟨fun s src rec sound node medium hc ht => ?_, fun s k hs hh hf => ?_, fun s v hs => ?_, fun s hs => ?_,
    fun s uart off bs hs => ?_, fun s hs hm => ?_, fun s hs hm => ?_, fun s m hs hm => ?_, fun s tok hs => ?_⟩
  · intro u go v
    have hdo := doColdResetRelease_of_held (s := s.begin) (src := src) (rec := rec) (node := node) (medium := medium) hc ht sound
    refine ⟨fun h => congrArg (keepNow s) (hdo.trans (if_pos h)), fun h hr => ?_, fun h hr => ?_⟩
    · exact congrArg (keepNow s) (hdo.trans ((if_neg (ne_false_of_eq_true h)).trans (if_pos hr)))
    · exact congrArg (keepNow s) (hdo.trans ((if_neg (ne_false_of_eq_true h)).trans (if_neg (ne_true_of_eq_false hr))))
  · intro u
    exact ⟨fun ht => ⟨act_eq_of hs (doHbmTrainingDone_of_training (s := s.begin) k.isLt hh hf true ht),
        act_eq_of hs (doHbmTrainingDone_of_training (s := s.begin) k.isLt hh hf false ht)⟩,
      fun ok ht => act_eq_of hs (doHbmTrainingDone_of_trained (s := s.begin) ok ht)⟩
  · exact act_eq (fun s => (s.coreRelease v).answer St.OK) s hs
  · intro m
    exact ⟨fun hp h => act_eq_of hs (doAnnounce_of_due (s := s.begin) hp h), fun h => act_eq_of hs (doAnnounce_of_early (s := s.begin) h)⟩
  · intro next
    refine ⟨fun hp hl => ⟨fun h => ?_, fun h => ?_⟩, fun hp => ⟨?_, ?_⟩, fun hp => ?_⟩
    · exact act_eq_of hs ((doRomData_of_listening (s := s.begin) hp hl).trans (if_pos h))
    · exact act_eq_of hs ((doRomData_of_listening (s := s.begin) hp hl).trans (if_neg h))
    · exact act_eq_of hs (doRomData_of_other (s := s.begin) hp)
    · exact act_eq_of hs (doRomDone_of_other (s := s.begin) hp)
    · intro code u
      have hdo := doRomDone_of_listening (s := s.begin) (uart := uart) hp
      exact ⟨fun h => act_eq_of hs (hdo.trans (if_pos h)), fun h => act_eq_of hs (hdo.trans (if_neg h))⟩
  · intro t
    exact ⟨exec_verify hs (State.mailbox_of_busy _ _ hm), exec_digest hs (State.mailbox_of_busy _ _ hm),
      exec_attest hs (State.mailbox_of_busy _ _ hm), exec_rollbackAdvance hs (State.mailbox_of_busy _ _ hm),
      exec_fuseProgram hs (State.mailbox_of_busy _ _ hm), exec_debugOpen hs (State.mailbox_of_busy _ _ hm)⟩
  · intro u ends
    refine ⟨?_, ?_, ?_, fun h1 h2 h3 => ?_, fun h => ?_, fun h hf => ?_, fun h hf => ?_, ?_, ?_⟩
    · exact exec_verify hs (State.mailbox_of_free 1 hm rfl)
    · exact exec_digest hs (State.mailbox_of_free 2 hm rfl)
    · exact exec_attest hs (State.mailbox_of_free 3 hm rfl)
    · exact exec_rollbackAdvance hs (State.mailbox_of_free 4 hm (State.mbRollback_of_allowed h1 h2 h3))
    · exact exec_rollbackAdvance hs (State.mailbox_of_free 4 hm (State.mbRollback_of_refused h))
    · exact exec_fuseProgram hs (State.mailbox_of_free 5 hm ((State.mbFuse_of_sig h).trans (if_pos hf)))
    · exact exec_fuseProgram hs (State.mailbox_of_free 5 hm ((State.mbFuse_of_sig h).trans (if_neg (ne_false_of_eq_true hf))))
    · exact exec_debugOpen hs (State.mailbox_of_free 6 hm rfl)
    · exact act_eq_of hs (doMailboxComplete_of_none (s := s.begin) hm)
  · exact act_eq_of hs (doMailboxComplete_of_some (s := s.begin) hm)
  · exact act_eq (fun s => (s.debugToken tok).1.answer (s.debugToken tok).2) s hs

end

section
/-! Resets by pin, register and rail, and the sensors' samples (R536, R545, R546, R552, R557, R562). -/
namespace Sys2Proof.Machine

theorem keep_eq_after (s t : State) : keep s t = .next (s.after t) := rfl

/-! Rails. -/

theorem aonLost_of_mem {rails : List Nat} (h : 12 ∈ rails ∨ 13 ∈ rails) : aonLost rails = true := by
  unfold aonLost
  rw [List.any_eq_true]
  rcases h with h | h
  · exact ⟨12, h, rfl⟩
  · exact ⟨13, h, rfl⟩

theorem aonLost_of_core {rails : List Nat} (h : ∀ r ∈ rails, r ≤ 11) : aonLost rails = false := by
  unfold aonLost
  simp only [List.any_eq_false, Bool.or_eq_true, decide_eq_true_eq]
  intro r hr
  have := h r hr
  omega

theorem aonLost_of_cg {rails : List Nat} (h : ∀ r ∈ rails, r = 14 ∨ r = 15) : aonLost rails = false := by
  unfold aonLost
  simp only [List.any_eq_false, Bool.or_eq_true, decide_eq_true_eq]
  intro r hr
  have := h r hr
  omega

theorem cgLost_of_core {rails : List Nat} (h : ∀ r ∈ rails, r ≤ 11) : cgLost rails = false := by
  unfold cgLost
  simp only [List.any_eq_false, Bool.or_eq_true, decide_eq_true_eq]
  intro r hr
  have := h r hr
  omega

theorem cgLost_of_cg {rails : List Nat} (hne : rails ≠ []) (h : ∀ r ∈ rails, r = 14 ∨ r = 15) : cgLost rails = true := by
  obtain ⟨r, hr⟩ := List.exists_mem_of_ne_nil rails hne
  unfold cgLost
  rw [List.any_eq_true]
  refine ⟨r, hr, ?_⟩
  rcases h r hr with rfl | rfl <;> rfl

theorem doRailFault_of_core {s : State} {rails : List Nat} (hne : rails ≠ []) (h : ∀ r ∈ rails, r ≤ 11) :
    doRailFault rails s = ((({ s with pmc := { s.pmc with railsOut := rails } } : State).service 9).warmReset false) := by
  obtain ⟨r, hr⟩ := List.exists_mem_of_ne_nil rails hne
  have hcore : rails.any (fun r => r ≤ 11) = true := List.any_eq_true.mpr ⟨r, hr, decide_eq_true (h r hr)⟩
  have hfilter : rails.filter (fun r => r ≤ 11) = rails := List.filter_eq_self.mpr (fun r hr => decide_eq_true (h r hr))
  unfold doRailFault
  rw [if_neg (ne_true_of_eq_false (cgLost_of_core h)), if_pos hcore, hfilter]

theorem doRailFault_of_cg {s : State} {rails : List Nat} (hne : rails ≠ []) (h : ∀ r ∈ rails, r = 14 ∨ r = 15) :
    doRailFault rails s = s.selfFaulted := by
  have hcore : rails.any (fun r => r ≤ 11) = false := by
    simp only [List.any_eq_false, decide_eq_true_eq]
    intro r hr
    have := h r hr
    omega
  unfold doRailFault
  rw [if_pos (cgLost_of_cg hne h), if_neg (ne_true_of_eq_false hcore)]

section
variable {s : State} {rails : List Nat} (hc : s.coldHeld = false)
include hc

theorem execRailFault_of_aon (h : aonLost rails = true) : execRailFault rails s = .next { (s.begin.railReset rails) with pending := s.pending } :=
  if_pos (by rw [hc, h]; rfl)

theorem execRailFault_of_other (h : aonLost rails = false) : execRailFault rails s = .next (s.after (doRailFault rails s.begin)) := by
  rw [execRailFault, if_neg (by rw [hc, h]; decide), keep_eq_after, if_neg (ne_true_of_eq_false hc)]

end

/-- WARM_RST_N rises outside a cold reset: the warm reset ends but for the hold of a trip (R546, R557). -/
theorem execWarmRstNRelease_of_running {s : State} (hc : s.coldHeld = false) :
    let u : State := { s.begin with pmc := { s.pmc with rstLow := false } }
    execWarmRstNRelease s = keep s (if s.pmc.tripHold = true then u else u.warmRelease) :=
  congrArg (keep s) (if_neg (ne_true_of_eq_false hc))

/-! Sensors. -/

theorem State.emergencyAt_ge (s : State) : 95 ≤ s.emergencyAt := by
  unfold State.emergencyAt
  split <;> decide

theorem State.tripAt_ge (s : State) : 110 ≤ s.tripAt := by
  unfold State.tripAt
  split <;> decide

/-- No emergency begins while every sensor and stack is cool. -/
theorem State.emergencyCheck_of_cool {s : State} (he : s.pmc.emergency = false) (hh : s.pmc.hotStacks = [])
    (ht : ∀ x ∈ s.pmc.temps.filterMap id, x < 95) : s.emergencyCheck = s := by
  have hhot : (s.pmc.temps.filterMap id).any (fun x => decide (s.emergencyAt ≤ x)) = false := by
    simp only [List.any_eq_false, decide_eq_true_eq]
    intro x hx
    have := ht x hx
    have := s.emergencyAt_ge
    omega
  unfold State.emergencyCheck
  dsimp only
  rw [hhot, hh, he]
  rfl

theorem mem_of_mem_enumFrom {α : Type} {e : Nat × α} : ∀ {xs : List α} {n : Nat}, e ∈ enumFrom n xs → e.2 ∈ xs
  | [], _, h => absurd h List.not_mem_nil
  | x :: xs, n, h => by
    rcases List.mem_cons.mp h with rfl | h
    · exact List.mem_cons_self
    · exact List.mem_cons_of_mem _ (mem_of_mem_enumFrom h)

/-- A sensor that the sample does not name reads 0. -/
theorem temps_getD_lt {temps : List Int} (h : ∀ t ∈ temps, t < 95) (k : Nat) : temps.getD k 0 < 95 := by
  rcases Nat.lt_or_ge k temps.length with hk | hk
  · rw [List.getD_eq_getElem _ _ hk]
    exact h _ (List.getElem_mem hk)
  · rw [List.getD_eq_default _ _ hk]
    decide

/-- The samples of the 32 die sensors. -/
def sampled (temps : List Int) : List Int := (List.range 32).map (fun k => temps.getD k 0)

theorem sampled_lt {temps : List Int} (h : ∀ t ∈ temps, t < 95) : ∀ x ∈ sampled temps, x < 95 := by
  intro x hx
  obtain ⟨k, _, rfl⟩ := List.mem_map.mp hx
  exact temps_getD_lt h k

theorem doSensorSample_of_cool {s : State} {temps : List Int} (ht : s.pmc.tripHold = false) (he : s.pmc.emergency = false)
    (hh : s.pmc.hotStacks = []) (hcool : ∀ t ∈ temps, t < 95) :
    doSensorSample temps s = s.modPmc (fun p => { p with temps := (sampled temps).map some, tripOnce := [] }) := by
  have hover : (enum (sampled temps)).filterMap (fun e => if s.tripAt ≤ e.2 then some e.1 else none) = [] := by
    refine List.filterMap_eq_nil_iff.mpr fun e hmem => if_neg ?_
    have hlt : e.2 < 95 := sampled_lt hcool e.2 (mem_of_mem_enumFrom hmem)
    have := s.tripAt_ge
    omega
  have hcheck : (s.modPmc (fun p => { p with temps := (sampled temps).map some, tripOnce := [] })).emergencyCheck =
      s.modPmc (fun p => { p with temps := (sampled temps).map some, tripOnce := [] }) := by
    refine State.emergencyCheck_of_cool he hh ?_
    simpa [State.modPmc, List.filterMap_map] using sampled_lt hcool
  change (let over' := (enum (sampled temps)).filterMap (fun e => if s.tripAt ≤ e.2 then some e.1 else none)
    let twice := over'.any (fun k => s.pmc.tripOnce.elem k)
    let u := s.modPmc (fun p => { p with temps := (sampled temps).map some, tripOnce := over' })
    let u := if u.coldHeld then u else u.emergencyCheck
    if twice then u.trip
    else if u.pmc.tripHold && (sampled temps).all (fun t => decide (t ≤ u.tripAt - 20)) then u.tripEnd
    else u) = _
  dsimp only
  rw [hover, hcheck, ite_self]
  refine (if_neg Bool.false_ne_true).trans (if_neg ?_)
  rw [State.modPmc, ht]
  exact Bool.false_ne_true

end Sys2Proof.Machine
end

section
/-! Epochs, clocks, supplies, MSI vectors and PCIe requests (R517, R519, R542-R549, R560). -/
namespace Sys2Proof.Machine

section
variable {s : State}

theorem doEpochBoundary_of_due (m : EpochSample) (o : McOrders) (h : (s.pmc.epochAt / 1000000 + 1) * 1000000 ≤ s.time.now) :
    let a := ((s.modPmc (fun p => { p with epochAt := s.time.now / 1000000 * 1000000 })).wrapBy Reg.PMC_EPOCH 1).readStacks m.stackTemps
    let b := ((((a.emergencyCheck).applyClocks).applyShares).applyMoves o.moves).put Reg.PMC_POWER_MW m.powerMw
    let c := (List.range 16).foldl (fun (s : State) r => s.put (Reg.PMC_RAIL_MA r) (m.railMa.getD r 0)) b
    doEpochBoundary m o s = (c.mcChoices o).envelope m.powerMw := if_neg (Nat.not_lt.mpr h)

theorem doClockChangeDone_of_due (h : s.pmc.epochAt + 2000 ≤ s.time.now) : doClockChangeDone s =
    allQuays.foldl (fun (s : State) q => s.startAfterClock q) (s.modPmc (fun p => { p with changing := [none, none] })) :=
  if_neg (Nat.not_lt.mpr h)

section
variable {r : Nat} (hr : r < 6)
include hr

/-- The supply's command, and whether it is acknowledged (R560). -/
theorem doVoutCommand_eq (ack : Bool) :
    let v := s.railFor r (s.voutMhz r)
    let u := s.emit (.pmbus (0x40 + r) ([0x21#8] ++ natLE 2 (v * 4096 / 10000)))
    doVoutCommand r ack s = if ack then u.modPmc (fun p => { p with vout := setAt p.vout r v, voutTries := setAt p.voutTries r 0 })
      else if s.pmc.voutTries.getD r 0 = 0 then u.modPmc (fun p => { p with voutTries := setAt p.voutTries r 1 })
      else u.voutFails r := if_neg (Nat.not_le.mpr hr)

end

section
variable {v : Nat} {x : Word} (hv : v < 256)
include hv

theorem doTopMsiWrite_of_no_file (h : 12 ≤ fld x 4 1) : doTopMsiWrite v x s = s.ignoredWrite (Reg.TOP_MSI v) := by
  rw [doTopMsiWrite, if_neg (Nat.not_le.mpr hv), if_pos h]

/-- A vector of an interrupt file: enabled with its bit pending, it sends one MSI (R519). -/
theorem doTopMsiWrite_of_file (h : fld x 4 1 < 12) :
    let u := s.put (Reg.TOP_MSI v) (fld x 16 0)
    let a := Reg.TOP_MSI_PENDING (v / 32)
    doTopMsiWrite v x s =
      if flag x 0 ∧ flag (u.reg a) (v % 32) then (u.setBits a (v % 32) (v % 32) 0).sendMsi v else u := by
  rw [doTopMsiWrite, if_neg (Nat.not_le.mpr hv), if_neg (Nat.not_le.mpr h)]

end

section
variable {a : Nat}

theorem doPcieInbound_of_read {n : Nat} (hn : 0 < n) (h1 : s.inSystemGroup a = true) (h2 : s.inSystemGroup (a + n - 1) = true) :
    doPcieInbound (.read a n) s = s.answer (s.devRead a n).1 0 (s.devRead a n).2.1 (s.devRead a n).2.2 :=
  if_neg (by simp [h1, h2, hn])

theorem doPcieInbound_of_write {bs : List Byte} (hn : bs ≠ []) (h1 : s.inSystemGroup a = true)
    (h2 : s.inSystemGroup (a + bs.length - 1) = true) :
    doPcieInbound (.write a bs) s = (s.devWrite .pcie a bs).1.answer (s.devWrite .pcie a bs).2 :=
  if_neg (by simp [h1, h2, List.length_pos_iff.mpr hn])

variable (h : s.inSystemGroup a = false)
include h

theorem doPcieInbound_of_read_outside (n : Nat) :
    doPcieInbound (.read a n) s = (s.emit (.note "Unsupported Request" a n)).answer St.OOB :=
  if_pos (by simp [h])

theorem doPcieInbound_of_write_outside (bs : List Byte) :
    doPcieInbound (.write a bs) s = (s.emit (.note "Unsupported Request" a bs.length)).answer St.OOB :=
  if_pos (by simp [h])

end
end

end Sys2Proof.Machine

open Sys2Proof Sys2Proof.Machine

/-- Settles O58: each reset by its length, hold or rails, each of the management plane's commands by its time. -/
theorem resetsClocksAndSupplies : Obligations.ResetsClocksAndSupplies := by
  refine ⟨fun s ns => ⟨fun h => ?_, fun h => ?_⟩, fun s n hc => ⟨fun h => ?_, fun h => ?_⟩, fun s hc => ?_, fun s hs => ?_,
    fun s rails hc => ⟨fun h => ?_, fun hne h => ?_, fun hne h => ?_, ?_⟩, fun s temps hc ht he hh hcool => ?_, fun s m o hs => ?_,
    fun s hs => ⟨fun h => ?_, fun h => ?_⟩, fun s r hs => ?_, fun s hs => ?_, fun s v x hs => ⟨fun h => ?_, fun h hx => ?_, fun h hx => ?_⟩,
    fun s a n bs hs => ⟨fun hn h1 h2 => ?_, fun hn h1 h2 => ?_, fun h => ⟨?_, ?_⟩, fun h sup i => ?_⟩⟩
  · exact congrArg (done s) (if_pos h)
  · exact congrArg (done s) (if_neg (Nat.not_lt.mpr h))
  · exact congrArg (keep s) (if_pos (.inr h))
  · exact congrArg (keep s) (if_neg (not_or.mpr ⟨ne_true_of_eq_false hc, Nat.not_lt.mpr h⟩))
  · intro u
    have hopen := execWarmRstNRelease_of_running hc
    exact ⟨fun h => hopen.trans (congrArg (keep s) (if_pos h)),
      fun h => hopen.trans (congrArg (keep s) (if_neg (ne_true_of_eq_false h)))⟩
  · exact act_eq (fun s => (s.warmReset false).answer St.OK) s hs
  · exact execRailFault_of_aon hc (aonLost_of_mem h)
  · exact (execRailFault_of_other hc (aonLost_of_core h)).trans (congrArg (keep s) (doRailFault_of_core hne h))
  · exact (execRailFault_of_other hc (aonLost_of_cg h)).trans (congrArg (keep s) (doRailFault_of_cg hne h))
  · exact execRailFault_of_other hc rfl
  · have hdo := doSensorSample_of_cool (s := s.begin) ht he hh hcool
    exact congrArg (keep s) ((if_neg (by simp [hc])).trans hdo)
  · intro due
    exact ⟨fun h => act_eq_of hs (if_pos h), fun h => act_eq_of hs (doEpochBoundary_of_due (s := s.begin) m o h)⟩
  · exact act_eq_of hs (if_pos h)
  · exact act_eq_of hs (doClockChangeDone_of_due (s := s.begin) h)
  · intro v u
    refine ⟨?_, fun h => ?_, fun h => ?_⟩
    · exact act_eq_of hs ((doVoutCommand_eq (s := s.begin) r.isLt true).trans (if_pos rfl))
    · exact act_eq_of hs ((doVoutCommand_eq (s := s.begin) r.isLt false).trans ((if_neg Bool.false_ne_true).trans (if_pos h)))
    · exact act_eq_of hs ((doVoutCommand_eq (s := s.begin) r.isLt false).trans ((if_neg Bool.false_ne_true).trans (if_neg h)))
  · exact act_eq doPmbAlert s hs
  · exact act_eq_of hs (doTopMsiWrite_of_no_file (s := s.begin) v.isLt h)
  · exact act_eq_of hs ((doTopMsiWrite_of_file (s := s.begin) v.isLt h).trans (if_neg (fun hf => Bool.false_ne_true (hx.symm.trans hf.1))))
  · intro u a
    exact act_eq_of hs ((doTopMsiWrite_of_file (s := s.begin) v.isLt h).trans (if_congr (and_iff_right hx) rfl rfl))
  · exact act_eq_of hs (doPcieInbound_of_read (s := s.begin) hn h1 h2)
  · exact act_eq_of hs (doPcieInbound_of_write (s := s.begin) hn h1 h2)
  · exact act_eq_of hs (doPcieInbound_of_read_outside (s := s.begin) h n)
  · exact act_eq_of hs (doPcieInbound_of_write_outside (s := s.begin) h bs)
  · exact act_eq (doPcieInbound (.msi h sup i)) s hs

end

section
/-! HBM lines, patrol and page retirement (R350, R404-R410). -/
namespace Sys2Proof.Machine

/-! Indexed lists. -/

theorem length_enumFrom {α : Type} : ∀ (n : Nat) (xs : List α), (enumFrom n xs).length = xs.length
  | _, [] => rfl
  | n, _ :: xs => congrArg (· + 1) (length_enumFrom (n + 1) xs)

theorem getElem?_enumFrom {α : Type} : ∀ (n : Nat) (xs : List α) (i : Nat), (enumFrom n xs)[i]? = xs[i]?.map (fun x => (n + i, x))
  | _, [], i => by simp [enumFrom]
  | n, x :: xs, 0 => by simp [enumFrom]
  | n, x :: xs, i + 1 => by
    simp only [enumFrom, List.getElem?_cons_succ, getElem?_enumFrom (n + 1) xs i, Nat.add_assoc, Nat.add_comm 1 i]

theorem getD_map_enum {α β : Type} (f : Nat × α → β) (xs : List α) (d : β) {i : Nat} (h : i < xs.length) :
    ((enum xs).map f).getD i d = f (i, xs[i]) := by
  rw [List.getD_eq_getElem?_getD, List.getElem?_map, enum, getElem?_enumFrom, List.getElem?_eq_getElem h, Nat.zero_add]
  rfl

section
variable {s : State}

theorem State.length_bytesAt (a n : Nat) : (s.bytesAt a n).length = n := by
  simp [State.bytesAt]

theorem State.getElem_bytesAt {a n i : Nat} (h : i < (s.bytesAt a n).length) : (s.bytesAt a n)[i] = s.byte (a + i) := by
  simp [State.bytesAt]

/-! Reads. -/

theorem doHbmRead_of_outside {a : Nat} (err : List (Nat × Nat)) (h : groupOf a = none) : doHbmRead a err s = s.answer St.OOB := by
  unfold doHbmRead
  split
  · rfl
  · next g hg => cases h.symm.trans hg

theorem doHbmRead_of_group {a g : Nat} (err : List (Nat × Nat)) (h : groupOf a = some g) :
    let d := s.hbmLine (a / 64 * 64) err
    doHbmRead a err s = d.1.answer (if d.2.2.1 then St.POISON else St.OK) 0 d.2.1 d.2.2.1 := by
  intro d
  unfold doHbmRead
  split
  · next hg => cases h.symm.trans hg
  · rfl

/-! Masked writes. -/

/-- The line that a masked write stores: the enabled bits of `data`, and the others as they were (R351). -/
def State.maskedLine (s : State) (line : Nat) (data : List Byte) (mask : Nat) : List Byte :=
  (enum (s.bytesAt line 64)).map (fun e =>
    let m : Byte := BitVec.ofNat 8 (mask >>> (8 * e.1))
    (e.2 &&& ~~~m) ||| (data.getD e.1 0#8 &&& m))

theorem State.length_maskedLine (line : Nat) (data : List Byte) (mask : Nat) : (s.maskedLine line data mask).length = 64 := by
  rw [State.maskedLine, List.length_map, enum, length_enumFrom, State.length_bytesAt]

theorem State.getD_maskedLine (line : Nat) (data : List Byte) (mask : Nat) {i : Nat} (h : i < 64) :
    (s.maskedLine line data mask).getD i 0#8 = (s.byte (line + i) &&& ~~~ BitVec.ofNat 8 (mask >>> (8 * i))) |||
      (data.getD i 0#8 &&& BitVec.ofNat 8 (mask >>> (8 * i))) := by
  have hi : i < (s.bytesAt line 64).length := by rw [State.length_bytesAt]; exact h
  rw [State.maskedLine, getD_map_enum _ _ _ hi, State.getElem_bytesAt hi]

theorem doHbmMaskedWrite_of_group {a g : Nat} (data : List Byte) (mask : Nat) (poison : Bool) (h : groupOf a = some g) :
    ∃ p, doHbmMaskedWrite a data mask poison s = (s.store (a / 64 * 64) (s.maskedLine (a / 64 * 64) data mask) p).answer St.OK := by
  unfold doHbmMaskedWrite
  split
  · next hg => cases h.symm.trans hg
  · exact ⟨_, rfl⟩

/-! Patrol. -/

theorem doPatrolRead_of_off {ch : Nat} (err : List (Nat × Nat)) (h : flag (s.reg (Reg.HBMC_STATUS (ch / 32))) 3 = false) :
    doPatrolRead ch err s = s := by
  have hoff : ch ≥ 64 ∨ (!flag (s.reg (Reg.HBMC_STATUS (ch / 32))) 3) = true := .inr (by rw [h]; rfl)
  delta doPatrolRead
  exact if_pos hoff

/-- The line's decoding is generalized before the match on it opens: the kernel must not evaluate it. -/
theorem doPatrolRead_of_uncorrected {ch : Nat} {err : List (Nat × Nat)} (hch : ch < 64)
    (hon : flag (s.reg (Reg.HBMC_STATUS (ch / 32))) 3 = true)
    (hfix : (s.hbmLine (pchLine ch (Tab.get nat0 s.mem.patrolAt ch)) err).2.2.2 = false)
    (hnext : Tab.get nat0 s.mem.patrolAt ch + 1 < pchLines) :
    doPatrolRead ch err s = (s.hbmLine (pchLine ch (Tab.get nat0 s.mem.patrolAt ch)) err).1.modMem
      (fun m => { m with patrolAt := Tab.set nat0 m.patrolAt ch (Tab.get nat0 s.mem.patrolAt ch + 1) }) := by
  have hgo : ¬ (ch ≥ 64 ∨ (!flag (s.reg (Reg.HBMC_STATUS (ch / 32))) 3) = true) := by
    rw [hon]
    exact not_or.mpr ⟨Nat.not_le.mpr hch, Bool.false_ne_true⟩
  delta doPatrolRead
  refine (if_neg hgo).trans ?_
  extract_lets +onlyGivenNames i line
  replace hfix : (s.hbmLine line err).2.2.2 = false := hfix
  change _ = (s.hbmLine line err).1.modMem _
  generalize s.hbmLine line err = d at hfix ⊢
  obtain ⟨t, bs, p, f⟩ := d
  subst hfix
  exact if_pos hnext
/-- A word of SRAM with at most one bit in error. -/
theorem doSramPatrolRead_of_sound {m bank errs : Nat} (hb : bank < sramBanks m) (he : errs ≤ 1) :
    let key := m * 256 + bank
    let next := (Tab.get nat0 s.mem.sramPatrolAt key + 1) % sramWords m
    let u : State := { s with mem := { s.mem with sramPatrolAt := Tab.set nat0 s.mem.sramPatrolAt key next } }
    doSramPatrolRead m bank errs s = if errs = 0 then u else u.bump (Reg.HBMC_SRAM_CE_COUNT m) := by
  intro key next u
  refine (if_neg (Nat.not_le.mpr hb)).trans ?_
  obtain rfl | rfl : errs = 0 ∨ errs = 1 := by omega
  · exact (if_pos rfl).trans (if_pos rfl).symm
  · exact ((if_neg Nat.one_ne_zero).trans (if_pos rfl)).trans (if_neg Nat.one_ne_zero).symm

/-! Pages. -/

theorem doHbmcRetireAdd_of_empty {st : Nat} (page : Nat) (hst : st < 2) (h : ∀ q : Fin 4, s.quays[q].st = .empty) :
    doHbmcRetireAdd st page s = (s.retirePage st (page % 2 ^ 24) false).answer St.OK := by
  have hany : s.anyQuay (fun x => decide (x.st ≠ .empty)) = false := by
    rw [Bool.eq_false_iff, ne_eq, State.anyQuay_iff]
    rintro ⟨q, hq⟩
    exact of_decide_eq_true hq (h q)
  rw [doHbmcRetireAdd, if_neg (by omega), if_neg (ne_true_of_eq_false hany)]

theorem doHbmcRetireAdd_of_loaded {st : Nat} (page : Nat) (hst : st < 2) (h : ∃ q : Fin 4, s.quays[q].st ≠ .empty) :
    doHbmcRetireAdd st page s = (s.ignoredWrite (Reg.HBMC_RETIRE_ADD st)).answer St.OK := by
  have hany : s.anyQuay (fun x => decide (x.st ≠ .empty)) = true := by
    obtain ⟨q, hq⟩ := h
    exact (s.anyQuay_iff _).mpr ⟨q, decide_eq_true hq⟩
  rw [doHbmcRetireAdd, if_neg (by omega), if_pos hany]

end

end Sys2Proof.Machine

open Sys2Proof Sys2Proof.Machine

/-- Settles O37: a masked write byte by byte from what a store leaves, the other commands by their branches. -/
theorem hbmLinesReadWriteAndPatrol : Obligations.HbmLinesReadWriteAndPatrol := by
  refine ⟨fun s a err hs => ⟨fun h => ?_, fun g h => ?_⟩, fun s a g data mask poison hs h hd => ?_,
    fun s ch err hs => ⟨fun h => ?_, fun h hfix hnext => ?_⟩, fun s m bank errs hs hb he => ?_,
    fun s st page hs => ⟨fun h => ?_, fun h => ?_⟩⟩
  · exact act_eq_of hs (doHbmRead_of_outside (s := s.begin) err h)
  · exact act_eq_of hs (doHbmRead_of_group (s := s.begin) err h)
  · obtain ⟨p, hdo⟩ := doHbmMaskedWrite_of_group (s := s.begin) data mask poison h
    have hbyte := fun b => s.begin.byte_store (a / 64 * 64) (s.begin.maskedLine (a / 64 * 64) data mask) p b
    simp only [State.length_maskedLine] at hbyte
    refine ⟨_, act_eq_of hs hdo, fun i hi => ?_, fun b hb => ?_, rfl, rfl, rfl⟩
    · refine (hbyte _).trans ?_
      rw [if_pos (by omega), Nat.add_sub_cancel_left, State.getD_maskedLine _ _ _ hi]
      rfl
    · exact (hbyte b).trans (if_neg (by omega))
  · exact act_eq_of hs (doPatrolRead_of_off (s := s.begin) err h)
  · exact act_eq_of hs (doPatrolRead_of_uncorrected (s := s.begin) ch.isLt h hfix hnext)
  · intro key next u
    exact act_eq_of hs (doSramPatrolRead_of_sound (s := s.begin) hb he)
  · exact act_eq_of hs (doHbmcRetireAdd_of_empty (s := s.begin) page st.isLt h)
  · exact act_eq_of hs (doHbmcRetireAdd_of_loaded (s := s.begin) page st.isLt h)

end

section
/-! What registers, pins, messages and the units' own records leave alone: the quays, the Salvage unit's records, harbour time and memory. -/
namespace Sys2Proof.Machine

/-- The quays, the Salvage unit's records and harbour time. -/
def State.books (s : State) : Vector Quay 4 × Vector Salv 4 × TimeState := (s.quays, s.salv, s.time)

/-- The books and memory. -/
def State.core (s : State) : (Vector Quay 4 × Vector Salv 4 × TimeState) × MemState := (s.books, s.mem)

section
variable {s t : State}

theorem State.core_eq (hq : t.quays = s.quays) (hv : t.salv = s.salv) (ht : t.time = s.time) (hm : t.mem = s.mem) : t.core = s.core := by
  rw [State.core, State.core, State.books, State.books, hq, hv, ht, hm]

theorem State.books_of_core (h : t.core = s.core) : t.books = s.books := congrArg Prod.fst h
theorem State.mem_of_core (h : t.core = s.core) : t.mem = s.mem := congrArg Prod.snd h
theorem State.quays_of_books (h : t.books = s.books) : t.quays = s.quays := congrArg Prod.fst h
theorem State.salv_of_books (h : t.books = s.books) : t.salv = s.salv := congrArg (fun b => b.2.1) h
theorem State.time_of_books (h : t.books = s.books) : t.time = s.time := congrArg (fun b => b.2.2) h
theorem State.quays_of_core (h : t.core = s.core) : t.quays = s.quays := State.quays_of_books (State.books_of_core h)

end

section
variable (s : State)

@[simp] theorem State.core_setEvent (a bits : Nat) : (s.setEvent a bits).core = s.core := by simp [State.core, State.books]
@[simp] theorem State.core_raiseMsi (v : Nat) : (s.raiseMsi v).core = s.core := by simp [State.core, State.books]
@[simp] theorem State.core_bump (a : Nat) : (s.bump a).core = s.core := rfl
@[simp] theorem State.core_bumpBy (a n : Nat) : (s.bumpBy a n).core = s.core := rfl
@[simp] theorem State.core_put (a v : Nat) : (s.put a v).core = s.core := rfl
@[simp] theorem State.core_setReg (a : Nat) (v : Word) : (s.setReg a v).core = s.core := rfl
@[simp] theorem State.core_setReg64 (a v : Nat) : (s.setReg64 a v).core = s.core := rfl
@[simp] theorem State.core_setBits (a hi lo v : Nat) : (s.setBits a hi lo v).core = s.core := rfl
@[simp] theorem State.core_emit (e : Emission) : (s.emit e).core = s.core := rfl
@[simp] theorem State.core_ignoredWrite (a : Nat) : (s.ignoredWrite a).core = s.core := by simp [State.core, State.books]
@[simp] theorem State.core_answer (st : Status) (d : Nat) (bs : List Byte) (p : Bool) : (s.answer st d bs p).core = s.core := rfl
@[simp] theorem State.core_edgeSettle (was : Bool) : (s.edgeSettle was).core = s.core :=
  s.edgeSettle_keeps was (fun _ _ _ => rfl) (fun _ _ => rfl) (fun u v => u.core_setEvent _ v)

/-! Coastguard's records and messages. -/

@[simp] theorem State.core_cgSignal (cause : Nat) (n : FrameNo) : (s.cgSignal cause n).core = s.core := rfl

@[simp] theorem State.core_sendEthMsg (m : CgMsg) : (s.sendEthMsg m).core = s.core := State.core_emit _ _

@[simp] theorem State.core_drainClass7 : s.drainClass7.core = s.core := by
  unfold State.drainClass7
  split
  · rfl
  · exact (List.foldl_proj State.core_sendEthMsg _ _).trans rfl

@[simp] theorem State.core_sendSafety (i slot : Nat) (m payload : List Byte) : (s.sendSafety i slot m payload).core = s.core := by
  unfold State.sendSafety
  split
  · refine (State.core_drainClass7 _).trans ?_
    dsimp only
    split <;> rfl
  · rfl

@[simp] theorem State.core_notice : s.notice.core = s.core := by
  unfold State.notice
  refine (List.foldl_proj (g := State.core) (fun u i => ?_) _ _).trans rfl
  exact (State.core_sendSafety _ _ _ _ _).trans rfl

@[simp] theorem State.core_cgClear (cause : Nat) : (s.cgClear cause).core = s.core := by
  unfold State.cgClear
  dsimp only
  split
  · rfl
  · exact (State.core_notice _).trans rfl

@[simp] theorem State.core_notRunning : s.notRunning.core = s.core := by
  unfold State.notRunning
  split <;> rfl

@[simp] theorem State.core_service (code : Nat) : (s.service code).core = s.core := by simp [State.core, State.books]

/-! Onnak's lanes. -/

@[simp] theorem State.core_pumpLane (n lane fuel : Nat) : (s.pumpLane n lane fuel).core = s.core := by
  induction fuel generalizing s with
  | zero => rfl
  | succ fuel ih =>
    unfold State.pumpLane
    dsimp only
    split
    · split
      · rfl
      · exact (ih _).trans rfl
    · rfl

@[simp] theorem State.core_sendMsg (n lane : Nat) (h : OHdr) (bs : List Byte) : (s.sendMsg n lane h bs).core = s.core :=
  (State.core_pumpLane _ _ _ _).trans rfl

theorem State.core_sendBind (q : Fin 4) (n : Nat) : (s.sendBind q n).core = s.core := by
  unfold State.sendBind State.sendRequest
  dsimp only
  rw [if_neg (fun h => h.1 rfl)]
  exact (State.core_sendMsg _ _ _ _ _).trans rfl

theorem State.core_unbindAll (q : Fin 4) : (s.unbindAll q).core = s.core := rfl

end
end Sys2Proof.Machine
end

section
/-! What entering a state, completing a command and writing a report leave in the quays' records (R69, R70, R77, R91). -/
namespace Sys2Proof.Machine

section
variable (s : State) (q : Fin 4)

theorem State.modQuay_self (f : Quay → Quay) (h : f s.quays[q] = s.quays[q]) : s.modQuay q f = s := by
  have hset : s.quays.set q (f s.quays[q]) = s.quays := by rw [h]; exact Vector.set_getElem_self _
  rw [State.modQuay, State.setQuay, hset]

theorem State.core_setQState (st : QState) : (s.setQState q st).core = (s.modQuay q (fun x => { x with st := st })).core := by
  unfold State.setQState
  dsimp only
  split
  next h => rw [State.modQuay_self s q _ (by rw [← h])]
  next h =>
    split
    · exact State.core_setEvent _ _ _
    · split <;> split <;> simp

theorem State.setQState_quays {x : Quay} (st : QState) (hx : s.quays[q] = x) : (s.setQState q st).quays[q] = { x with st := st } := by
  subst hx
  rw [State.quays_of_core (State.core_setQState s q st)]
  exact State.modQuay_quays _ _ _

theorem State.setQState_quays_ne (st : QState) {r : Fin 4} (h : r ≠ q) : (s.setQState q st).quays[r] = s.quays[r] := by
  rw [State.quays_of_core (State.core_setQState s q st)]
  exact State.modQuay_quays_ne _ _ _ _ (Ne.symm h)

@[simp] theorem State.setQState_mem (st : QState) : (s.setQState q st).mem = s.mem :=
  (State.mem_of_core (State.core_setQState s q st)).trans rfl

end

/-- A quay's record after its command in progress has completed. -/
def Quay.completed (x : Quay) (c : QCmd) (status : Status) : Quay := { x with busy := none, lastOp := c.code, lastStatus := status }

section
variable {s : State} {q : Fin 4}

theorem State.core_completeCmd {c : QCmd} (status : Status) (h : s.quays[q].busy = some c) : (s.completeCmd q status).core =
    ((s.modQuay q (fun x => x.completed c status)).progress q).core := by
  unfold State.completeCmd
  split
  next hb => cases h.symm.trans hb
  next d hb =>
    cases h.symm.trans hb
    simp only [State.progress, State.modSalv, State.core, State.books, State.raiseMsi_quays, State.setEvent_quays, State.raiseMsi_salv,
      State.setEvent_salv, State.raiseMsi_time, State.setEvent_time, State.raiseMsi_mem, State.setEvent_mem]
    rfl

/-- The command in progress completes: the quay's record holds its code and status. -/
theorem State.completeCmd_quays_eq {c : QCmd} (status : Status) (h : s.quays[q].busy = some c) :
    (s.completeCmd q status).quays = (s.modQuay q (fun x => x.completed c status)).quays :=
  (State.quays_of_core (State.core_completeCmd status h)).trans rfl

theorem State.completeCmd_quays {c : QCmd} {x : Quay} (status : Status) (hx : s.quays[q] = x) (h : x.busy = some c) :
    (s.completeCmd q status).quays[q] = x.completed c status := by
  subst hx
  rw [State.completeCmd_quays_eq status h]
  exact State.modQuay_quays _ _ _

theorem State.completeCmd_quays_ne {c : QCmd} {r : Fin 4} (status : Status) (hb : s.quays[q].busy = some c) (h : r ≠ q) :
    (s.completeCmd q status).quays[r] = s.quays[r] := by
  rw [State.completeCmd_quays_eq status hb]
  exact State.modQuay_quays_ne _ _ _ _ (Ne.symm h)

theorem State.completeCmd_mem {c : QCmd} (status : Status) (h : s.quays[q].busy = some c) : (s.completeCmd q status).mem = s.mem :=
  (State.mem_of_core (State.core_completeCmd status h)).trans rfl

theorem State.completeCmd_time {c : QCmd} (status : Status) (h : s.quays[q].busy = some c) : (s.completeCmd q status).time = s.time :=
  (State.time_of_books (State.books_of_core (State.core_completeCmd status h))).trans rfl

theorem State.completeCmd_recovering {c : QCmd} (status : Status) (h : s.quays[q].busy = some c) :
    (s.completeCmd q status).salv[q].recovering = s.salv[q].recovering := by
  have hv : (s.completeCmd q status).salv = (s.progress q).salv :=
    (State.salv_of_books (State.books_of_core (State.core_completeCmd status h))).trans rfl
  rw [hv, State.progress, State.modSalv]
  simp

end
end Sys2Proof.Machine
end

section
/-! DOCK, UNDOCK and the entry into RUNNING (R71, R75, R76, R99). -/
namespace Sys2Proof.Machine

section
variable {s t : State} {q : Fin 4}

theorem exec_accepted {ini : Initiator} {c : QCmd} (hs : s.awake = true) (h : s.judgeCmd q ini c = none) :
    exec (c.instr q ini) s = .next (s.after ((s.begin.acceptCmd q c).answer St.OK)) := by
  have hj : s.begin.judgeCmd q ini c = none := h
  rw [exec_quayCmd s q ini c hs, State.quayCmd, hj]

theorem State.core_modQuay_congr (f : Quay → Quay) (h : t.core = s.core) : (t.modQuay q f).core = (s.modQuay q f).core := by
  have hq := State.quays_of_core h
  have hv := State.salv_of_books (State.books_of_core h)
  have ht := State.time_of_books (State.books_of_core h)
  have hm := State.mem_of_core h
  refine State.core_eq ?_ hv ht hm
  rw [State.modQuay, State.modQuay, State.setQuay, State.setQuay, hq]

theorem State.modQuay_modQuay (f g : Quay → Quay) : (s.modQuay q g).modQuay q f = s.modQuay q (fun x => f (g x)) := by
  simp [State.modQuay, State.setQuay]

/-! RUNNING. -/

/-- A quay's record as it enters RUNNING. -/
def Quay.entered (x : Quay) (openFrom : Nat) (next : FrameNo) (k : Nat) : Quay :=
  { x with openFrom := openFrom, nextFrame := next, nextK := k, firstNext := true, prevSquashed := false, st := .running }

theorem State.core_startShares : (s.startShares q).core = s.core := by
  refine List.foldl_proj (g := State.core) (fun u p => ?_) _ _
  split <;> rfl

theorem State.core_enterRunning {c : Chart} (openFrom : Nat) (next : FrameNo) (k : Nat) (hc : s.quays[q].chart = some c) :
    (s.enterRunning q openFrom next k).core = (s.modQuay q (fun x => x.entered openFrom next k)).core := by
  unfold State.enterRunning
  split
  next h => cases hc.symm.trans h
  next d _ =>
    dsimp only
    refine (List.foldl_proj (g := State.core) (fun u f => ?_) _ _).trans ?_
    · split
      · rfl
      · exact u.core_sendBind q f.node
    refine State.core_startShares.trans ((State.core_setQState _ q _).trans ?_)
    refine (State.core_modQuay_congr (s := s.modQuay q (fun x => { x with
      openFrom := openFrom, nextFrame := next, nextK := k, firstNext := true, prevSquashed := false })) _ ?_).trans ?_
    · split <;> rfl
    · rw [State.modQuay_modQuay]
      rfl

theorem State.enterRunning_quays {c : Chart} {x : Quay} (openFrom : Nat) (next : FrameNo) (k : Nat) (hx : s.quays[q] = x)
    (hc : x.chart = some c) : (s.enterRunning q openFrom next k).quays[q] = x.entered openFrom next k := by
  subst hx
  rw [State.quays_of_core (State.core_enterRunning openFrom next k hc)]
  exact State.modQuay_quays _ _ _

/-! DOCK. -/

/-- DOCKING entered now. -/
def State.docking (s : State) (q : Fin 4) : State :=
  (s.modQuay q (fun x => { x with busy := some .dock, dockedAt := s.time.now })).setQState q .docking

theorem State.docking_quays : (s.docking q).quays[q] = { s.quays[q] with busy := some .dock, dockedAt := s.time.now, st := .docking } := by
  rw [State.docking, State.setQState_quays _ _ _ (State.modQuay_quays _ _ _)]

theorem State.docking_quays_ne {r : Fin 4} (h : r ≠ q) : (s.docking q).quays[r] = s.quays[r] := by
  rw [State.docking, State.setQState_quays_ne _ _ _ h, State.modQuay_quays_ne _ _ _ _ (Ne.symm h)]

theorem State.acceptDock_of_published (h : s.quays[q].frames.find? (fun f => !f.committed) = none) :
    s.acceptDock q = ((s.docking q).setQState q .docked).completeCmd q St.OK := by
  have hd : (s.docking q).quays[q].frames.find? (fun f => !f.committed) = none := by rw [State.docking_quays]; exact h
  unfold State.acceptDock
  extract_lets u
  split
  · rfl
  · next f hf => cases hd.symm.trans hf

/-- The docked quay's record. -/
def Quay.docked (x : Quay) (now : Nat) : Quay := { x with busy := none, lastOp := 3, lastStatus := St.OK, dockedAt := now, st := .docked }

section
variable (h : s.quays[q].frames.find? (fun f => !f.committed) = none)
include h

theorem State.acceptDock_quays : (s.acceptDock q).quays[q] = s.quays[q].docked s.time.now := by
  rw [State.acceptDock_of_published h]
  exact State.completeCmd_quays St.OK (State.setQState_quays _ q .docked State.docking_quays) rfl

omit h in
theorem State.docked_busy : ((s.docking q).setQState q .docked).quays[q].busy = some .dock := by
  rw [State.setQState_quays _ q .docked State.docking_quays]

theorem State.acceptDock_quays_ne {r : Fin 4} (hr : r ≠ q) : (s.acceptDock q).quays[r] = s.quays[r] := by
  rw [State.acceptDock_of_published h, State.completeCmd_quays_ne St.OK State.docked_busy hr, State.setQState_quays_ne _ _ _ hr,
    State.docking_quays_ne hr]

theorem State.acceptDock_mem : (s.acceptDock q).mem = s.mem := by
  rw [State.acceptDock_of_published h, State.completeCmd_mem St.OK State.docked_busy, State.setQState_mem, State.docking, State.setQState_mem]
  rfl

end

theorem State.acceptDock_of_unpublished {f : FrameRec} (h : s.quays[q].frames.find? (fun f => !f.committed) = some f) :
    s.acceptDock q = (s.docking q).squashWhere q (fun g => g.num ≠ f.num) true := by
  have hd : (s.docking q).quays[q].frames.find? (fun f => !f.committed) = some f := by rw [State.docking_quays]; exact h
  unfold State.acceptDock
  extract_lets u
  split
  · next hf => cases hd.symm.trans hf
  · next g hg => cases hd.symm.trans hg; rfl

/-! UNDOCK. -/

/-- The next frame's number and slot index on UNDOCK (R76, R99). -/
def State.undockFrame (s : State) (q : Fin 4) : FrameNo × Nat :=
  match s.quays[q].lastPub with
  | some (n, k) => (n + 1#32, k + 1)
  | none => (s.reg (Reg.HM_QUAY_START_FRAME q), 0)

theorem State.undockFrame_of_published {p : FrameNo × Nat} (h : s.quays[q].lastPub = some p) : s.undockFrame q = (p.1 + 1#32, p.2 + 1) := by
  unfold State.undockFrame
  rw [h]

theorem State.undockFrame_of_none (h : s.quays[q].lastPub = none) : s.undockFrame q = (s.reg (Reg.HM_QUAY_START_FRAME q), 0) := by
  unfold State.undockFrame
  rw [h]

theorem State.undockFrame_modQuay (f : Quay → Quay) (h : (f s.quays[q]).lastPub = s.quays[q].lastPub) :
    (s.modQuay q f).undockFrame q = s.undockFrame q := by
  unfold State.undockFrame
  rw [State.modQuay_quays, h]
  rfl

theorem State.acceptUndock_eq : s.acceptUndock q =
    ((s.modQuay q (fun x => { x with busy := some .undock })).enterRunning q (s.time.now + 100000) (s.undockFrame q).1
      (s.undockFrame q).2).completeCmd q St.OK := by
  rw [← State.undockFrame_modQuay (q := q) (fun x => { x with busy := some .undock }) rfl]
  rfl

theorem State.acceptUndock_quays {c : Chart} (hc : s.quays[q].chart = some c) : (s.acceptUndock q).quays[q] =
    (({ s.quays[q] with busy := some .undock } : Quay).entered (s.time.now + 100000) (s.undockFrame q).1 (s.undockFrame q).2).completed .undock
      St.OK := by
  rw [State.acceptUndock_eq]
  exact State.completeCmd_quays St.OK (State.enterRunning_quays _ _ _ (State.modQuay_quays _ _ _) hc) rfl

theorem State.dockTimeout_of_due {c : Chart} (hst : s.quays[q].st = .docking) (hc : s.quays[q].chart = some c)
    (h : s.quays[q].dockedAt + c.cfg.fif * c.cfg.periodUs * 1000 + 500000 ≤ s.time.now) :
    s.dockTimeout q = (s.setQState q .faulted).completeCmd q St.HANG := by
  unfold State.dockTimeout
  dsimp only
  split
  · next d _ hd => cases hc.symm.trans hd; exact if_neg (Nat.not_lt.mpr h)
  · next hno => exact absurd hc (hno c hst)

end
end Sys2Proof.Machine

open Sys2Proof Sys2Proof.Machine

/-- Settles O25: each move is the entry into a state, with the command's completion after it where it completes. -/
theorem dockAndUndock : Obligations.DockAndUndock := by
  refine ⟨fun s q ini hs hj hf => ?_, fun s q ini f hs hj hf => ?_, fun s q ini c hs hj hc => ?_, fun s q c hs hst hb hc hdue => ?_⟩
  · have hexec := exec_accepted hs hj
    have hq := State.acceptDock_quays (s := s.begin) hf
    have hr := fun (r : Fin 4) => State.acceptDock_quays_ne (s := s.begin) (r := r) hf
    have hm := State.acceptDock_mem (s := s.begin) hf
    rw [State.acceptCmd] at hexec
    generalize s.begin.acceptDock q = t at hexec hq hr hm
    exact ⟨_, hexec, congrArg Quay.st hq, congrArg Quay.busy hq, congrArg Quay.lastOp hq, congrArg Quay.lastStatus hq,
      (congrArg Quay.frames hq).trans rfl, hr, hm⟩
  · intro u
    have hdocking := State.docking_quays (s := s.begin) (q := q)
    have hexec := exec_accepted hs hj
    rw [State.acceptCmd, State.acceptDock_of_unpublished (s := s.begin) hf] at hexec
    exact ⟨congrArg Quay.st hdocking, congrArg Quay.busy hdocking, (congrArg Quay.frames hdocking).trans rfl, hexec⟩
  · have hexec := exec_accepted hs hj
    have hq := State.acceptUndock_quays (s := s.begin) hc
    rw [State.acceptCmd] at hexec
    generalize s.begin.acceptUndock q = t at hexec hq
    refine ⟨_, hexec, congrArg Quay.st hq, congrArg Quay.busy hq, congrArg Quay.lastOp hq, congrArg Quay.lastStatus hq,
      congrArg Quay.openFrom hq, (congrArg Quay.chart hq).trans hc, (congrArg Quay.nextFrame hq).trans ?_⟩
    show (s.begin.undockFrame q).1 = _
    cases hp : s.quays[q].lastPub with
    | none => exact congrArg Prod.fst (State.undockFrame_of_none (s := s.begin) hp)
    | some p => exact congrArg Prod.fst (State.undockFrame_of_published (s := s.begin) hp)
  · have hfaulted := State.setQState_quays s.begin q .faulted rfl
    have hbusy := (congrArg Quay.busy hfaulted).trans hb
    have hexec := act_eq_of (f := fun u => u.dockTimeout q) hs (State.dockTimeout_of_due (s := s.begin) hst hc hdue)
    have hq := State.completeCmd_quays St.HANG hfaulted hb
    have hr := fun (r : Fin 4) (hr : r ≠ q) =>
      (State.completeCmd_quays_ne St.HANG hbusy hr).trans (State.setQState_quays_ne s.begin q .faulted hr)
    have hm := (State.completeCmd_mem St.HANG hbusy).trans (State.setQState_mem _ _ _)
    generalize (s.begin.setQState q .faulted).completeCmd q St.HANG = t at hexec hq hr hm
    exact ⟨_, hexec, congrArg Quay.st hq, congrArg Quay.busy hq, congrArg Quay.lastStatus hq, (congrArg Quay.frames hq).trans rfl, hm, hr⟩

end

section
/-! The entry into RESETTING (R72, R78, R379, R505, R506). -/
namespace Sys2Proof.Machine

section
variable (s : State)

theorem State.books_store (a : Nat) (bs : List Byte) (p : Bool) : (s.store a bs p).books = s.books := rfl

theorem State.books_devWrite (ini : Initiator) (a : Nat) (bs : List Byte) (p : Bool) : (s.devWrite ini a bs p).1.books = s.books := by
  unfold State.devWrite
  dsimp only
  split
  · split <;> rfl
  · split
    · rfl
    · split
      · rfl
      · split
        · rfl
        · split <;> rfl
  · rfl
  · rfl
  · rfl
  · rfl
  · rfl

theorem State.books_writeReport (q : Fin 4) (st : Status) (es : List RepEntry) : (s.writeReport q st es).books = s.books := by
  unfold State.writeReport
  dsimp only
  split
  · rfl
  · exact s.books_devWrite _ _ _ _

theorem State.books_cringPut (n : Nat) (e : List Byte) : (s.cringPut n e).1.books = s.books := by
  unfold State.cringPut
  dsimp only
  split <;> rfl

theorem State.books_cringAll (q : Nat) (es : List (Option Nat × List Byte)) : (s.cringAll q es).books = s.books := by
  unfold State.cringAll
  refine (List.foldl_proj (fun u n => State.books_of_core (u.core_raiseMsi _)) _ _).trans ?_
  refine List.foldl_proj (g := fun a : State × List Nat => a.1.books) (fun a e => ?_) es (s, [])
  exact List.foldl_proj (g := fun a : State × List Nat => a.1.books) (fun b n => b.1.books_cringPut n e.2) _ a

theorem State.core_chanAborted (n : Nat) : (s.chanAborted n).core = s.core := (State.core_setEvent _ _ _).trans rfl

theorem State.core_chanStop (n : Nat) : (s.chanStop n).core = s.core := by
  unfold State.chanStop
  split
  · rfl
  · rfl
  · exact s.core_chanAborted n
  · exact s.core_chanAborted n
  · exact s.core_chanAborted n
  · rfl

theorem State.books_dropQuayWork (q : Fin 4) : (s.dropQuayWork q).books = s.books := by
  unfold State.dropQuayWork
  refine (State.books_of_core (State.core_unbindAll _ q)).trans ?_
  dsimp only
  split
  · split
    · exact (State.books_of_core (List.foldl_proj (fun u n => u.core_chanStop n) _ _) :)
    · rfl
  · split
    · exact (State.books_of_core (List.foldl_proj (fun u n => u.core_chanStop n) _ _) :)
    · rfl

theorem State.books_scrubQuay (q : Fin 4) : (s.scrubQuay q).books = s.books := by
  unfold State.scrubQuay
  split <;> rfl

end

/-- What of a quay the end of its work leaves alone: tide and chart; and harbour time. -/
def State.tenure (s : State) (q : Fin 4) : Tide × Option Chart × TimeState := (s.quays[q].tide, s.quays[q].chart, s.time)

section
variable {s t : State} {q : Fin 4}

theorem State.tenure_of_books (h : t.books = s.books) : t.tenure q = s.tenure q := by
  rw [State.tenure, State.tenure, State.quays_of_books h, State.time_of_books h]

theorem State.tenure_modQuay (f : Quay → Quay) (ht : ∀ x, (f x).tide = x.tide) (hc : ∀ x, (f x).chart = x.chart) :
    (s.modQuay q f).tenure q = s.tenure q := by
  rw [State.tenure, State.modQuay_quays, ht, hc]
  rfl

theorem State.tenure_completeCmd (st : Status) : (s.completeCmd q st).tenure q = s.tenure q := by
  cases hb : s.quays[q].busy with
  | none =>
    unfold State.completeCmd
    split
    · rfl
    · next c hc => cases hb.symm.trans hc
  | some c =>
    rw [State.tenure, State.completeCmd_quays st rfl hb, State.completeCmd_time st hb]
    rfl

theorem State.tenure_abortBusy : (s.abortBusy q).tenure q = s.tenure q := by
  unfold State.abortBusy
  split
  · rfl
  · refine State.tenure_completeCmd _ |>.trans ?_
    refine Eq.trans ?_ (State.tenure_modQuay (fun x => { x with load := none, start := none }) (fun _ => rfl) (fun _ => rfl))
    split
    · exact State.tenure_of_books (State.books_writeReport _ _ _ _)
    · rfl

theorem State.tenure_completeRequest (r : Request) (st : Status) : (s.completeRequest q r st).tenure q = s.tenure q := by
  unfold State.completeRequest State.requestRecord
  refine (State.tenure_of_books (State.books_cringAll _ _ _)).trans ?_
  refine (State.tenure_modQuay _ ?_ ?_).trans (State.tenure_modQuay _ ?_ ?_) <;> exact fun _ => rfl

theorem State.tenure_endRequests : (s.endRequests q).tenure q = s.tenure q := by
  unfold State.endRequests
  refine (List.foldl_proj (g := fun u : State => u.tenure q) (fun u r => ?_) _ _).trans
    (List.foldl_proj (g := fun u : State => u.tenure q) (fun u r => State.tenure_completeRequest r St.HANG) _ _)
  exact (State.tenure_completeRequest _ _).trans rfl

/-- A quay's record as it enters RESETTING at `now`. -/
def Quay.resetting (x : Quay) (c : QCmd) (now : Nat) : Quay :=
  { x.advanceTide now with
    busy := some c, viaUnload := decide (c = .unload), resetAt := now, phase := .fencing, squashing := false, frames := [], requests := []
    handles := x.handles.map (fun h => { h with fenced := true }), st := .resetting }

/-- Every unit of the quay has dropped its work. -/
def State.workDropped (s : State) (q : Fin 4) : State := ((s.abortBusy q).endRequests q).dropQuayWork q

theorem State.tenure_workDropped : (s.workDropped q).tenure q = s.tenure q :=
  (State.tenure_of_books (State.books_dropQuayWork _ q)).trans (State.tenure_endRequests.trans State.tenure_abortBusy)

/-- The quay's record but for its state. -/
def State.fenced (s : State) (q : Fin 4) (c : QCmd) : State :=
  s.modQuay q (fun x => { x.resetting c s.time.now with st := x.st })

/-- After the quay's record only memory, the Ledger and the Salvage record change before the state does. -/
theorem State.enterResetting_eq (c : QCmd) : ∃ v : State, s.enterResetting q c false = v.setQState q .resetting ∧
    v.quays = (((s.workDropped q).fenced q c).scrubQuay q).quays := by
  unfold State.enterResetting
  extract_lets +onlyGivenNames a b u
  have hu : u = s.workDropped q := rfl
  clear_value u
  rw [← hu]
  exact ⟨_, rfl, rfl⟩

theorem State.enterResetting_quays (c : QCmd) :
    (s.enterResetting q c false).quays[q] = (s.workDropped q).quays[q].resetting c (s.workDropped q).time.now := by
  obtain ⟨v, hv, hq⟩ := State.enterResetting_eq (s := s) (q := q) c
  rw [State.quays_of_books (State.books_scrubQuay _ q)] at hq
  rw [hv]
  refine State.setQState_quays v q .resetting (x := { (s.workDropped q).quays[q].resetting c (s.workDropped q).time.now with
    st := (s.workDropped q).quays[q].st }) ?_
  rw [hq]
  exact State.modQuay_quays _ _ _

end
end Sys2Proof.Machine

open Sys2Proof Sys2Proof.Machine

/-- What UNLOAD and RESET have in common. -/
theorem exec_enterResetting {s : State} {q : Fin 4} {ini : Initiator} {c : QCmd} (hs : s.awake = true) (hj : s.judgeCmd q ini c = none)
    (hc : s.begin.acceptCmd q c = s.begin.enterResetting q c false) :
    ∃ t, exec (c.instr q ini) s = .next t ∧ t.quays[q].st = .resetting ∧ t.quays[q].busy = some c ∧ t.quays[q].resetAt = s.time.now ∧
      t.quays[q].tide = s.quays[q].tide + 1#8 ∧ (s.quays[q].tide.toNat, s.time.now) ∈ t.quays[q].retired ∧ t.quays[q].frames = [] ∧
      t.quays[q].requests = [] ∧ t.quays[q].chart = s.quays[q].chart ∧ (∀ h ∈ t.quays[q].handles, h.fenced = true) := by
  have hexec := exec_accepted hs hj
  have hq := State.enterResetting_quays (s := s.begin) (q := q) c
  have hu := State.tenure_workDropped (s := s.begin) (q := q)
  generalize s.begin.workDropped q = u at hq hu
  have htide : u.quays[q].tide = s.quays[q].tide := congrArg Prod.fst hu
  have hchart : u.quays[q].chart = s.quays[q].chart := congrArg (fun p => p.2.1) hu
  have htime : u.time = s.time := congrArg (fun p => p.2.2) hu
  rw [hc] at hexec
  rw [htime] at hq
  generalize s.begin.enterResetting q c false = t at hexec hq
  refine ⟨_, hexec, congrArg Quay.st hq, congrArg Quay.busy hq, congrArg Quay.resetAt hq, (congrArg Quay.tide hq).trans ?_, ?_,
    congrArg Quay.frames hq, congrArg Quay.requests hq, (congrArg Quay.chart hq).trans hchart, ?_⟩
  · exact congrArg (· + 1#8) htide
  · show _ ∈ t.quays[q].retired
    rw [hq, ← htide]
    exact List.mem_cons_self
  · show ∀ h ∈ t.quays[q].handles, h.fenced = true
    rw [hq]
    intro h hh
    obtain ⟨g, _, rfl⟩ := List.mem_map.mp hh
    rfl

/-- Settles O26: both commands enter RESETTING alike. -/
theorem unloadAndResetEnterResetting : Obligations.UnloadAndResetEnterResetting :=
  ⟨fun _ _ _ hs hj => exec_enterResetting hs hj rfl, fun _ _ _ hs hj => exec_enterResetting hs hj rfl⟩

end

section
/-! LOAD: its acceptance and its completion (R66-R72, R77). -/
namespace Sys2Proof.Machine

section
variable {s : State} {q : Fin 4}

/-- LOAD and START are neither fenced by quay 0's guard nor barred by anything but the state and a command in progress. -/
theorem State.judgeCmd_of_free {ini : Initiator} {c : QCmd} (hacc : s.quays[q].st.accepts c = true) (hc : c = .load ∨ c = .start)
    (hb : s.quays[q].busy = none) : s.judgeCmd q ini c = none := by
  have hfence : ¬(q = 0 ∧ ini ≠ .cg ∧ ini ≠ .salvage ∧ c ≠ .load ∧ c ≠ .start ∧ (!flag (s.reg Reg.CG_Q0_GUARD) 0) = true) := by
    rintro ⟨_, _, _, h1, h2, _⟩
    exact hc.elim h1 h2
  have hbusy : ¬(c ≠ .reset ∧ s.quays[q].busy.isSome = true) := by
    rw [hb]
    exact fun h => Bool.false_ne_true h.2
  unfold State.judgeCmd
  dsimp only
  rw [if_neg (by rw [hacc]; decide), if_neg hfence, if_neg hbusy]

/-! Acceptance. -/

theorem State.books_modQuay_congr {t : State} (f : Quay → Quay) (h : t.books = s.books) : (t.modQuay q f).books = (s.modQuay q f).books := by
  have hq := State.quays_of_books h
  rw [State.books, State.books, State.modQuay, State.modQuay, State.setQuay, State.setQuay, hq]
  exact congrArg (Prod.mk _) (congrArg Prod.snd h)

theorem State.books_wakeBank (u : State) (b : Nat) : (u.wakeBank b).books = u.books := by
  unfold State.wakeBank
  split <;> rfl

/-- The verdict of a LOAD whose next tide was retired less than 64 ms ago (R72). -/
def Quay.busyVerdict (x : Quay) (now : Nat) : LoadVerdict := ⟨St.BUSY, [], none, [], x.tide, [], now + 1000000⟩

theorem State.acceptLoad_of_fresh (src limit : Nat) (h : s.quays[q].tideFresh s.time.now = true) : s.acceptLoad q src limit =
    s.modQuay q (fun x => { x with busy := some .load, load := some (x.busyVerdict s.time.now) }) := by
  unfold State.acceptLoad
  extract_lets +onlyGivenNames x u
  split
  · exact State.modQuay_modQuay _ _
  · next hno => exact absurd h hno

theorem State.acceptLoad_of_stale (src limit : Nat) (h : s.quays[q].tideFresh s.time.now = false) : ∃ v : LoadVerdict,
    (s.acceptLoad q src limit).books = (s.modQuay q (fun x => { x with busy := some .load, load := some v })).books := by
  unfold State.acceptLoad
  extract_lets +onlyGivenNames x u
  split
  · next hf => exact absurd (hf.symm.trans h) Bool.noConfusion
  · extract_lets +onlyGivenNames head len bs v w
    clear_value v bs
    have hw : w.books = u.books := by
      unfold w
      split
      · exact State.books_store _ _ _ _
      · rfl
    clear_value w
    have hload : (w.modQuay q (fun x => { x with load := some v })).books = (s.modQuay q (fun x => { x with
        busy := some .load, load := some v })).books := by
      rw [State.books_modQuay_congr _ hw]
      exact congrArg State.books (State.modQuay_modQuay _ _)
    refine ⟨v, ?_⟩
    extract_lets z
    split
    · exact hload
    · exact (List.foldl_proj State.books_wakeBank _ _).trans hload

/-- An accepted LOAD is in progress with a verdict; nothing else of the quays' records changes. -/
theorem State.acceptLoad_quays (src limit : Nat) : ∃ v : LoadVerdict,
    (s.acceptLoad q src limit).quays[q] = { s.quays[q] with busy := some .load, load := some v } ∧
      ∀ r : Fin 4, r ≠ q → (s.acceptLoad q src limit).quays[r] = s.quays[r] := by
  have key : ∃ v : LoadVerdict, (s.acceptLoad q src limit).quays =
      (s.modQuay q (fun x => { x with busy := some .load, load := some v })).quays := by
    cases h : s.quays[q].tideFresh s.time.now with
    | false =>
      obtain ⟨v, hv⟩ := State.acceptLoad_of_stale src limit h
      exact ⟨v, State.quays_of_books hv⟩
    | true => exact ⟨s.quays[q].busyVerdict s.time.now, congrArg State.quays (State.acceptLoad_of_fresh src limit h)⟩
  obtain ⟨v, hv⟩ := key
  refine ⟨v, ?_, fun r hr => ?_⟩
  · rw [hv]
    exact State.modQuay_quays _ _ _
  · rw [hv]
    exact State.modQuay_quays_ne _ _ _ _ (Ne.symm hr)

/-! Completion. -/

theorem State.books_setCg (u : State) (g : CgState) : ({ u with cg := g } : State).books = u.books := rfl

theorem State.books_claimBerths (u : State) (q : Fin 4) (c : Chart) (tide : Tide) (o : Bool) : (u.claimBerths q c tide o).books = u.books := rfl

theorem State.books_buildTables (u : State) (q : Fin 4) (c : Chart) (frames : List Nat) : (u.buildTables q c frames).books = u.books := by
  unfold State.buildTables
  exact (congrArg Prod.fst (State.core_setReg64 _ _ _)).trans (List.foldl_proj (g := State.books) (fun w e => w.books_store _ _ _) _ _)

/-- A quay's record with its chart in place. -/
def Quay.loaded (x : Quay) (v : LoadVerdict) (c : Chart) (now : Nat) : Quay :=
  { x.advanceTide now with
    tide := v.newTide, chart := some { c with clamped := decide (v.status = St.CLAMPED) }, handles := c.handleTable, groups := v.groups
    hbmFrames := v.frames, sequence := 0, records := 0, lastPub := none, kOf := [], frames := [], st := .loaded }

/-- But for registers and memory a loaded chart changes its quay's record and the groups held for it. -/
theorem State.enterLoaded_books (v : LoadVerdict) (c : Chart) : (s.enterLoaded q v c).books =
    ((s.modSalv q (fun e => { e with heldGroups := [] })).modQuay q (fun x => x.loaded v c s.time.now)).books := by
  unfold State.enterLoaded
  extract_lets +onlyGivenNames c' a b d
  have hb : b = (s.modSalv q (fun e => { e with heldGroups := [] })).modQuay q
      (fun x => { x.loaded v c s.time.now with st := x.st }) :=
    State.modQuay_modQuay (s := s.modSalv q (fun e => { e with heldGroups := [] })) (fun x => { x with
      chart := some c', handles := c'.handleTable, groups := v.groups, hbmFrames := v.frames, sequence := 0, records := 0, lastPub := none,
      kOf := [], frames := [] }) (fun x => { x.advanceTide s.time.now with tide := v.newTide })
  have hd : d.books = b.books := (State.books_buildTables _ _ _ _).trans (State.books_claimBerths _ _ _ _ _)
  clear_value b
  clear_value d
  extract_lets +onlyGivenNames cg e f
  have he : e.books = d.books := by
    unfold e
    split
    · exact State.books_setCg _ _
    · rfl
  have hf : f.books = ((s.modSalv q (fun e => { e with heldGroups := [] })).modQuay q (fun x => x.loaded v c s.time.now)).books := by
    refine (State.books_of_core (State.core_setQState e q .loaded)).trans ?_
    rw [State.books_modQuay_congr _ (he.trans hd), hb, State.modQuay_modQuay]
    rfl
  split
  · exact (State.books_of_core (State.core_setEvent _ _ _)).trans hf
  · exact hf

theorem State.enterLoaded_quays {x : Quay} (v : LoadVerdict) (c : Chart) (hx : s.quays[q] = x) :
    (s.enterLoaded q v c).quays[q] = x.loaded v c s.time.now := by
  subst hx
  rw [State.quays_of_books (State.enterLoaded_books v c)]
  exact State.modQuay_quays _ _ _

theorem State.enterLoaded_recovering (v : LoadVerdict) (c : Chart) :
    (s.enterLoaded q v c).salv[q].recovering = s.salv[q].recovering := by
  rw [State.salv_of_books (State.enterLoaded_books v c)]
  show (s.salv.set q _)[q].recovering = _
  simp

/-- The report is written and the command completes with its status (R69, R74, R77). -/
def State.reported (s : State) (q : Fin 4) (st : Status) (es : List RepEntry) : State := (s.writeReport q st es).completeCmd q st

section
variable {x : Quay} {d : QCmd} (st : Status) (es : List RepEntry) (hx : s.quays[q] = x) (hd : x.busy = some d)
include hx hd

omit hd in
theorem State.writeReport_quays : (s.writeReport q st es).quays[q] = x :=
  (congrArg (fun b : Vector Quay 4 => b[q]) (State.quays_of_books (s.books_writeReport q st es))).trans hx

theorem State.reported_quays : (s.reported q st es).quays[q] = x.completed d st :=
  State.completeCmd_quays st (State.writeReport_quays st es hx) hd

theorem State.reported_quays_ne {r : Fin 4} (h : r ≠ q) : (s.reported q st es).quays[r] = s.quays[r] :=
  (State.completeCmd_quays_ne st ((congrArg Quay.busy (State.writeReport_quays st es hx)).trans hd) h).trans
    (congrArg (fun b : Vector Quay 4 => b[r]) (State.quays_of_books (s.books_writeReport q st es)))

theorem State.reported_recovering : (s.reported q st es).salv[q].recovering = s.salv[q].recovering :=
  (State.completeCmd_recovering st ((congrArg Quay.busy (State.writeReport_quays st es hx)).trans hd)).trans
    (congrArg (fun b : Vector Salv 4 => b[q].recovering) (State.salv_of_books (s.books_writeReport q st es)))

end

theorem State.finishLoad_of_chart {v : LoadVerdict} {c : Chart} (hv : v.chart = some c) : s.finishLoad q v =
    ((s.modQuay q (fun x => { x with load := none })).enterLoaded q v c).reported q v.status v.entries := by
  unfold State.finishLoad
  extract_lets +onlyGivenNames u
  rw [hv]
  rfl

theorem State.finishLoad_of_none {v : LoadVerdict} (hv : v.chart = none) : s.finishLoad q v =
    (s.modQuay q (fun x => { x with load := none })).reported q v.status v.entries := by
  unfold State.finishLoad
  extract_lets +onlyGivenNames u
  rw [hv]
  rfl

theorem State.recoverLoaded_of_none (h : s.salv[q].recovering = false) : s.recoverLoaded q = s := by
  unfold State.recoverLoaded
  rw [h]
  rfl

theorem doLoadComplete_of_verdict {v : LoadVerdict} (hl : s.quays[q].load = some v) (hw : s.loadWaits v = false) :
    doLoadComplete q s = (s.finishLoad q v).recoverLoaded q := by
  unfold doLoadComplete
  rw [hl]
  exact if_neg (ne_true_of_eq_false hw)

theorem State.loadWaits_of_none {v : LoadVerdict} (h : v.chart = none) : s.loadWaits v = false := by
  unfold State.loadWaits
  rw [h]

end
end Sys2Proof.Machine

open Sys2Proof Sys2Proof.Machine

/-- Settles O22: an accepted LOAD changes its own quay's record alone, and a fresh tide decides its verdict before the chart is read. -/
theorem loadIsAcceptedAndJudged : Obligations.LoadIsAcceptedAndJudged := by
  refine ⟨fun s q ini hs hst hb => ?_, fun s q ini hs hst hb hf => ?_⟩
  · have hexec := exec_accepted hs (State.judgeCmd_of_free (ini := ini) (c := .load) (by rw [hst]; decide) (.inl rfl) hb)
    obtain ⟨v, hq, hr⟩ := State.acceptLoad_quays (s := s.begin) (q := q) (s.begin.addr48 (Reg.HM_QUAY_CHART_LO q))
      (min ((s.begin.reg (Reg.HM_QUAY_CHART_SIZE q)).toNat % 2 ^ 25) storeLimit)
    rw [State.acceptCmd] at hexec
    generalize s.begin.acceptLoad q _ _ = t at hexec hq hr
    exact ⟨_, hexec, congrArg Quay.busy hq, congrArg (fun x => x.load.isSome) hq, (congrArg Quay.st hq).trans hst,
      (congrArg Quay.tide hq).trans rfl, (congrArg Quay.chart hq).trans rfl, hr, rfl⟩
  · have hexec := exec_accepted hs (State.judgeCmd_of_free (ini := ini) (c := .load) (by rw [hst]; decide) (.inl rfl) hb)
    rw [State.acceptCmd, State.acceptLoad_of_fresh (s := s.begin) _ _ hf] at hexec
    exact hexec

/-- Settles O23: the verdict's chart decides the record that the command leaves behind. -/
theorem loadCompletesByItsVerdict : Obligations.LoadCompletesByItsVerdict := by
  refine ⟨fun s q v c hs hst hb hl hv hw hrec => ?_, fun s q v hs hst hb hl hv hrec => ?_⟩
  · have hx := State.enterLoaded_quays v c (State.modQuay_quays s.begin q (fun x => { x with load := none }))
    have hq := State.reported_quays v.status v.entries hx hb
    have hsalv := (State.reported_recovering v.status v.entries hx hb).trans (State.enterLoaded_recovering v c)
    have hexec := act_eq_of hs (doLoadComplete_of_verdict (s := s.begin) hl hw)
    rw [State.finishLoad_of_chart hv, State.recoverLoaded_of_none (hsalv.trans hrec)] at hexec
    generalize State.reported _ q v.status v.entries = t at hexec hq
    exact ⟨_, hexec, congrArg Quay.st hq, congrArg Quay.chart hq, congrArg Quay.tide hq, congrArg Quay.handles hq, congrArg Quay.groups hq,
      congrArg Quay.hbmFrames hq, congrArg Quay.busy hq, congrArg Quay.lastOp hq, congrArg Quay.lastStatus hq, congrArg Quay.load hq⟩
  · have hx := State.modQuay_quays s.begin q (fun x => { x with load := none })
    have hq := State.reported_quays v.status v.entries hx hb
    have hr := fun (r : Fin 4) (hr : r ≠ q) =>
      (State.reported_quays_ne v.status v.entries hx hb hr).trans (State.modQuay_quays_ne s.begin q r _ (Ne.symm hr))
    have hsalv := State.reported_recovering v.status v.entries hx hb
    have hexec := act_eq_of hs (doLoadComplete_of_verdict (s := s.begin) hl (State.loadWaits_of_none hv))
    rw [State.finishLoad_of_none hv, State.recoverLoaded_of_none (hsalv.trans hrec)] at hexec
    generalize State.reported _ q v.status v.entries = t at hexec hq hr
    exact ⟨_, hexec, (congrArg Quay.st hq).trans hst, (congrArg Quay.chart hq).trans rfl, (congrArg Quay.tide hq).trans rfl,
      congrArg Quay.busy hq, congrArg Quay.lastOp hq, congrArg Quay.lastStatus hq, congrArg Quay.load hq, hr⟩

end

section
/-! START (R74, R75). -/
namespace Sys2Proof.Machine

section
variable {s : State} {q : Fin 4}

/-! The checks write ELV_PROG_STATUS alone. -/

theorem State.core_showPrograms (u : State) (needs : List (Nat × Nat × Status)) : (u.showPrograms needs).core = u.core :=
  List.foldl_proj (g := State.core) (fun w _ => w.core_put _ _) _ _

theorem State.startFrame_showPrograms (u : State) (needs : List (Nat × Nat × Status)) :
    (u.showPrograms needs).reg (Reg.HM_QUAY_START_FRAME q) = u.reg (Reg.HM_QUAY_START_FRAME q) := by
  refine List.foldl_proj (g := fun u : State => u.reg (Reg.HM_QUAY_START_FRAME q)) (fun w n => ?_) _ _
  have hne : Reg.HM_QUAY_START_FRAME q ≠ Reg.ELV_PROG_STATUS n.1 := by
    unfold Reg.HM_QUAY_START_FRAME Reg.ELV_PROG_STATUS
    omega
  rw [State.reg_put, if_neg hne]

/-- The state that the checks answer is the one they found, or one that shows the programs' needs. -/
theorem State.checkStart_cases (c : Chart) : (s.checkStart q c).1 = s ∨ ∃ needs, (s.checkStart q c).1 = s.showPrograms needs := by
  unfold State.checkStart
  extract_lets +onlyGivenNames ts auth faults chain needs outcome u
  split
  · exact .inl rfl
  · refine .inr ⟨needs.map (fun n => ((c.engineAt n.1.2.engine).inst, n.2, outcome n.1.1 n.2)), ?_⟩
    change _ = u
    clear_value u
    extract_lets +onlyGivenNames all most
    split
    · rfl
    · split
      · rfl
      · extract_lets lf
        split <;> rfl

theorem State.core_checkStart (c : Chart) : (s.checkStart q c).1.core = s.core := by
  obtain h | ⟨needs, h⟩ := State.checkStart_cases (s := s) (q := q) c
  · rw [h]
  · rw [h, State.core_showPrograms]

theorem State.startFrame_checkStart (c : Chart) :
    (s.checkStart q c).1.reg (Reg.HM_QUAY_START_FRAME q) = s.reg (Reg.HM_QUAY_START_FRAME q) := by
  obtain h | ⟨needs, h⟩ := State.checkStart_cases (s := s) (q := q) c
  · rw [h]
  · rw [h, State.startFrame_showPrograms]

/-! The outcomes. -/

/-- START in progress. -/
def State.starting (s : State) (q : Fin 4) : State := s.modQuay q (fun x => { x with busy := some .start })

theorem State.recoverFailed_of_none (h : s.salv[q].recovering = false) : s.recoverFailed q = s := by
  unfold State.recoverFailed
  rw [h]
  rfl

section
variable {c : Chart} (hc : s.quays[q].chart = some c)
include hc

theorem State.acceptStart_of_ok (hp : c.cfg.piloted = true) (h : ((s.starting q).checkStart q c).2.1 = St.OK) :
    s.acceptStart q = ((s.starting q).checkStart q c).1.startDone q ((s.starting q).checkStart q c).1.time.now := by
  unfold State.acceptStart
  split
  · next hn => cases hc.symm.trans hn
  · next d hd =>
    cases hc.symm.trans hd
    exact (if_neg (not_not.mpr h)).trans (if_neg (by rw [hp]; exact Bool.false_ne_true))

theorem State.acceptStart_of_fault (h : ((s.starting q).checkStart q c).2.1 ≠ St.OK) : s.acceptStart q =
    (((s.starting q).checkStart q c).1.startFails q ((s.starting q).checkStart q c).2.1
      ((s.starting q).checkStart q c).2.2).recoverFailed q := by
  unfold State.acceptStart
  split
  · next hn => cases hc.symm.trans hn
  · next d hd =>
    cases hc.symm.trans hd
    exact if_pos h

end

/-- The record of a quay whose START is about to enter RUNNING. -/
def Quay.cleared (x : Quay) : Quay := { x with start := none, lastPub := none, frames := [], kOf := [] }

section
variable {x : Quay} {c : Chart} (hx : s.quays[q] = x) (hc : x.chart = some c) (hb : x.busy = some .start)
include hx hc hb

theorem State.startDone_recovering (openFrom : Nat) (next : FrameNo) :
    (((s.modQuay q Quay.cleared).enterRunning q openFrom next 0).reported q St.OK []).salv[q].recovering = s.salv[q].recovering := by
  have hcleared := (State.modQuay_quays s q Quay.cleared).trans (congrArg Quay.cleared hx)
  have hchart : (s.modQuay q Quay.cleared).quays[q].chart = some c := (congrArg Quay.chart hcleared).trans hc
  refine (State.reported_recovering St.OK [] (State.enterRunning_quays openFrom next 0 hcleared hc) hb).trans ?_
  exact congrArg (fun b : Vector Salv 4 => b[q].recovering)
    ((State.salv_of_books (State.books_of_core (State.core_enterRunning openFrom next 0 hchart))).trans rfl)

theorem State.startDone_eq (hrec : s.salv[q].recovering = false) : s.startDone q s.time.now =
    ((s.modQuay q Quay.cleared).enterRunning q (max (s.time.now + 100000) s.time.now) (s.reg (Reg.HM_QUAY_START_FRAME q)) 0).reported q
      St.OK [] := by
  have hno := (State.startDone_recovering hx hc hb (max (s.time.now + 100000) s.time.now) (s.reg (Reg.HM_QUAY_START_FRAME q))).trans hrec
  unfold State.startDone
  extract_lets +onlyGivenNames a b d v
  have hv : v.recovering = false := hno
  exact if_pos (by rw [hv]; rfl)

theorem State.startDone_quays (hrec : s.salv[q].recovering = false) : (s.startDone q s.time.now).quays[q] =
    (x.cleared.entered (s.time.now + 100000) (s.reg (Reg.HM_QUAY_START_FRAME q)) 0).completed .start St.OK := by
  rw [State.startDone_eq hx hc hb hrec, Nat.max_eq_left (Nat.le_add_right _ _)]
  have hcleared := (State.modQuay_quays s q Quay.cleared).trans (congrArg Quay.cleared hx)
  exact State.reported_quays St.OK [] (State.enterRunning_quays _ _ 0 hcleared hc) hb

end

section
variable {x : Quay} (st : Status) (es : List RepEntry) (hx : s.quays[q] = x) (hb : x.busy = some .start)
include hx hb

theorem State.startFails_recovering : (s.startFails q st es).salv[q].recovering = s.salv[q].recovering :=
  State.reported_recovering st es (State.modQuay_quays s q (fun y => { y with start := none }))
    ((congrArg (fun y : Quay => y.busy) hx).trans hb)

theorem State.startFails_quays : (s.startFails q st es).quays[q] = ({ x with start := none } : Quay).completed .start st := by
  subst hx
  exact State.reported_quays st es (State.modQuay_quays s q (fun y => { y with start := none })) hb

end

end
end Sys2Proof.Machine

open Sys2Proof Sys2Proof.Machine

/-- Settles O24: the checks leave the quays' records alone, and the outcome decides which record START leaves. -/
theorem startEntersRunningOrStaysLoaded : Obligations.StartEntersRunningOrStaysLoaded := by
  refine ⟨fun s q ini c hs hst hb hc hp hrec hok => ?_, fun s q ini c st hs hst hb hc hrec hfault hne => ?_⟩
  · have hstart : (s.begin.starting q).quays[q] = { s.quays[q] with busy := some .start } := State.modQuay_quays _ _ _
    have hcore := State.core_checkStart (s := s.begin.starting q) (q := q) c
    have hframe := State.startFrame_checkStart (s := s.begin.starting q) (q := q) c
    have hexec := exec_accepted hs (State.judgeCmd_of_free (ini := ini) (c := .start) (by rw [hst]; decide) (.inr rfl) hb)
    rw [State.acceptCmd, State.acceptStart_of_ok (s := s.begin) hc hp hok] at hexec
    generalize ((s.begin.starting q).checkStart q c).1 = u at hcore hframe hexec
    have hx := (congrArg (fun b : Vector Quay 4 => b[q]) (State.quays_of_core hcore)).trans hstart
    have hsalv := (congrArg (fun b : Vector Salv 4 => b[q].recovering) (State.salv_of_books (State.books_of_core hcore))).trans hrec
    have hq := State.startDone_quays hx hc rfl hsalv
    rw [hframe, State.time_of_books (State.books_of_core hcore)] at hq
    rw [State.time_of_books (State.books_of_core hcore)] at hexec
    generalize u.startDone q _ = t at hexec hq
    exact ⟨_, hexec, congrArg Quay.st hq, congrArg Quay.busy hq, congrArg Quay.lastOp hq, congrArg Quay.lastStatus hq,
      congrArg Quay.nextFrame hq, congrArg Quay.nextK hq, congrArg Quay.openFrom hq, congrArg Quay.frames hq, (congrArg Quay.chart hq).trans hc⟩
  · have hstart : (s.begin.starting q).quays[q] = { s.quays[q] with busy := some .start } := State.modQuay_quays _ _ _
    have hcore := State.core_checkStart (s := s.begin.starting q) (q := q) c
    have hexec := exec_accepted hs (State.judgeCmd_of_free (ini := ini) (c := .start) (by rw [hst]; decide) (.inr rfl) hb)
    have hfail : ((s.begin.starting q).checkStart q c).2.1 = st := hfault
    rw [State.acceptCmd, State.acceptStart_of_fault (s := s.begin) hc (hfail.symm ▸ hne), hfail] at hexec
    generalize ((s.begin.starting q).checkStart q c).2.2 = es at hexec
    generalize ((s.begin.starting q).checkStart q c).1 = u at hcore hexec
    have hx := (congrArg (fun b : Vector Quay 4 => b[q]) (State.quays_of_core hcore)).trans hstart
    have hsalv := (congrArg (fun b : Vector Salv 4 => b[q].recovering) (State.salv_of_books (State.books_of_core hcore))).trans hrec
    have hq := State.startFails_quays st es hx rfl
    rw [State.recoverFailed_of_none ((State.startFails_recovering st es hx rfl).trans hsalv)] at hexec
    generalize u.startFails q st es = t at hexec hq
    exact ⟨_, hexec, (congrArg Quay.st hq).trans hst, congrArg Quay.busy hq, congrArg Quay.lastOp hq, congrArg Quay.lastStatus hq,
      (congrArg Quay.frames hq).trans rfl, (congrArg Quay.tide hq).trans rfl⟩

end

section
/-! CADENCE_TICK and the opening of a frame (R45, R75, R99, R113). -/
namespace Sys2Proof.Machine

section
variable {s : State} {q : Fin 4}

/-- A frame as it opens: unconfirmed, unpublished, no stage dispatched. -/
def Quay.openedFrame (x : Quay) (T : Nat) : FrameRec where
  num := x.nextFrame
  k := x.nextK
  tick := T
  confirmed := false
  squashed := false
  byDock := false
  squashDone := false
  committed := false
  stages := (match x.chart with | some c => c.allStages | none => []).map (fun i =>
    (⟨i, false, false, false, none, [], [], 0, none, false, false⟩ : StageRun))
  streams := x.streamCtxs.map (fun c => ⟨c, false, false, none⟩)
  results := []
  opened := []
  first := x.firstNext
  noPrev := x.firstNext || x.prevSquashed
  stale := false

theorem Quay.openedFrame_stages {x : Quay} {T : Nat} {r : StageRun} (h : r ∈ (x.openedFrame T).stages) : r.dispatched = false := by
  obtain ⟨i, _, rfl⟩ := List.mem_map.mp h
  rfl

theorem State.openFrame_of_streams (T : Nat) (h : s.quays[q].streamCtxs.isEmpty = false) : s.openFrame q T =
    (s.modQuay q (fun x => { x with
      frames := x.frames ++ [s.quays[q].openedFrame T], nextFrame := s.quays[q].nextFrame + 1#32, nextK := s.quays[q].nextK + 1
      firstNext := false, prevSquashed := false })).setReg (Reg.HM_QUAY_FRAME q) s.quays[q].nextFrame :=
  if_neg (ne_true_of_eq_false h)

section
variable {c : Chart} {T : Nat} (hc : s.quays[q].chart = some c) (hT : s.lastTick? c = some T)
include hc hT

theorem doCadenceTick_of_taken (h : s.reg64 (Reg.HM_QUAY_TICK_LO q) = T) : doCadenceTick q s = s := by
  unfold doCadenceTick
  split
  · rfl
  · next d hd =>
    cases hc.symm.trans hd
    split
    · rfl
    · next U hU =>
      cases hT.symm.trans hU
      exact if_pos h

/-- A tick not yet taken is recorded, and then judged by the quay's state. -/
theorem doCadenceTick_of_new (h : s.reg64 (Reg.HM_QUAY_TICK_LO q) ≠ T) : doCadenceTick q s =
    let u := s.setReg64 (Reg.HM_QUAY_TICK_LO q) T
    let x := s.quays[q]
    if x.st ≠ .running ∨ T < x.openFrom then u.joinEarly q T none
    else if !x.frameRoom then (if c.cfg.piloted then u.bump (Reg.HM_QUAY_SKIP_COUNT q) else u).joinEarly q T none
    else
      let v : State := if q = 0 ∧ x.firstNext then { u with cg := { u.cg with ages := u.cg.ages.map (fun _ => some 0) } } else u
      (((((v.noteTick q T x.nextFrame).openFrame q T).joinEarly q T (some x.nextFrame)).releaseSignals q).settleRemote q) := by
  unfold doCadenceTick
  split
  · next hn => cases hc.symm.trans hn
  · next d hd =>
    cases hc.symm.trans hd
    split
    · next hn => cases hT.symm.trans hn
    · next U hU =>
      cases hT.symm.trans hU
      exact if_neg h

end
end
end Sys2Proof.Machine

open Sys2Proof Sys2Proof.Machine

/-- Settles O28: the branches of a tick, and the fields of the frame that opens. -/
theorem cadenceTickOpensTheNextFrame : Obligations.CadenceTickOpensTheNextFrame := by
  refine ⟨fun s q c T hs hc hT hnew => ?_, fun s q T hstreams => ?_, fun s q c T hs hc hT htaken =>
    act_eq_of hs (doCadenceTick_of_taken (s := s.begin) hc hT htaken)⟩
  · have hdo := doCadenceTick_of_new (s := s.begin) hc hT hnew
    intro u v
    refine ⟨fun hst ho hroom => ?_, fun hst ho hroom => ?_, fun h => ?_⟩
    · refine act_eq_of hs (hdo.trans ((if_neg ?_).trans (if_neg ?_)))
      · exact not_or.mpr ⟨not_not.mpr hst, Nat.not_lt.mpr ho⟩
      · exact fun h => Bool.false_ne_true ((congrArg (!·) hroom).symm.trans h)
    · refine act_eq_of hs (hdo.trans ((if_neg ?_).trans (if_pos ?_)))
      · exact not_or.mpr ⟨not_not.mpr hst, Nat.not_lt.mpr ho⟩
      · exact congrArg (!·) hroom
    · exact act_eq_of hs (hdo.trans (if_pos h))
  · rw [State.openFrame_of_streams T hstreams]
    have hq := State.modQuay_quays s q (fun x => { x with
      frames := x.frames ++ [s.quays[q].openedFrame T], nextFrame := s.quays[q].nextFrame + 1#32, nextK := s.quays[q].nextK + 1
      firstNext := false, prevSquashed := false })
    refine ⟨s.quays[q].openedFrame T, congrArg Quay.frames hq, rfl, rfl, rfl, rfl, rfl, fun r hr => Quay.openedFrame_stages hr,
      congrArg Quay.nextFrame hq, congrArg Quay.nextK hq, State.reg_setReg_same _ _ _, rfl, fun r hr => ?_⟩
    rw [State.setReg_quays]
    exact State.modQuay_quays_ne _ _ _ _ (Ne.symm hr)

end

section
/-! Commands that reach neither memory nor the quays. -/
namespace Sys2Proof.Machine

section
variable (s : State) (n : Nat)

/-! Tender's channels (R429, R435, R436). -/

theorem State.core_chanOk : (s.chanOk n).core = s.core := rfl
theorem State.core_chanBadState : (s.chanBadState n).core = s.core := rfl
theorem State.core_chanIgnored (a : Nat) : (s.chanIgnored a).core = s.core := (State.core_answer _ _ _ _ _).trans (s.core_ignoredWrite a)

theorem State.core_trigLost : (s.trigLost n).core = s.core := (State.core_setEvent _ _ _).trans rfl

theorem State.core_trigger : (s.trigger n).core = s.core := by
  unfold State.trigger
  dsimp only
  split
  · rfl
  · split <;> [exact s.core_trigLost n; rfl]
  · split <;> [exact s.core_trigLost n; rfl]
  · split <;> [exact s.core_trigLost n; rfl]
  · exact s.core_trigLost n
  · exact s.core_trigLost n
  · exact s.core_trigLost n
  · exact s.core_trigLost n

theorem State.core_triggerAll (p : ChanCfg → TChan → Bool) : (s.triggerAll p).core = s.core := by
  refine List.foldl_proj (g := State.core) (fun u k => ?_) _ _
  split
  · exact u.core_trigger k
  · rfl

theorem State.core_chanStart : (s.chanStart n).core = s.core := by
  unfold State.chanStart
  dsimp only
  split
  · exact s.core_chanIgnored _
  · split
    · exact s.core_chanBadState n
    · split
      · rfl
      · rfl

theorem State.core_chanPause : (s.chanPause n).core = s.core := by
  unfold State.chanPause
  split
  · exact s.core_chanIgnored _
  · split
    · rfl
    · rfl
    · exact s.core_chanBadState n

theorem State.core_chanResume : (s.chanResume n).core = s.core := by
  unfold State.chanResume
  split
  · exact s.core_chanIgnored _
  · split
    · rfl
    · rfl
    · exact s.core_chanBadState n

theorem State.core_chanAbort : (s.chanAbort n).core = s.core := by
  unfold State.chanAbort
  split
  · exact s.core_chanIgnored _
  · split
    · exact s.core_chanBadState n
    · exact s.core_chanBadState n
    · exact (State.core_chanOk _ n).trans (s.core_chanStop n)

theorem core_doTenderTimerFire : (doTenderTimerFire n s).core = s.core := by
  unfold doTenderTimerFire
  dsimp only
  split
  · rfl
  · exact State.core_triggerAll _ _

theorem core_doChainTrigger : (doChainTrigger n s).core = s.core := by
  unfold doChainTrigger
  split
  · rfl
  · exact State.core_triggerAll _ _

theorem core_doTenderRetry (off : Nat) : (doTenderRetry n off s).core = s.core := by
  unfold doTenderRetry
  dsimp only
  split <;> rfl

theorem core_doPauseDrained : (doPauseDrained n s).core = s.core := by
  unfold doPauseDrained
  dsimp only
  split <;> rfl

theorem core_doAbortDrained : (doAbortDrained n s).core = s.core := by
  unfold doAbortDrained
  dsimp only
  split
  · rfl
  · exact s.core_chanAborted n

/-! Coastguard, gates, boot, interrupts, supplies, frame sync. -/

theorem State.core_cgWrite (ini : Initiator) (a : Nat) {f : State → State} (h : (f s).core = s.core) : (s.cgWrite ini a f).core = s.core := by
  unfold State.cgWrite
  split
  · exact h
  · exact s.core_ignoredWrite a

theorem core_doGclCommit (ini : Initiator) (v : Word) : (doGclCommit ini v s).core = s.core := by
  unfold doGclCommit
  split
  · exact s.core_ignoredWrite _
  · split
    · rfl
    · dsimp only
      split
      · exact s.core_ignoredWrite _
      · rfl

theorem core_doCgSwRequest (ini : Initiator) (v : Word) : (doCgSwRequest ini v s).core = s.core := by
  refine s.core_cgWrite ini _ ?_
  split <;> rfl

theorem core_doCgWdtKick (ini : Initiator) : (doCgWdtKick ini s).core = s.core := s.core_cgWrite ini _ rfl

theorem State.core_romSend (uart : Bool) (m : List Byte) : (s.romSend uart m).core = s.core := by
  unfold State.romSend
  split <;> rfl

theorem State.core_modCustoms (f : CustomsState → CustomsState) : (s.modCustoms f).core = s.core := rfl

theorem core_doAnnounce : (doAnnounce s).core = s.core := by
  unfold doAnnounce
  split
  · rfl
  · exact (State.core_modCustoms _ _).trans ((State.core_romSend _ true _).trans (s.core_romSend false _))

theorem core_doRomData (uart : Bool) (off : Nat) (bs : List Byte) : (doRomData uart off bs s).core = s.core := by
  unfold doRomData
  split
  · rfl
  · dsimp only
    split
    · exact (State.core_romSend _ uart _).trans rfl
    · exact s.core_romSend uart _

theorem core_verify : (s.mailbox 1 State.mbVerify).core = s.core := by
  unfold State.mailbox
  split <;> rfl

theorem core_doMailboxComplete : (doMailboxComplete s).core = s.core := by
  unfold doMailboxComplete
  split
  · rfl
  · exact (State.core_raiseMsi _ _).trans rfl

theorem core_doTopMsiWrite (v : Word) : (doTopMsiWrite n v s).core = s.core := by
  unfold doTopMsiWrite
  split
  · rfl
  · split
    · exact s.core_ignoredWrite _
    · dsimp only
      split <;> rfl

theorem core_doVoutCommand (ack : Bool) : (doVoutCommand n ack s).core = s.core := by
  unfold doVoutCommand
  split
  · rfl
  · dsimp only
    split
    · rfl
    · split
      · rfl
      · exact (State.core_service _ 9).trans rfl

theorem core_doPmbAlert : (doPmbAlert s).core = s.core := (State.core_service _ 9).trans rfl

theorem core_doFsyncEdge : (doFsyncEdge n s).core = s.core := by
  unfold doFsyncEdge
  split
  · rfl
  · split
    · dsimp only
      split <;> rfl
    · rfl

theorem core_doFsyncPulseEnd : (doFsyncPulseEnd n s).core = s.core := by
  unfold doFsyncPulseEnd
  split
  · rfl
  · split
    · split <;> rfl
    · rfl

end

/-! The frames. -/

/-- The quays and memory. -/
def State.reach (s : State) : Vector Quay 4 × MemState := (s.quays, s.mem)

theorem State.reach_of_core {s t : State} (h : t.core = s.core) : t.reach = s.reach := by
  rw [State.reach, State.reach, State.quays_of_core h, State.mem_of_core h]

theorem act_reach {f : State → State} (h : ∀ u, (f u).core = u.core) (s : State) : ∃ t, act f s = .next t ∧ t.reach = s.reach :=
  act_keeps State.reach (fun _ => rfl) (fun _ _ => rfl) f s (State.reach_of_core (h s.begin))

theorem actAlive_reach {f : State → State} (h : ∀ u, (f u).core = u.core) (s : State) : ∃ t, actAlive f s = .next t ∧ t.reach = s.reach := by
  refine ⟨_, rfl, ?_⟩
  show (if s.coldHeld = true then s.begin else f s.begin).reach = s.reach
  split
  · rfl
  · exact State.reach_of_core (h s.begin)

theorem exec_sparesMemory (c : Instr) (s : State) (h : c.sparesMemory = true) : ∃ t, exec c s = .next t ∧ t.reach = s.reach := by
  cases c with
  | tenderStart n => exact act_reach (fun u => u.core_chanStart n) s
  | tenderPause n => exact act_reach (fun u => u.core_chanPause n) s
  | tenderResume n => exact act_reach (fun u => u.core_chanResume n) s
  | tenderAbort n => exact act_reach (fun u => u.core_chanAbort n) s
  | tenderTimerFire k => exact act_reach (fun u => core_doTenderTimerFire u k) s
  | peripheralRequest k => exact act_reach (fun u => u.core_triggerAll _) s
  | chainTrigger k => exact act_reach (fun u => core_doChainTrigger u k) s
  | tenderRetry n off => exact act_reach (fun u => core_doTenderRetry u n off) s
  | pauseDrained n => exact act_reach (fun u => core_doPauseDrained u n) s
  | abortDrained n => exact act_reach (fun u => core_doAbortDrained u n) s
  | gclCommit ini v => exact act_reach (fun u => core_doGclCommit u ini v) s
  | cgSwRequest ini v => exact actAlive_reach (fun u => core_doCgSwRequest u ini v) s
  | cgWdtKick ini => exact actAlive_reach (fun u => core_doCgWdtKick u ini) s
  | coreRelease v => exact act_reach (f := fun u => (u.coreRelease v).answer St.OK) (fun _ => rfl) s
  | announce => exact act_reach core_doAnnounce s
  | data uart off bs => exact act_reach (fun u => core_doRomData u uart off bs) s
  | verify => exact act_reach (f := fun u => u.mailbox 1 State.mbVerify) core_verify s
  | mailboxComplete => exact act_reach core_doMailboxComplete s
  | dumpRelease q =>
    exact act_keeps State.reach (fun _ => rfl) (fun _ _ => rfl) (fun u => (u.modSalv q (fun v => { v with held := false })).answer St.OK) s rfl
  | topMsiWrite v x => exact act_reach (fun u => core_doTopMsiWrite u v x) s
  | voutCommand r ack => exact act_reach (fun u => core_doVoutCommand u r ack) s
  | pmbAlert => exact act_reach core_doPmbAlert s
  | fsyncEdge k => exact act_reach (fun u => core_doFsyncEdge u k) s
  | fsyncPulseEnd k => exact act_reach (fun u => core_doFsyncPulseEnd u k) s
  | ticketResultPop => exact act_reach (f := doTicketResultPop) (fun _ => rfl) s
  | _ => cases h

/-! Registers. -/

section
variable (s : State)

theorem State.romSend_regs (uart : Bool) (m : List Byte) : (s.romSend uart m).regs = s.regs := by
  unfold State.romSend
  split <;> rfl

theorem doAnnounce_regs : (doAnnounce s).regs = s.regs := by
  unfold doAnnounce
  split
  · rfl
  · exact (State.modCustoms_regs _ _).trans ((State.romSend_regs _ true _).trans (s.romSend_regs false _))

theorem doRomData_regs (uart : Bool) (off : Nat) (bs : List Byte) : (doRomData uart off bs s).regs = s.regs := by
  unfold doRomData
  split
  · rfl
  · dsimp only
    split
    · exact (State.romSend_regs _ uart _).trans rfl
    · exact s.romSend_regs uart _

theorem verify_regs : (s.mailbox 1 State.mbVerify).regs = s.regs := by
  unfold State.mailbox
  split <;> rfl

/-- The registers but for TENDER_BAD_STATE_COUNT. -/
def State.otherRegs (s : State) (a : { a : Nat // a ≠ Reg.TENDER_BAD_STATE_COUNT }) : Word := s.reg a

theorem State.otherRegs_chanBadState (n : Nat) : (s.chanBadState n).otherRegs = s.otherRegs :=
  funext fun a => (s.reg_bump Reg.TENDER_BAD_STATE_COUNT a).trans (if_neg a.property)

theorem State.otherRegs_chanPause {n : Nat} (h : s.chanOwner n = none) : (s.chanPause n).otherRegs = s.otherRegs := by
  unfold State.chanPause
  rw [h]
  refine (congrArg State.otherRegs (if_neg Bool.false_ne_true)).trans ?_
  split
  · rfl
  · rfl
  · exact s.otherRegs_chanBadState n

theorem State.otherRegs_chanResume {n : Nat} (h : s.chanOwner n = none) : (s.chanResume n).otherRegs = s.otherRegs := by
  unfold State.chanResume
  rw [h]
  refine (congrArg State.otherRegs (if_neg Bool.false_ne_true)).trans ?_
  split
  · rfl
  · rfl
  · exact s.otherRegs_chanBadState n

end
end Sys2Proof.Machine

open Sys2Proof Sys2Proof.Machine

/-- Settles O60: each command's frame, and the registers of those that write at most one. -/
theorem commandsThatSpareMemoryQuaysAndRegisters : Obligations.CommandsThatSpareMemoryQuaysAndRegisters := by
  refine ⟨fun c s h => ?_, fun s v => ?_, fun s c h => ?_, fun s n c hfree h => ?_⟩
  · obtain ⟨t, ht, hreach⟩ := exec_sparesMemory c s h
    have hmem : t.mem = s.mem := congrArg Prod.snd hreach
    exact ⟨t, ht, congrArg Prod.fst hreach, hmem, fun a => by rw [State.byte, State.byte, hmem]⟩
  · obtain ⟨t, ht, hregs⟩ := act_keeps (fun u (a : { a : Nat // a ≠ Reg.TOP_CORE_RELEASE }) => u.reg a) (fun _ => rfl) (fun _ _ => rfl)
      (fun u => (u.coreRelease v).answer St.OK) s (funext fun a => State.reg_setReg_ne _ _ _ _ a.property)
    exact ⟨t, ht, fun a ha => congrFun hregs ⟨a, ha⟩⟩
  · have key : ∀ f : State → State, (∀ u, (f u).regs = u.regs) → ∃ t, act f s = .next t ∧ t.regs = s.regs :=
      fun f hf => act_keeps State.regs (fun _ => rfl) (fun _ _ => rfl) f s (hf s.begin)
    obtain rfl | rfl | ⟨u, o, b, rfl⟩ | ⟨q, rfl⟩ | rfl | rfl := h
    · exact key _ verify_regs
    · exact key _ doAnnounce_regs
    · exact key _ (fun w => doRomData_regs w u o b)
    · exact key (fun u => (u.modSalv q (fun v => { v with held := false })).answer St.OK) (fun _ => rfl)
    · exact key doTicketResultPop (fun _ => rfl)
    · refine ⟨_, rfl, ?_⟩
      show (if s.coldHeld = true then s.begin else doCgWdtKick .cg s.begin).regs = s.regs
      split <;> rfl
  · have key : ∀ f : State → State, (f s.begin).otherRegs = s.begin.otherRegs →
        ∃ t, act f s = .next t ∧ ∀ a, a ≠ Reg.TENDER_BAD_STATE_COUNT → t.reg a = s.reg a := by
      intro f hf
      obtain ⟨t, ht, hregs⟩ := act_keeps State.otherRegs (fun _ => rfl) (fun _ _ => rfl) f s hf
      exact ⟨t, ht, fun a ha => congrFun hregs ⟨a, ha⟩⟩
    obtain rfl | rfl := h
    · exact key (fun u => u.chanPause n) (State.otherRegs_chanPause s.begin hfree)
    · exact key (fun u => u.chanResume n) (State.otherRegs_chanResume s.begin hfree)

end
